-- ==== Sys2Proof/Word.lean ====
section
/-! DEFINITION. The word types of the X640 and the register index types (R6, R10, R29). Nothing here computes more
than a width conversion; bit fields, sign extension and byte order stand in Machine/Bits.lean. -/

namespace Sys2Proof

/-- A byte (R6). -/
abbrev Byte := BitVec 8
/-- A word of 32 bits (R6). -/
abbrev Word := BitVec 32
/-- A double of 64 bits (R6). -/
abbrev Dbl := BitVec 64
/-- A line of 64 bytes (R6). -/
abbrev Line := BitVec 512
/-- The contents of a vector register, 512 bytes (R29). -/
abbrev VData := BitVec 4096
/-- The contents of a mask register, 1,024 bits (R29). -/
abbrev MData := BitVec 1024
/-- The data of a tile register, 32 rows of 256 bytes (R34). -/
abbrev TData := BitVec 65536

/-- A scalar register number, s0 to s63 (R10). -/
abbrev SReg := Fin 64
/-- An address register number, a0 to a15 (R10). -/
abbrev ANum := Fin 16
/-- A predicate number, p0 to p7 (R10). -/
abbrev PNum := Fin 8
/-- A vector register number, v0 to v63 (R10). -/
abbrev VNum := Fin 64
/-- A mask register number, m0 to m7 (R10). -/
abbrev MNum := Fin 8
/-- A tile register number, t0 to t15 (R10). -/
abbrev TNum := Fin 16
/-- A dimension variable number, dv0 to dv15 (R10). -/
abbrev DNum := Fin 16
/-- A scale register number, k0 to k7 (R10). -/
abbrev KNum := Fin 8
/-- A codebook number, cb0 to cb3 (R10). -/
abbrev CbNum := Fin 4
/-- A laid window number, lw0 to lw7 (R10). -/
abbrev LwNum := Fin 8
/-- An accumulator slot number, acc0 to acc127 (R10). -/
abbrev AccNum := Fin 128
/-- A core index (R13). -/
abbrev CoreIx := Fin 640
/-- A global sheaf index (R13). -/
abbrev SheafIx := Fin 160
/-- A quire or an HBM stack (R13, R24). -/
abbrev StackIx := Fin 8
/-- A launch slot of the vat (R281). -/
abbrev LSlot := Fin 512

end Sys2Proof
end

