-- ==== Sys2Proof/Syntax.lean ====
section
/-! DEFINITION. The abstract syntax: `Instr` has one constructor per row of spec/opcode_table.json. The first 204
are the slot encodings of the 194 instructions (R51 to R54), with their fields as the encoding tables lay them out;
the other 73 are the steps of the device and its surroundings that the table lists beside them
(spec/95_what_each_step_holds.md). Register fields are `Fin`, element, condition and operation codes are closed
inductives, and numeric fields are bit vectors of their encoded width. -/

namespace Sys2Proof

/-- Source width of SEXT and ZEXT: codes 0, 1, 2 of src2 (R52). -/
inductive ExtW where | b8 | b16 | b32
deriving DecidableEq, Repr

/-- Condition codes of CMP and CMPI (R45). -/
inductive Cond where | eq | ne | lt | ge | ltn | gen
deriving DecidableEq, Repr

/-- Condition codes of VCMP (R127). -/
inductive VCond where | eq | ne | lt | le | gt | ge | un | ord
deriving DecidableEq, Repr

/-- Floating-point element codes of majors 0x18 to 0x1A (R48). -/
inductive FpFmt where | fp32 | bf16 | fp16
deriving DecidableEq, Repr

/-- Conversion format codes of major 0x1B (R49). -/
inductive FloatFmt where | fp32 | bf16 | fp16 | e4m3 | e5m2 | e2m3 | e3m2 | e2m1
deriving DecidableEq, Repr

/-- Integer element codes of majors 0x1D, 0x1E and 0x20 (R48). -/
inductive IntFmt where | i4 | i8 | i16 | i32 | n4 | n8 | n16 | n32
deriving DecidableEq, Repr

/-- Width codes of major 0x1F (R48). -/
inductive EWidth where | w4 | w8 | w16 | w32
deriving DecidableEq, Repr

/-- Direction of a VCVT of major 0x1C (R49). -/
inductive CvtDir where | intToFp | fpToInt
deriving DecidableEq, Repr

/-- The field of an address register that AGET reads (R124). -/
inductive AField where | addr | inc | wrap
deriving DecidableEq, Repr

/-- Element width of VGTH and VSCT (R235, R237). -/
inductive GWidth where | w16 | w32
deriving DecidableEq, Repr

/-- Atomic operations (R248). -/
inductive AtomOp where | add | and | or | xor | min | max | swp | cas
deriving DecidableEq, Repr

/-- Fence kinds (R221, R235). -/
inductive FenceKind where | dev | sys | ap
deriving DecidableEq, Repr

/-- Beater transforms (R259). -/
inductive Xfm where | tr16 | zero | fill | scl2Fp32 | scl2Bf16 | addcFp32 | addcI32 | nrw | swp16
deriving DecidableEq, Repr

/-- Scopes of TLBINV and SHOOT (R391). -/
inductive Scope where | page | space | all
deriving DecidableEq, Repr

/-- Operations of HALTC (R391). -/
inductive HaltOp where | halt | go | gate | ungate
deriving DecidableEq, Repr

/-- Rounding selection: the mode of FCTL, or one named (R50, R92). -/
inductive RndSel where | fctl | rne | rz | rsr
deriving DecidableEq, Repr

/-- Saturation selection: the mode of FCTL, or one named (R50, R92). -/
inductive SatSel where | fctl | sat | nsat
deriving DecidableEq, Repr

/-- The common fields of a vector modifier word (R50): `mask` is the mask register and mz when men = 1. A slot
without an extension has the word with every field zero. -/
structure VMod where
  rnd : RndSel
  sat : SatSel
  mask : Option (MNum × Bool)
deriving DecidableEq, Repr

/-- An I-format immediate: imm12 alone, or the 43-bit value of ext and imm12 (R46, R47). -/
inductive Imm where
  | short (v : BitVec 12)
  | long (v : BitVec 43)
deriving DecidableEq, Repr

/-- The extension of PDRN (R161); `dest` is bits [30:19], FLINE or the header's address register. -/
structure DrainX where
  dest : BitVec 12
  ofmt : BitVec 5
  rnd : RndSel
  sat : SatSel
  mx : Bool
  pk : Bool
  res : BitVec 8
deriving DecidableEq, Repr

/-- The extension of LTDRN (R161). -/
structure LDrainX where
  ofmt : BitVec 5
  rnd : RndSel
  sat : SatSel
  mx : Bool
  cbx : CbNum
deriving DecidableEq, Repr

/-- A typed send in flight on a wove link (R256, R346, R347). `rows` are the storage rows, each in the low bytes of
its word. -/
structure WoveFrame where
  dest : BitVec 16
  src : BitVec 16
  ptag : BitVec 16
  hops : Nat
  win : BitVec 8
  typ : BitVec 64
  rows : List (BitVec 4096)
deriving DecidableEq, Repr

/-- One member's contribution to an all-reduce (R258, R350). -/
structure FredFrame where
  dest : BitVec 16
  src : BitVec 16
  ptag : BitVec 16
  hops : Nat
  group : BitVec 8
  k : BitVec 16
  bytes : Nat
  op : BitVec 3
  fmt : BitVec 3
  data : BitVec 32768
deriving DecidableEq, Repr

/-- An access of a peer's untimed copy to this module's exported memory (R348); a write carries a line and its byte
mask. -/
structure PeerReq where
  dest : BitVec 16
  src : BitVec 16
  ptag : BitVec 16
  hops : Nat
  entry : BitVec 8
  offset : BitVec 30
  write : Option (BitVec 512 × BitVec 64)
deriving DecidableEq, Repr

/-- Something that arrives over a link of the wove. -/
structure Arriving (α : Type) where
  link : Fin 16
  body : α
deriving DecidableEq, Repr

/-- An access of the host to the management space (R354): its size in bytes, and the value of a write or none for a read. -/
structure MgmtAccess where
  size : Nat
  data : Option (BitVec 64)
deriving DecidableEq, Repr

/-- A request of the host on the DOE mailbox, by what R357 and R358 say of it: the algorithms on offer, the certificate chain of
a slot, the measurement blocks, a report of the registers of a mask over a nonce, what is not supported, and any other
request of SPDM. -/
inductive SpdmReq where
  | algorithms
  | certificate (slot : Nat)
  | measurements
  | report (mask : BitVec 16) (nonce : BitVec 256)
  | setCertificate
  | mutualAuth
  | other (req : List (BitVec 8))
deriving DecidableEq, Repr

/-- The instructions and steps of the X640, one constructor per row of spec/opcode_table.json. -/
inductive Instr where
  /-- ADD: Adds two scalars modulo 2^64. (R119) -/
  | add (d : SReg) (a : SReg) (b : SReg)
  /-- SUB: Subtracts two scalars modulo 2^64. (R119) -/
  | sub (d : SReg) (a : SReg) (b : SReg)
  /-- AND: Bitwise AND of two scalars. (R119) -/
  | and (d : SReg) (a : SReg) (b : SReg)
  /-- OR: Bitwise OR of two scalars. (R119) -/
  | or (d : SReg) (a : SReg) (b : SReg)
  /-- XOR: Bitwise XOR of two scalars. (R119) -/
  | xor (d : SReg) (a : SReg) (b : SReg)
  /-- ANDN: A AND NOT B. (R119) -/
  | andn (d : SReg) (a : SReg) (b : SReg)
  /-- SHL: Shifts left by B[5:0]. (R119) -/
  | shl (d : SReg) (a : SReg) (b : SReg)
  /-- SHR: Logical right shift by B[5:0]. (R119) -/
  | shr (d : SReg) (a : SReg) (b : SReg)
  /-- SRA: Arithmetic right shift by B[5:0]. (R119) -/
  | sra (d : SReg) (a : SReg) (b : SReg)
  /-- ROL: Rotates left by B[5:0]. (R119) -/
  | rol (d : SReg) (a : SReg) (b : SReg)
  /-- MIN: Signed minimum. (R119) -/
  | min (d : SReg) (a : SReg) (b : SReg)
  /-- MAX: Signed maximum. (R119) -/
  | max (d : SReg) (a : SReg) (b : SReg)
  /-- MINN: Unsigned minimum. (R119) -/
  | minn (d : SReg) (a : SReg) (b : SReg)
  /-- MAXN: Unsigned maximum. (R119) -/
  | maxn (d : SReg) (a : SReg) (b : SReg)
  /-- CLZ: Counts leading zero bits. (R119) -/
  | clz (d : SReg) (a : SReg)
  /-- CTZ: Counts trailing zero bits. (R119) -/
  | ctz (d : SReg) (a : SReg)
  /-- POPC: Counts one bits. (R119) -/
  | popc (d : SReg) (a : SReg)
  /-- SEXT: Sign-extends from 8, 16 or 32 bits. (R119) -/
  | sext (d : SReg) (a : SReg) (w : ExtW)
  /-- ZEXT: Zero-extends from 8, 16 or 32 bits. (R119) -/
  | zext (d : SReg) (a : SReg) (w : ExtW)
  /-- CMP: Compares two scalars and writes a predicate. (R121) -/
  | cmp (c : Cond) (p : PNum) (a : SReg) (b : SReg)
  /-- PAND: AND of two predicates. (R121) -/
  | pand (d : PNum) (a : PNum) (b : PNum)
  /-- POR: OR of two predicates. (R121) -/
  | por (d : PNum) (a : PNum) (b : PNum)
  /-- PNOT: Inverse of a predicate. (R121) -/
  | pnot (d : PNum) (a : PNum)
  /-- SEL: Selects A or B by a predicate. (R119) -/
  | sel (d : SReg) (a : SReg) (b : SReg) (q : PNum)
  /-- NOP: Does nothing. (R120) -/
  | nop
  /-- MUL: Low 64 bits of a product. (R119) -/
  | mul (d : SReg) (a : SReg) (b : SReg)
  /-- MULH: High 64 bits of the signed product. (R119) -/
  | mulh (d : SReg) (a : SReg) (b : SReg)
  /-- MULHN: High 64 bits of the unsigned product. (R119) -/
  | mulhn (d : SReg) (a : SReg) (b : SReg)
  /-- DIV: Signed quotient by DivRem. (R119) -/
  | div (d : SReg) (a : SReg) (b : SReg)
  /-- DIVN: Unsigned quotient by DivRem. (R119) -/
  | divn (d : SReg) (a : SReg) (b : SReg)
  /-- REM: Signed remainder by DivRem. (R119) -/
  | rem (d : SReg) (a : SReg) (b : SReg)
  /-- REMN: Unsigned remainder by DivRem. (R119) -/
  | remn (d : SReg) (a : SReg) (b : SReg)
  /-- ADDI: Adds a sign-extended immediate. (R120) -/
  | addi (d : SReg) (a : SReg) (i : Imm)
  /-- ANDI: ANDs a zero-extended immediate. (R120) -/
  | andi (d : SReg) (a : SReg) (i : Imm)
  /-- ORI: ORs a zero-extended immediate. (R120) -/
  | ori (d : SReg) (a : SReg) (i : Imm)
  /-- XORI: XORs a zero-extended immediate. (R120) -/
  | xori (d : SReg) (a : SReg) (i : Imm)
  /-- SHLI: Shifts left by an immediate. (R120) -/
  | shli (d : SReg) (a : SReg) (n : BitVec 6)
  /-- SHRI: Logical right shift by an immediate. (R120) -/
  | shri (d : SReg) (a : SReg) (n : BitVec 6)
  /-- SRAI: Arithmetic right shift by an immediate. (R120) -/
  | srai (d : SReg) (a : SReg) (n : BitVec 6)
  /-- CMPI: Compares a scalar with an immediate and writes a predicate. (R121) -/
  | cmpi (c : Cond) (p : PNum) (a : SReg) (i : Imm)
  /-- MOVI: Writes an immediate. (R120) -/
  | movi (d : SReg) (i : Imm)
  /-- LUI: Writes a 20-bit immediate shifted left by 12, sign-extended. (R120) -/
  | lui (d : SReg) (u : BitVec 20)
  /-- ADDPC: Adds a shifted 20-bit immediate to the bundle address. (R120) -/
  | addpc (d : SReg) (u : BitVec 20)
  /-- AMOV: Sets an address register's ADDR. (R124) -/
  | amov (d : ANum) (a : SReg)
  /-- AADD: Steps ADDR by a scalar with wrap. (R124) -/
  | aadd (d : ANum) (a : ANum) (b : SReg)
  /-- AINC: Sets an address register's INC. (R124) -/
  | ainc (d : ANum) (a : SReg)
  /-- AMOD: Sets an address register's WRAP. (R124) -/
  | amod (d : ANum) (a : SReg)
  /-- AGET: Reads ADDR, INC or WRAP into a scalar. (R124) -/
  | aget (d : SReg) (a : ANum) (f : AField)
  /-- AADDI: Steps ADDR by an immediate with wrap. (R124) -/
  | aaddi (d : ANum) (a : ANum) (i : Imm)
  /-- VADD: Element-wise floating-point add. (R126) -/
  | vadd (e : FpFmt) (d : VNum) (a : VNum) (b : VNum) (m : VMod) (roff : BitVec 16)
  /-- VSUB: Element-wise floating-point subtract. (R126) -/
  | vsub (e : FpFmt) (d : VNum) (a : VNum) (b : VNum) (m : VMod) (roff : BitVec 16)
  /-- VMUL: Element-wise floating-point multiply. (R126) -/
  | vmul (e : FpFmt) (d : VNum) (a : VNum) (b : VNum) (m : VMod) (roff : BitVec 16)
  /-- VFMA: Fused a × b + c with one rounding. (R126) -/
  | vfma (e : FpFmt) (d : VNum) (a : VNum) (b : VNum) (m : VMod) (roff : BitVec 16)
  /-- VFMS: Fused a × b − c with one rounding. (R126) -/
  | vfms (e : FpFmt) (d : VNum) (a : VNum) (b : VNum) (m : VMod) (roff : BitVec 16)
  /-- VMIN: Element-wise floating-point minimum. (R126) -/
  | vmin (e : FpFmt) (d : VNum) (a : VNum) (b : VNum) (m : VMod)
  /-- VMAX: Element-wise floating-point maximum. (R126) -/
  | vmax (e : FpFmt) (d : VNum) (a : VNum) (b : VNum) (m : VMod)
  /-- VCMP: Compares elements and writes a mask. (R127) -/
  | vcmp (e : FpFmt) (c : VCond) (d : MNum) (a : VNum) (b : VNum) (m : VMod)
  /-- VABS: Clears each element's sign. (R126) -/
  | vabs (e : FpFmt) (d : VNum) (a : VNum) (m : VMod)
  /-- VNEG: Inverts each element's sign. (R126) -/
  | vneg (e : FpFmt) (d : VNum) (a : VNum) (m : VMod)
  /-- VSEL: Selects elements of two vectors by a mask. (R126) -/
  | vsel (e : FpFmt) (d : VNum) (a : VNum) (b : VNum) (m : VMod) (selm : MNum)
  /-- VRND: Rounds each element to an integral value. (R126) -/
  | vrnd (e : FpFmt) (d : VNum) (a : VNum) (n : SReg) (m : VMod)
  /-- VEXP2: Correctly rounded 2^a per element. (R128) -/
  | vexp2 (e : FpFmt) (d : VNum) (a : VNum) (n : SReg) (m : VMod)
  /-- VLOG2: Correctly rounded log2 per element. (R128) -/
  | vlog2 (e : FpFmt) (d : VNum) (a : VNum) (n : SReg) (m : VMod)
  /-- VRCP: Correctly rounded reciprocal per element. (R128) -/
  | vrcp (e : FpFmt) (d : VNum) (a : VNum) (n : SReg) (m : VMod)
  /-- VRSQ: Correctly rounded reciprocal square root per element. (R128) -/
  | vrsq (e : FpFmt) (d : VNum) (a : VNum) (n : SReg) (m : VMod)
  /-- VSIG: Correctly rounded logistic sigmoid per element. (R128) -/
  | vsig (e : FpFmt) (d : VNum) (a : VNum) (n : SReg) (m : VMod)
  /-- VTANH: Correctly rounded tanh per element. (R128) -/
  | vtanh (e : FpFmt) (d : VNum) (a : VNum) (n : SReg) (m : VMod)
  /-- VREDSUM: Exact sum of active elements, rounded once, into element 0. (R129) -/
  | vredsum (e : FpFmt) (d : VNum) (a : VNum) (n : SReg) (m : VMod) (acc : Bool)
  /-- VREDMAX: Greatest active element into element 0. (R129) -/
  | vredmax (e : FpFmt) (d : VNum) (a : VNum) (m : VMod) (acc : Bool)
  /-- VREDMIN: Least active element into element 0. (R129) -/
  | vredmin (e : FpFmt) (d : VNum) (a : VNum) (m : VMod) (acc : Bool)
  /-- VCVT_FP: Converts elements between floating-point formats. (R130) -/
  | vcvtFp (df : FloatFmt) (sf : FloatFmt) (d : VNum) (a : VNum) (n : SReg) (m : VMod)
  /-- VCVT_INT: Converts elements between integer and floating-point formats. (R130) -/
  | vcvtInt (dir : CvtDir) (i : IntFmt) (f : FpFmt) (d : VNum) (a : VNum) (n : SReg) (m : VMod)
  /-- VIADD: Element-wise integer add, wrapping or saturating. (R131) -/
  | viadd (e : IntFmt) (d : VNum) (a : VNum) (b : VNum) (m : VMod)
  /-- VISUB: Element-wise integer subtract. (R131) -/
  | visub (e : IntFmt) (d : VNum) (a : VNum) (b : VNum) (m : VMod)
  /-- VIMUL: Element-wise integer multiply. (R131) -/
  | vimul (e : IntFmt) (d : VNum) (a : VNum) (b : VNum) (m : VMod)
  /-- VIDOT: Integer dot product into 32-bit lanes, saturated once. (R132) -/
  | vidot (e : IntFmt) (d : VNum) (a : VNum) (b : VNum) (m : VMod)
  /-- VIMIN: Element-wise integer minimum. (R131) -/
  | vimin (e : IntFmt) (d : VNum) (a : VNum) (b : VNum) (m : VMod)
  /-- VIMAX: Element-wise integer maximum. (R131) -/
  | vimax (e : IntFmt) (d : VNum) (a : VNum) (b : VNum) (m : VMod)
  /-- VSHL: Element-wise left shift. (R131) -/
  | vshl (e : IntFmt) (d : VNum) (a : VNum) (b : VNum) (m : VMod) (imm : Bool) (amt : BitVec 6)
  /-- VSHR: Element-wise logical right shift. (R131) -/
  | vshr (e : IntFmt) (d : VNum) (a : VNum) (b : VNum) (m : VMod) (imm : Bool) (amt : BitVec 6)
  /-- VSRA: Element-wise arithmetic right shift. (R131) -/
  | vsra (e : IntFmt) (d : VNum) (a : VNum) (b : VNum) (m : VMod) (imm : Bool) (amt : BitVec 6)
  /-- VAND: Element-wise bitwise AND. (R131) -/
  | vand (e : IntFmt) (d : VNum) (a : VNum) (b : VNum) (m : VMod)
  /-- VOR: Element-wise bitwise OR. (R131) -/
  | vor (e : IntFmt) (d : VNum) (a : VNum) (b : VNum) (m : VMod)
  /-- VXOR: Element-wise bitwise XOR. (R131) -/
  | vxor (e : IntFmt) (d : VNum) (a : VNum) (b : VNum) (m : VMod)
  /-- VPERM: Permutes elements by an index vector. (R133) -/
  | vperm (e : EWidth) (d : VNum) (a : VNum) (b : VNum) (m : VMod)
  /-- VBCAST: Broadcasts one element or a scalar to every element. (R133) -/
  | vbcast (e : EWidth) (d : VNum) (a : VNum) (m : VMod) (scl : Bool) (idx : BitVec 10)
  /-- VZIP: Interleaves two vectors into a pair in plain order. (R133) -/
  | vzip (e : EWidth) (d : VNum) (a : VNum) (b : VNum) (m : VMod)
  /-- VUNZIP: Separates even and odd elements into a pair. (R133) -/
  | vunzip (e : EWidth) (d : VNum) (a : VNum) (b : VNum) (m : VMod)
  /-- VSLIDE: Slides a window over two concatenated vectors. (R133) -/
  | vslide (e : EWidth) (d : VNum) (a : VNum) (b : VNum) (m : VMod) (sh : BitVec 11)
  /-- VIOTA: Writes a scalar plus the element index to each element. (R133) -/
  | viota (e : EWidth) (d : VNum) (a : SReg) (m : VMod)
  /-- VEXT: Extracts one element into a scalar. (R133) -/
  | vext (e : EWidth) (d : SReg) (a : VNum) (b : SReg) (m : VMod) (sgn : Bool)
  /-- VINS: Inserts a scalar into one element. (R133) -/
  | vins (e : EWidth) (d : VNum) (a : SReg) (b : SReg) (m : VMod)
  /-- VWIDEN_X2: Widens integer elements to twice their width into a pair. (R134) -/
  | vwidenX2 (e : IntFmt) (d : VNum) (a : VNum) (m : VMod)
  /-- VWIDEN_X4: Widens integer elements to four times their width into a quad. (R134) -/
  | vwidenX4 (e : IntFmt) (d : VNum) (a : VNum) (m : VMod)
  /-- VNARROW_D2: Narrows a pair of integer elements to half their width. (R134) -/
  | vnarrowD2 (e : IntFmt) (d : VNum) (a : VNum) (m : VMod)
  /-- VNARROW_D4: Narrows a quad of integer elements to a quarter of their width. (R134) -/
  | vnarrowD4 (e : IntFmt) (d : VNum) (a : VNum) (m : VMod)
  /-- VHUSK: Writes husk outputs or a dropout mask. (R136) -/
  | vhusk (d : BitVec 6) (a : SReg) (b : SReg) (m : VMod) (hk : Bool) (msk : Bool) (wc : EWidth) (p : BitVec 16)
  /-- VPACK: Packs a vector into a sparse block in a register pair. (R137) -/
  | vpack (d : VNum) (a : VNum) (m : VMod) (pfmt : BitVec 5) (res : BitVec 8)
  /-- VUNPACK: Checks and expands a packed block from a register pair. (R138) -/
  | vunpack (d : VNum) (a : VNum) (m : VMod)
  /-- VLAID: Decodes laid weights from a laid window into a vector. (R140) -/
  | vlaid (d : VNum) (l : LwNum) (n : SReg) (m : VMod) (adv : Bool) (w32 : Bool)
  /-- VQNT: Quantises blocks of 32 by scale search and writes codes and scales. (R141) -/
  | vqnt (d : VNum) (a : VNum) (n : SReg) (m : VMod) (fout : BitVec 3) (sin : Bool) (cbx : CbNum) (kreg : KNum) (sb : BitVec 6)
  /-- MAND: AND of two masks. (R135) -/
  | mand (d : MNum) (a : MNum) (b : MNum) (m : VMod)
  /-- MOR: OR of two masks. (R135) -/
  | mor (d : MNum) (a : MNum) (b : MNum) (m : VMod)
  /-- MNOT: Inverse of a mask. (R135) -/
  | mnot (d : MNum) (a : MNum) (m : VMod)
  /-- MPOP: Counts the set bits of a mask into a scalar. (R135) -/
  | mpop (d : SReg) (a : MNum) (m : VMod)
  /-- TTYPE: Checks and installs a type word from a scalar. (R151) -/
  | ttype (t : TNum) (s : SReg)
  /-- TGETT: Reads a tile's type word into a scalar. (R151) -/
  | tgett (d : SReg) (t : TNum) (r : Bool)
  /-- TBIND: Binds or checks a dimension variable against a scalar value. (R152) -/
  | tbind (v : DNum) (s : SReg)
  /-- TBIND_U: Unifies two dimension variables. (R152) -/
  | tbindU (v : DNum) (u : DNum)
  /-- TFREE: Empties a tile register's type and tag. (R152) -/
  | tfree (t : TNum)
  /-- TFREE_DV: Unbinds a dimension variable. (R152) -/
  | tfreeDv (v : DNum)
  /-- TRESH: Reshapes a tile to a new type word. (R153) -/
  | tresh (d : TNum) (a : TNum) (s : SReg)
  /-- TTRANS: Transposes a rank-2 tile. (R154) -/
  | ttrans (d : TNum) (a : TNum) (lt : Bool)
  /-- TCAST: Reinterprets or converts a tile's element format. (R155) -/
  | tcast (d : TNum) (a : TNum) (f : BitVec 5) (rnd : BitVec 2) (sat : BitVec 2) (re : Bool) (off : BitVec 31)
  /-- TZERO: Zeros a tile's data. (R157) -/
  | tzero (d : TNum)
  /-- TEXP: Expands packed, scaled or codebook tiles to plain values. (R156) -/
  | texp (d : TNum) (a : TNum) (k : KNum) (out : Bool)
  /-- TMOV: Copies a tile's data, type and tag. (R157) -/
  | tmov (d : TNum) (a : TNum)
  /-- LACQ: Requests the sheaf's press lease. (R162) -/
  | lacq (p : PNum)
  /-- LREL: Releases the lease. (R162) -/
  | lrel
  /-- PLDB: Loads a press stationary buffer from a tile. (R164) -/
  | pldb (t : TNum) (mode : BitVec 2) (b : Bool) (x : TNum) (noff : BitVec 3) (k : KNum)
  /-- PLDB_SP: Loads a press stationary buffer from a scratchpad region. (R164) -/
  | pldbSp (a : ANum) (b : Bool)
  /-- PLAID: Loads a stationary buffer with BF16 weights decoded from a laid window. (R166) -/
  | plaid (l : LwNum) (b : Bool) (s : SReg) (adv : Bool)
  /-- PMMA: Streams A against a buffer, accumulating into a slot. (R167) -/
  | pmma (c : AccNum) (t : TNum) (b : Bool) (k : KNum)
  /-- PMMZ: Streams A against a buffer into a slot started from zero. (R167) -/
  | pmmz (c : AccNum) (t : TNum) (b : Bool) (k : KNum)
  /-- PCLR: Clears an accumulator slot, its type and K-open bit. (R168) -/
  | pclr (c : AccNum)
  /-- PTSC: Sets or removes the press tensor scale. (R169) -/
  | ptsc (s : SReg) (off : Bool)
  /-- PDRN: Drains an accumulator slot, quantised, to the felt or a region. (R170) -/
  | pdrn (c : AccNum) (dst : Bool) (cb : CbNum) (s : SReg) (x : DrainX)
  /-- CBLD: Loads a codebook register from scratchpad. (R172) -/
  | cbld (q : CbNum) (a : ANum) (o : BitVec 10)
  /-- CBLD_PT: Builds the press product table from two codebooks. (R172) -/
  | cbldPt (a : CbNum) (b : CbNum) (ea : Bool) (eb : Bool)
  /-- KLD: Loads a scale register from a scratchpad line. (R173) -/
  | kld (k : KNum) (a : ANum) (o : BitVec 10)
  /-- LWSET: Loads and checks a laid window register. (R174) -/
  | lwset (l : LwNum) (a : ANum) (o : BitVec 10)
  /-- LWSTEP: Steps or sets a laid window's bit offset. (R174) -/
  | lwstep (l : LwNum) (s : SReg) (ab : Bool)
  /-- LTMMA: Multiplies logical tiles through the press sequencer. (R176) -/
  | ltmma (c : AccNum) (a : ANum) (b : ANum) (z : Bool)
  /-- LTDRN: Drains a run of slots into a logical-tile region. (R177) -/
  | ltdrn (c : AccNum) (d : ANum) (s : SReg) (x : LDrainX)
  /-- VTENC: Queues a laid-encoding command to the quire's Viterbi engine. (R179) -/
  | vtenc (p : PNum) (l : LwNum) (a : ANum)
  /-- REP: Makes the bundle's press command reissue at a fixed period. (R175) -/
  | rep (cnt : BitVec 6) (per : BitVec 6) (tstep : BitVec 3) (astep : BitVec 3)
  /-- LDB: Loads a byte, zero-extended. (R231) -/
  | ldb (r : SReg) (a : ANum) (o : BitVec 10)
  /-- LDH: Loads a half, zero-extended. (R231) -/
  | ldh (r : SReg) (a : ANum) (o : BitVec 10)
  /-- LDW: Loads a word, zero-extended. (R231) -/
  | ldw (r : SReg) (a : ANum) (o : BitVec 10)
  /-- LDD: Loads a double. (R231) -/
  | ldd (r : SReg) (a : ANum) (o : BitVec 10)
  /-- STB: Stores a byte. (R231) -/
  | stb (r : SReg) (a : ANum) (o : BitVec 10)
  /-- STH: Stores a half. (R231) -/
  | sth (r : SReg) (a : ANum) (o : BitVec 10)
  /-- STW: Stores a word. (R231) -/
  | stw (r : SReg) (a : ANum) (o : BitVec 10)
  /-- STD: Stores a double. (R231) -/
  | std (r : SReg) (a : ANum) (o : BitVec 10)
  /-- VLD: Loads 512 bytes into a vector. (R231) -/
  | vld (r : VNum) (a : ANum) (o : BitVec 10)
  /-- VST: Stores a vector's 512 bytes. (R231) -/
  | vst (r : VNum) (a : ANum) (o : BitVec 10)
  /-- TLD: Loads a logical tile into a tile register with tag check and unification. (R232) -/
  | tld (r : TNum) (a : ANum) (o : BitVec 10)
  /-- TST: Stores a tile register into a region and advances its tag. (R233) -/
  | tst (r : TNum) (a : ANum) (o : BitVec 10)
  /-- FLRD: Reads a felt line into a vector segment under the stamp rule. (R234) -/
  | flrd (r : VNum) (a : ANum) (o : BitVec 10)
  /-- VLDS: Strided load of 8 lines. (R236) -/
  | vlds (v : VNum) (a : ANum) (s : SReg)
  /-- VSTS: Strided store of 8 lines. (R236) -/
  | vsts (v : VNum) (a : ANum) (s : SReg)
  /-- VGTH: Gathers elements by index. (R237) -/
  | vgth (v : VNum) (a : ANum) (i : VNum) (w : GWidth)
  /-- VSCT: Scatters elements by index. (R237) -/
  | vsct (v : VNum) (a : ANum) (i : VNum) (w : GWidth)
  /-- DKPUT: Places a vector segment on a deckle lane. (R238) -/
  | dkput (l : BitVec 4) (v : VNum) (seg : BitVec 3)
  /-- DKPUT_SP: Places a scratchpad line on a deckle lane. (R238) -/
  | dkputSp (l : BitVec 4) (a : ANum)
  /-- DKTAKE: Takes a deckle lane value into a vector segment. (R238) -/
  | dktake (l : BitVec 4) (v : VNum) (seg : BitVec 3)
  /-- DKTAKE_SP: Takes a deckle lane value into a scratchpad line. (R238) -/
  | dktakeSp (l : BitVec 4) (a : ANum)
  /-- CPY: Performs a timed copy bound to timeline and web slots. (R244) -/
  | cpy (a : ANum) (so : SReg) (dof : SReg)
  /-- CPYU: Starts an untimed copy that signals a barrier on completion. (R245) -/
  | cpyu (a : ANum) (so : SReg) (dof : SReg)
  /-- CPYW: Buffers a converted copy write to global memory for the commit. (R246) -/
  | cpyw (a : ANum) (so : SReg) (dof : SReg)
  /-- SATOM: Atomic operation on a unit in a sheaf core's scratchpad. (R249) -/
  | satom (a : ANum) (d : SReg) (op : AtomOp) (w : Bool) (cis : BitVec 2)
  /-- GATOM: Buffers an atomic on a global unit for its place in commit order. (R250) -/
  | gatom (d : SReg) (a : SReg) (op : AtomOp) (w : Bool) (rt : Bool)
  /-- FENCE: Marks its ream's commit and the next ream start with device, system or aperture scope. (R251) -/
  | fence (k : FenceKind)
  /-- BINIT: Initialises a barrier object's THRESH and CNT. (R252) -/
  | binit (a : ANum) (v : SReg)
  /-- BSIG: Adds to a barrier's CNT locally, in the sheaf, the sheet or outside it. (R253) -/
  | bsig (a : ANum) (v : SReg) (sc : SReg) (c : Bool)
  /-- BWAIT: Makes its bundle a wait point on a barrier and consumes a round when it issues. (R254) -/
  | bwait (a : ANum) (bare : Bool) (keep : Bool)
  /-- FSEND: Buffers a typed tile or vector send to a wove peer. (R256) -/
  | fsend (v : Bool) (r : BitVec 6) (s : SReg)
  /-- FRED: Buffers a contribution to an all-reduce over a peer group. (R258) -/
  | fred (a : ANum)
  /-- QCNT: Reads the entry count of a queue. (R255) -/
  | qcnt (d : SReg) (q : BitVec 2)
  /-- BXFM: Sends an in-place transform to a bank's beater. (R259) -/
  | bxfm (a : ANum) (op : Xfm) (v : SReg) (cnt : BitVec 4)
  /-- MIGR: Starts migration of marked pages by their deadline. (R260) -/
  | migr (a : ANum)
  /-- JMP: Jumps to a relative target. (R307) -/
  | jmp (o : BitVec 24)
  /-- CALL: Calls a relative target, linking in s59. (R307) -/
  | call (o : BitVec 24)
  /-- BR: Branches if a scalar is non-zero. (R307) -/
  | br (s : SReg) (o : BitVec 18)
  /-- BRP: Branches on a predicate or its inverse. (R307) -/
  | brp (inv : Bool) (p : PNum) (o : BitVec 18)
  /-- CALLR: Calls a register target after three empty ticks. (R308) -/
  | callr (d : SReg) (a : SReg)
  /-- RET: Returns to a register target after three empty ticks. (R308) -/
  | ret (a : SReg)
  /-- LOOP: Pushes a hardware loop with an immediate count. (R310) -/
  | loop (cnt : BitVec 10) (eo : BitVec 8)
  /-- LOOPS: Pushes a hardware loop with a scalar count, or skips it when the count is zero. (R310) -/
  | loops (s : SReg) (eo : BitVec 8)
  /-- LIDX: Reads a loop index and optionally pops the top entry. (R312) -/
  | lidx (d : SReg) (dep : BitVec 3) (pop : Bool)
  /-- WAITT: Places N empty ticks before the next bundle. (R313) -/
  | waitt (n : BitVec 17)
  /-- WAITT_ABS: Delays the next bundle to an absolute sheet tick. (R313) -/
  | waittAbs (s : SReg)
  /-- BND: Marks a ream's last tick, at whose end the commit and checkpoint follow. (R315) -/
  | bnd
  /-- EXIT: Ends the unit at the end of its tick. (R315) -/
  | exit
  /-- LAUNCH: Requests a new launch from the vat and returns a handle. (R318) -/
  | launch (d : SReg) (a : SReg) (p : PNum)
  /-- GRAPH: Requests a new graph from the vat and returns a handle. (R318) -/
  | graph (d : SReg) (a : SReg) (p : PNum)
  /-- CCWAIT: Makes its bundle a wait point on a completion counter. (R320) -/
  | ccwait (ge : Bool) (a : SReg) (b : SReg)
  /-- CCRD: Reads a completion counter's value. (R321) -/
  | ccrd (d : SReg) (a : SReg)
  /-- CANCEL: Queues a cancel of a work item for the commit. (R322) -/
  | cancel (a : SReg) (p : PNum)
  /-- HSIG: Buffers a host signal on an MSI-X vector. (R323) -/
  | hsig (s : SReg) (v : BitVec 6)
  /-- TRAP: Raises a software trap at the end of its tick. (R324) -/
  | trap (c : BitVec 12)
  /-- BRK: Raises a breakpoint at the end of its tick. (R324) -/
  | brk (c : BitVec 12)
  /-- RTH: Returns from the handler to resume, end, replay, commit early or halt. (R393) -/
  | rth (act : BitVec 3)
  /-- MFSR: Reads a system register by selector. (R392) -/
  | mfsr (d : SReg) (sr : BitVec 8)
  /-- MTSR: Writes a system register by selector. (R392) -/
  | mtsr (a : SReg) (sr : BitVec 8)
  /-- CTXSW: Parks or unparks a sheet at commit. (R395) -/
  | ctxsw (p : PNum) (s : SReg) (inn : Bool)
  /-- CTXST: Saves a complete sheet image at commit. (R396) -/
  | ctxst (a : ANum) (s : SReg) (b : SReg)
  /-- CTXLD: Loads a sheet image at commit. (R396) -/
  | ctxld (a : ANum) (s : SReg) (b : SReg)
  /-- TLBINV: Invalidates matching entries in the issuing core's TLB. (R397) -/
  | tlbinv (sc : Scope) (s : SReg) (b : SReg)
  /-- SHOOT: Enters a device shoot-down at commit. (R398) -/
  | shoot (a : ANum) (sc : Scope) (s : SReg) (b : SReg)
  /-- MONRD: Reads a monitor value. (R394) -/
  | monrd (d : SReg) (a : SReg)
  /-- ATTEST: Queues a signed attestation report. (R399) -/
  | attest (a : ANum) (m : SReg) (b : SReg)
  /-- ERRPOP: Reads a word of the oldest error record and optionally removes it. (R394) -/
  | errpop (d : SReg) (w : BitVec 3) (pop : Bool)
  /-- HALTC: Halts, releases, power-gates or ungates a core's sheet or sheaf at commit. (R395) -/
  | haltc (p : PNum) (s : SReg) (op : HaltOp)
  /-- ISSUE_BUNDLE: At a sheet tick a core decodes its next bundle, checks it, and issues every slot together or none of them. (R55) -/
  | issueBundle (core : CoreIx)
  /-- EARLY_COMMIT_RESUME: Once the early commit's data and signal phases have taken effect, BUDGET is reset and the excepting bundle issues. (R300) -/
  | earlyCommitResume (l : LSlot)
  /-- HOLD_END: At the first mill tick at which every condition of every core's wait-point bundle holds, those bundles issue and the sheet tick advances. (R189) -/
  | holdEnd (l : LSlot)
  /-- HOLD_TIMEOUT: A hold that has lasted 2^HOLDL mill ticks makes a hold-timeout abort request. (R297) -/
  | holdTimeout (l : LSlot)
  /-- RESULT_LANDING: An in-flight result, tap, arrival, press row or drain line is written at its stated sheet tick and sets its flags. (R9) -/
  | resultLanding (core : CoreIx)
  /-- REP_REISSUE: A repeated press command reissues PER ticks later with its fields stepped, checked as a full issue. (R175) -/
  | repReissue (core : CoreIx)
  /-- LEASE_END: A lease ends when its 4,096 ticks run out, its 64th command issues, or its holder releases it or exits. (R162) -/
  | leaseEnd (g : SheafIx)
  /-- COMMIT_ENTRY_ENQUEUE: A commit entry that found its channel's write queue full enters it once an entry leaves. (R274) -/
  | commitEntryEnqueue (l : LSlot)
  /-- REAM_ADVANCE: Once every write-queue entry of the commit's data phase has entered its queue, the sheet tick advances to the next ream. (R192) -/
  | reamAdvance (l : LSlot)
  /-- COMMIT_SIGNAL_PHASE: Once the data phase is visible, the signals, sends, FRED contributions and vat requests of the commit take effect. (R213) -/
  | commitSignalPhase (l : LSlot)
  /-- COMMIT_COMPLETION_PHASE: After the launch's last signal phase, the completion counters, NOTE write and vat messages advance in order. (R287) -/
  | commitCompletionPhase (l : LSlot)
  /-- HANDLER_ISSUE_BUNDLE: The handler context issues one bundle per mill tick, restricted to its permitted instructions. (R387) -/
  | handlerIssueBundle (core : CoreIx)
  /-- TIMELINE_POSITION: A stack's controller reaches the next timeline position and performs each channel's word after the timing checks. (R265) -/
  | timelinePosition (st : StackIx)
  /-- DRAIN_STALL: A head write-queue entry that has not left after 64 turns is reported as a drain stall. (R301) -/
  | drainStall (st : StackIx) (ch : Fin 32)
  /-- WEB_LINE_ARRIVAL: A line read for a timed copy reaches its sheaf's copy port over its web lane and waits for its landing tick. (R269) -/
  | webLineArrival (st : StackIx)
  /-- UNTIMED_COPY_LINE: An untimed copy reads or writes one line through a free bank-tick or the web. (R217) -/
  | untimedCopyLine (n : Nat)
  /-- UNTIMED_COPY_COMPLETE: When every byte of an untimed copy is written, it adds 1 to its barrier. (R245) -/
  | untimedCopyComplete (n : Nat)
  /-- BARRIER_SIGNAL_DELIVERY: A signal to another sheaf's barrier is added to CNT through a free bank-tick. (R253) -/
  | barrierSignalDelivery (n : Nat)
  /-- VTENC_SERVICE: The quire's Viterbi engine takes the next queued encoding command and runs its two trellis passes. (R180) -/
  | vtencService (q : StackIx)
  /-- VTENC_COMPLETE: The engine writes the stream and the result record and signals the command's barrier. (R180) -/
  | vtencComplete (q : StackIx)
  /-- FRED_COMPLETE: When every member's contribution is combined, the result, STATUS and barrier signal are written. (R258) -/
  | fredComplete (n : Nat)
  /-- FRED_TIMEOUT: A FRED whose contributions have not all arrived within 2^HOLDL mill ticks finishes with STATUS 2. (R349) -/
  | fredTimeout (n : Nat)
  /-- FRED_HELD_EXPIRY: An early contribution held for 2^HOLDL mill ticks is dropped and recorded. (R350) -/
  | fredHeldExpiry (n : Nat)
  /-- QUEUE_ENTRY_ENTER: An entry waiting at its source for a full queue enters it when room appears. (R255) -/
  | queueEntryEnter (core : CoreIx) (q : Fin 4)
  /-- CXL_MEM_WRITE: A CXL.mem write in the HDM range enters the write queue, or is discarded and reported. (R352) -/
  | cxlMemWrite (off : BitVec 46) (data : Line) (mask : BitVec 64)
  /-- VAT_PLACEMENT: The vat places a ready or reserved launch whose sheaves are all available and switches them to the new context. (R291) -/
  | vatPlacement (l : LSlot)
  /-- VAT_RESERVATION: A ready launch whose wait reaches 2^RESV becomes reserved and holds its sheaves. (R290) -/
  | vatReservation (l : LSlot)
  /-- CONTEXT_STREAM_COMPLETE: A stream-out or stream-in finishes and the context slot becomes free or usable. (R295) -/
  | contextStreamComplete (l : LSlot)
  /-- VAT_SWITCH_ACTIVE: A shadow sheet chosen by the vat becomes active on all its sheaves and resumes or replays from its checkpoint. (R293) -/
  | vatSwitchActive (l : LSlot)
  /-- SHOOTDOWN_ACK: A copy engine acknowledges once no request using the dying entry remains in flight. (R303) -/
  | shootdownAck (core : CoreIx)
  /-- MIGR_PAGE: The copy engine copies one marked page to its destination frame, sets it resident and counts a slip if late. (R260) -/
  | migrPage (n : Nat)
  /-- MIGR_COMPLETE: When every page is settled, MIGR writes STATUS and signals its barrier. (R260) -/
  | migrComplete (n : Nat)
  /-- CTX_IMAGE_COMPLETE: A context image save or load ends, writes its status byte and signals its barrier. (R396) -/
  | ctxImageComplete (n : Nat)
  /-- FRED_CONTRIBUTION_ARRIVAL: A FRED contribution arrives at a member and is combined, held or dropped by its number k. (R350) -/
  | fredContributionArrival (a : Arriving FredFrame)
  /-- WOVE_FRAME_RECEIVE: A received wove frame is forwarded, dropped or matched by PTAG and window, then delivered. (R347) -/
  | woveFrameReceive (a : Arriving WoveFrame)
  /-- PEER_ACCESS_REQUEST: A remote untimed-copy access arrives and is served or refused through an export entry. (R348) -/
  | peerAccessRequest (a : Arriving PeerReq)
  /-- HOST_MESSAGE_QUEUE_WRITE: A host write to the host message queue pushes an entry as a system-scope release. (R219) -/
  | hostMessageQueueWrite (core : CoreIx) (v : Dbl)
  /-- CXL_MEM_READ: A CXL.mem read returns device memory through HDMCFG's mapping, or poisoned data. (R352) -/
  | cxlMemRead (off : BitVec 46)
  /-- MGMT_REGISTER_WRITE: A write to a management register with no behaviour of its own updates the register or is refused and reported. (R354) -/
  | mgmtRegisterWrite (off : BitVec 26) (acc : MgmtAccess)
  /-- JOB_PORT_WRITE: A JOBPORT write is checked, then creates a job whose root launch enters as a graph of one, or is refused. (R282) -/
  | jobPortWrite (v : Dbl)
  /-- VATCFG_WRITE: A VATCFG write sets the vat's bounds, or is refused whole if any field is out of range. (R289) -/
  | vatcfgWrite (v : Dbl)
  /-- TIMELINE_WORD_WRITE: A timeline word write is checked against the ring rules and takes effect from the next turn, or is refused. (R267) -/
  | timelineWordWrite (st : StackIx) (ix : Fin 524288) (v : Dbl)
  /-- TLCTL_WRITE: A TLCTL write sets the watermarks, length and RUN, checked as the timeline words are. (R268) -/
  | tlctlWrite (st : StackIx) (v : Dbl)
  /-- ASCTL_WRITE: An ASCTL word write updates the address-space description and resets FRED counts on EN rising or a word-2 write. (R328) -/
  | asctlWrite (a : Fin 256) (w : Fin 4) (v : Dbl)
  /-- MEASEXT_WRITE: A MEASEXT write extends measurement register 8 to 15 by MEASDATA, and is refused below 8. (R356) -/
  | measextWrite (v : Dbl)
  /-- ERRPTR_HEAD_WRITE: A host write of HEAD removes log records, and is refused if it passes TAIL. (R381) -/
  | errptrHeadWrite (v : Dbl)
  /-- REQUEUE_WRITE: A REQUEUE write lets an aborted sheet be chosen again after a page fault or timeline fault. (R383) -/
  | requeueWrite (v : Dbl)
  /-- HALTCTL_REQ: HALTCTL.REQ halts the named sheet at its next sheet tick. (R390) -/
  | haltctlReq (l : LSlot)
  /-- HALTCTL_GO: HALTCTL.GO releases a debug halt and resumes the sheet. (R390) -/
  | haltctlGo (l : LSlot)
  /-- HALTCTL_STEP: HALTCTL.STEP lets one sheet tick issue and then halts again. (R390) -/
  | haltctlStep (l : LSlot)
  /-- DBGDATA_WRITE: A DBGDATA write sets the selected register of a halted sheet's core, or is refused when not halted. (R390) -/
  | dbgdataWrite (v : Dbl)
  /-- CLKCTL_WRITE: A CLKCTL write starts a change of the arithmetic clock frequency, or is refused. (R404) -/
  | clkctlWrite (v : Dbl)
  /-- CFGCTL_COMMIT: A COMMIT write starts checking and storing the image in the window. (R410) -/
  | cfgctlCommit (v : Dbl)
  /-- SHOOTREQ_WRITE: A host SHOOTREQ write enters a shoot-down in the queue, or is refused when the queue is full. (R398) -/
  | shootreqWrite (v : Dbl)
  /-- SPDM_REQUEST: An SPDM request on the DOE mailbox is answered with certificates, measurements, sessions or IDE keys. (R357) -/
  | spdmRequest (req : SpdmReq)
  /-- WOVE_LINK_UP: A wove link finishes training, sets WOVECTL.UP and starts carrying flits, so routes through it become usable. (R346) -/
  | woveLinkUp (l : Fin 16)
  /-- WOVE_LINK_DOWN: A wove link stops carrying flits and UP clears, so later sends routed over it are dropped and reported at commit. (R347) -/
  | woveLinkDown (l : Fin 16)
  /-- CXL_UNSUPPORTED_REQUEST: A host request that uses an unsupported CXL feature gets the prescribed error response and changes nothing. (R352) -/
  | cxlUnsupportedRequest
  /-- APFENCE_READ: A read of APFENCE completes once earlier CXL.mem writes are visible to the device, and increments SEQ. (R223) -/
  | apfenceRead
  /-- CLOCK_CHANGE_COMPLETE: A frequency change ends within 2^20 mill ticks and BUSY clears. (R404) -/
  | clockChangeComplete
  /-- CFG_COMMIT_COMPLETE: The image check ends, storing the image and setting OK, or leaving the store and clearing OK. (R410) -/
  | cfgCommitComplete
  /-- SEEDCTL_RETRY: In seed mode, RETRY clears FAILS and begins a new start. (R408) -/
  | seedctlRetry
  /-- SEEDCTL_GENKEY: GENKEY generates and seals an SM2 identity key when the store holds none. (R409) -/
  | seedctlGenkey
  /-- GRAPH_ADMIT: A graph waiting for launch slots enters the vat once they are free. (R318) -/
  | graphAdmit
  /-- SHOOTDOWN_START: The shoot-down at the head of the queue begins and every copy engine removes matching entries. (R398) -/
  | shootdownStart
  /-- SHOOTDOWN_COMPLETE: When all 640 engines have acknowledged, the shoot-down completes and signals its barrier or SHOOTSTAT. (R341) -/
  | shootdownComplete
  /-- ATTEST_COMPLETE: An attestation report is signed and written, and its barrier is signalled. (R399) -/
  | attestComplete
  /-- MONITOR_SAMPLE: Every 1,200 mill ticks each monitor is sampled into MONVAL. (R402) -/
  | monitorSample
  /-- POWER_ON_START: Power-on begins the measured start sequence. (R407) -/
  | powerOnStart
  /-- CONVENTIONAL_RESET_START: A CXL conventional reset begins the start sequence. (R406) -/
  | conventionalResetStart
  /-- START_TIMEOUT: A start that overruns 60 seconds fails with code 10. (R407) -/
  | startTimeout
  /-- POWER_LOSS: Power is removed, whether by the board after a thermal trip or during a start, and a start left in progress counts later as failure code 11. (R407) -/
  | powerLoss
  /-- HOST_SNOOP: A CXL.cache snoop from the host arrives and the device answers it with no data. (R351) -/
  | hostSnoop
deriving DecidableEq, Repr

end Sys2Proof
end

