-- ==== Sys2Proof/Config.lean ====
section
/-! DEFINITION. The free values of the model: values and instants the spec leaves open. Each is an opaque constant
without a body, so no proof can see what it is and a claim about it is true whatever it is. A free value drawn anew at
every use is applied to the counter `State.fresh`, which the step reads and advances. -/

namespace Sys2Proof.Config

/-- Mill ticks that an untimed engine takes to its next action: R202 and R217 tie none of them to a tick. -/
opaque engineDelay : Nat → Nat
/-- Which of several possibilities the device takes where the spec names none: which free slot, context slot or
partition (R291, R318, R329). -/
opaque pick : Nat → Nat
/-- A bit of a choice the spec leaves to the device. -/
opaque choice : Nat → Bool
/-- A sample of a monitor (R402). -/
opaque sample : Nat → BitVec 32
/-- The trip temperature of the configuration image (R405, R406). -/
opaque tripTemp : Nat → BitVec 32
/-- The thresholds of a monitor in the configuration image (R403, R406). -/
opaque threshold : Nat → BitVec 64
/-- What the steps of a start after the second find: 5 to 10, the failure code of the step that fails, or another value for none
(R407). -/
opaque startOutcome : Nat → Nat
/-- The stack at which the memory test of step 5 fails (R407). -/
opaque startStack : Nat → Nat
/-- The rollback floor a configuration image carries (R406). -/
opaque imageFloor : Nat → Nat
/-- A digest measured during a start (R407). -/
opaque startDigest : Nat → BitVec 256
/-- VERSION of a configuration image (R406). -/
opaque imageVersion : Nat → Nat
/-- SERIAL of a configuration image, the serial number of the module (R355, R406). -/
opaque imageSerial : Nat → BitVec 64
/-- A public key that GENKEY makes, or that a configuration image carries (R355, R409). -/
opaque publicKey : Nat → BitVec 512
/-- Whether a configuration image passes the checks of step 2 but for that of its VERSION (R407, R410). -/
opaque imageOk : List Byte → Bool
/-- An SM2 signature of a digest's bytes under the identity key: SM2 signatures draw on the device's random source
(R358). -/
opaque sign : Nat → List Byte → List Byte
/-- The bytes of an answer to an SPDM request whose contents the spec does not state (R357). -/
opaque spdm : Nat → List (BitVec 8) → List (BitVec 8)
/-- The result of a special function that the interval evaluation of the model does not settle within its bound
(R128). -/
opaque special : Nat → BitVec 64 → BitVec 64
/-- The bits a part lays out in the in-flight area of a context image (R396). -/
opaque flightImage : Nat → Byte
/-- A byte whose value the spec leaves open: of an uncorrectable line read by a fetch or a table walk (R278), or of a
peer's memory (R348). -/
opaque freeByte : Nat → Byte

/-- The type that a tile register or an accumulator slot takes from an image that holds this word for it, which is not well
formed: R396 names no outcome, and by R91 the device never holds such a word. -/
opaque loadedType : BitVec 64 → BitVec 64

/-- The number by which a schedule fault names a press resource: R380 has the field and no numbering of the resources. -/
opaque pressCode : Nat → Nat

end Sys2Proof.Config
end

