-- ==== Sys2Proof/WellFormed.lean ====
section
/-! DEFINITION. Well-formedness: the reserved values and combinations of fields that make a slot an illegal
instruction (R57) and that the types of the syntax do not already exclude: register groups (R115), modifier fields
without meaning (R50, R125 to R141), and reserved field values. -/

namespace Sys2Proof

/-- Register width of a conversion format, in bits; six-bit formats are stored in bytes (R32, R49). -/
def FloatFmt.bits : FloatFmt → Nat
  | .fp32 => 32
  | .bf16 => 16
  | .fp16 => 16
  | .e4m3 => 8
  | .e5m2 => 8
  | .e2m3 => 8
  | .e3m2 => 8
  | .e2m1 => 4

/-- Width of a floating-point element, in bits (R48). -/
def FpFmt.bits : FpFmt → Nat
  | .fp32 => 32
  | .bf16 => 16
  | .fp16 => 16

/-- Width of an integer element, in bits (R48). -/
def IntFmt.bits : IntFmt → Nat
  | .i4 => 4
  | .i8 => 8
  | .i16 => 16
  | .i32 => 32
  | .n4 => 4
  | .n8 => 8
  | .n16 => 16
  | .n32 => 32

/-- Whether an integer element is signed (R48). -/
def IntFmt.signed : IntFmt → Bool
  | .i4 => true
  | .i8 => true
  | .i16 => true
  | .i32 => true
  | .n4 => false
  | .n8 => false
  | .n16 => false
  | .n32 => false

/-- Width of an element of major 0x1F, in bits (R48). -/
def EWidth.bits : EWidth → Nat
  | .w4 => 4
  | .w8 => 8
  | .w16 => 16
  | .w32 => 32

/-- Number of elements of a register at a width (R32). -/
def EWidth.count (e : EWidth) : Nat := 4096 / e.bits

/-- A legal pair of major 0x1B: the formats differ and at least one is FP32, BF16 or FP16 (R49). -/
def cvtPairOk (df sf : FloatFmt) : Bool :=
  df ≠ sf && (df == .fp32 || df == .bf16 || df == .fp16 || sf == .fp32 || sf == .bf16 || sf == .fp16)

/-- Width of the destination elements of a conversion of major 0x1C (R49). -/
def cvtDstBits (dir : CvtDir) (i : IntFmt) (f : FpFmt) : Nat :=
  match dir with
  | .intToFp => f.bits
  | .fpToInt => i.bits

/-- Width of the source elements of a conversion of major 0x1C (R49). -/
def cvtSrcBits (dir : CvtDir) (i : IntFmt) (f : FpFmt) : Nat :=
  match dir with
  | .intToFp => i.bits
  | .fpToInt => f.bits

/-- The element codes VIDOT accepts (R132). -/
def dotFmtOk : IntFmt → Bool
  | .i32 => false
  | .n32 => false
  | .i4 => true
  | .i8 => true
  | .i16 => true
  | .n4 => true
  | .n8 => true
  | .n16 => true

/-- The source formats of a VWIDEN by the factor `f`: the widened elements have at most 32 bits (R53). -/
def widenFmtOk (f : Nat) (e : IntFmt) : Bool := decide (e.bits * f ≤ 32)

/-- The source formats of a VNARROW by the factor `f`: the narrowed elements have at least 4 bits (R53). -/
def narrowFmtOk (f : Nat) (e : IntFmt) : Bool := decide (4 * f ≤ e.bits)

/-- A register that names a group of `g` registers is a multiple of `g`; a single register is any (R115). -/
def aligned (r : VNum) (g : Nat) : Bool := decide (g ≤ 1) || r.val % g == 0

/-- Registers of the index group of VPERM: indices are 16 bits wide for 4- and 8-bit elements (R133). -/
def permGroup : EWidth → Nat
  | .w4 => 4
  | .w8 => 2
  | .w16 => 1
  | .w32 => 1

/-- The amount of a vector shift stands in AMT with IMM = 1, in vb otherwise; the other field is reserved (R131). -/
def shiftOk (imm : Bool) (b : VNum) (amt : BitVec 6) : Bool := if imm then b == 0 else amt == 0

/-- The formats VPACK accepts (R137). -/
def packFmtOk (f : BitVec 5) : Bool :=
  [0, 1, 2, 3, 4, 10, 12, 13, 14, 16, 17, 18].contains f.toNat

/-- Fields of a modifier word an instruction uses: rounding, saturation, a mask, and mz (R50). -/
def modOk (rnd sat mask mz : Bool) (m : VMod) : Bool :=
  (rnd || m.rnd == .fctl) && (sat || m.sat == .fctl) &&
    match m.mask with
    | none => true
    | some (_, z) => mask && (mz || !z)

/-- The selectors of MFSR and MTSR (R392). -/
def srSelOk (sel : BitVec 8) : Bool :=
  decide (sel.toNat ≤ 0x17) || (decide (0x40 ≤ sel.toNat) && decide (sel.toNat ≤ 0x7F))

/-- The sources that a scope leaves unused are zero: the page of an address space's, and both of all (R44, R397). -/
def scopeOk (sc : Scope) (s b : SReg) : Bool :=
  match sc with
  | .page => true
  | .space => b == 0
  | .all => s == 0 && b == 0

/-- The conditions of R57 on the fields of an instruction, beyond what its types already say. -/
def Instr.wf : Instr → Bool
  | .add _ _ _ => true
  | .sub _ _ _ => true
  | .and _ _ _ => true
  | .or _ _ _ => true
  | .xor _ _ _ => true
  | .andn _ _ _ => true
  | .shl _ _ _ => true
  | .shr _ _ _ => true
  | .sra _ _ _ => true
  | .rol _ _ _ => true
  | .min _ _ _ => true
  | .max _ _ _ => true
  | .minn _ _ _ => true
  | .maxn _ _ _ => true
  | .clz _ _ => true
  | .ctz _ _ => true
  | .popc _ _ => true
  | .sext _ _ _ => true
  | .zext _ _ _ => true
  | .cmp _ _ _ _ => true
  | .pand _ _ _ => true
  | .por _ _ _ => true
  | .pnot _ _ => true
  | .sel _ _ _ _ => true
  | .nop => true
  | .mul _ _ _ => true
  | .mulh _ _ _ => true
  | .mulhn _ _ _ => true
  | .div _ _ _ => true
  | .divn _ _ _ => true
  | .rem _ _ _ => true
  | .remn _ _ _ => true
  | .addi _ _ _ => true
  | .andi _ _ _ => true
  | .ori _ _ _ => true
  | .xori _ _ _ => true
  | .shli _ _ _ => true
  | .shri _ _ _ => true
  | .srai _ _ _ => true
  | .cmpi _ _ _ _ => true
  | .movi _ _ => true
  | .lui _ _ => true
  | .addpc _ _ => true
  | .amov _ _ => true
  | .aadd _ _ _ => true
  | .ainc _ _ => true
  | .amod _ _ => true
  | .aget _ _ _ => true
  | .aaddi _ _ _ => true
  | .vadd _ _ _ _ m _ => modOk true true true true m
  | .vsub _ _ _ _ m _ => modOk true true true true m
  | .vmul _ _ _ _ m _ => modOk true true true true m
  | .vfma _ _ _ _ m _ => modOk true true true true m
  | .vfms _ _ _ _ m _ => modOk true true true true m
  | .vmin _ _ _ _ m => modOk false false true true m
  | .vmax _ _ _ _ m => modOk false false true true m
  | .vcmp _ _ _ _ _ m => modOk false false true true m
  | .vabs _ _ _ m => modOk false false true true m
  | .vneg _ _ _ m => modOk false false true true m
  | .vsel _ _ _ _ m _ => modOk false false true true m
  | .vrnd _ _ _ _ m => modOk true false true true m
  | .vexp2 _ _ _ _ m => modOk true true true true m
  | .vlog2 _ _ _ _ m => modOk true true true true m
  | .vrcp _ _ _ _ m => modOk true true true true m
  | .vrsq _ _ _ _ m => modOk true true true true m
  | .vsig _ _ _ _ m => modOk true true true true m
  | .vtanh _ _ _ _ m => modOk true true true true m
  | .vredsum _ _ _ _ m _ => modOk true true true false m
  | .vredmax _ _ _ m _ => modOk false false true false m
  | .vredmin _ _ _ m _ => modOk false false true false m
  | .vcvtFp df sf d a _ m =>
      modOk true true true true m && cvtPairOk df sf && aligned d (df.bits / sf.bits) && aligned a (sf.bits / df.bits)
  | .vcvtInt dir i f d a _ m =>
      modOk true true true true m && aligned d (cvtDstBits dir i f / cvtSrcBits dir i f) && aligned a (cvtSrcBits dir i f / cvtDstBits dir i f)
  | .viadd _ _ _ _ m => modOk false true true true m
  | .visub _ _ _ _ m => modOk false true true true m
  | .vimul _ _ _ _ m => modOk false true true true m
  | .vidot e _ _ _ m => modOk false false true true m && dotFmtOk e
  | .vimin _ _ _ _ m => modOk false false true true m
  | .vimax _ _ _ _ m => modOk false false true true m
  | .vshl _ _ _ b m imm amt => modOk false false true true m && shiftOk imm b amt
  | .vshr _ _ _ b m imm amt => modOk false false true true m && shiftOk imm b amt
  | .vsra _ _ _ b m imm amt => modOk false false true true m && shiftOk imm b amt
  | .vand _ _ _ _ m => modOk false false true true m
  | .vor _ _ _ _ m => modOk false false true true m
  | .vxor _ _ _ _ m => modOk false false true true m
  | .vperm e _ _ b m => modOk false false true true m && aligned b (permGroup e)
  | .vbcast e _ _ m scl idx => modOk false false true true m && (if scl then idx == 0 else idx.toNat < e.count)
  | .vzip _ d _ _ m => modOk false false true true m && aligned d 2
  | .vunzip _ d _ _ m => modOk false false true true m && aligned d 2
  | .vslide e _ _ _ m sh => modOk false false true true m && decide (sh.toNat ≤ e.count)
  | .viota _ _ _ m => modOk false false true true m
  | .vext _ _ _ _ m _ => modOk false false false false m
  | .vins _ _ _ _ m => modOk false false false false m
  | .vwidenX2 e d _ m => modOk false false true true m && widenFmtOk 2 e && aligned d 2
  | .vwidenX4 e d _ m => modOk false false true true m && widenFmtOk 4 e && aligned d 4
  | .vnarrowD2 e _ a m => modOk false true true true m && narrowFmtOk 2 e && aligned a 2
  | .vnarrowD4 e _ a m => modOk false true true true m && narrowFmtOk 4 e && aligned a 4
  | .vhusk d a _ m hk msk wc p =>
      modOk false false true true m && (!hk || a == 0) && (if msk then d.toNat < 8 else wc == .w4 && p == 0)
  | .vpack d _ m pfmt res =>
      modOk false false true false m && packFmtOk pfmt && decide (1 ≤ res.toNat) && decide (res.toNat ≤ 128) && aligned d 2
  | .vunpack _ a m => modOk false false true true m && aligned a 2
  | .vlaid _ _ _ m _ _ => modOk true true true true m
  | .vqnt _ _ _ m fout sin cbx _ sb =>
      modOk true false false false m && decide (fout.toNat ≤ 5) && (fout.toNat == 5 || cbx == 0) && decide (sb.toNat + (if sin then 8 else 4) ≤ 64)
  | .mand _ _ _ m => modOk false false false false m
  | .mor _ _ _ m => modOk false false false false m
  | .mnot _ _ m => modOk false false false false m
  | .mpop _ _ m => modOk false false false false m
  | .ttype _ _ => true
  | .tgett _ _ _ => true
  | .tbind _ _ => true
  | .tbindU v u => decide (v ≠ u)
  | .tfree _ => true
  | .tfreeDv _ => true
  | .tresh _ _ _ => true
  | .ttrans _ _ _ => true
  | .tcast _ _ f _ sat _ _ => decide (f.toNat ≤ 18) && decide (sat.toNat ≤ 2)
  | .tzero _ => true
  | .texp _ _ _ _ => true
  | .tmov _ _ => true
  | .lacq _ => true
  | .lrel => true
  | .pldb _ mode _ x _ k => decide (mode.toNat ≤ 2) && (if mode.toNat = 0 then x == 0 else k == 0)
  | .pldbSp _ _ => true
  | .plaid _ _ _ _ => true
  | .pmma _ _ _ _ => true
  | .pmmz _ _ _ _ => true
  | .pclr _ => true
  | .ptsc s off => (!off || s == 0)
  | .pdrn _ dst _ _ x => decide (x.ofmt.toNat ≤ 8) && (!dst || x.dest.toNat % 256 == 0) && (x.pk == (x.res != 0))
  | .cbld _ _ _ => true
  | .cbldPt a b ea eb => (!ea || a == 0) && (!eb || b == 0)
  | .kld _ _ _ => true
  | .lwset _ _ _ => true
  | .lwstep _ _ _ => true
  | .ltmma _ _ _ _ => true
  | .ltdrn _ _ _ x => decide (x.ofmt.toNat ≤ 8)
  | .vtenc _ _ _ => true
  | .rep cnt per _ _ => decide (1 ≤ cnt.toNat) && decide (1 ≤ per.toNat)
  | .ldb _ _ _ => true
  | .ldh _ _ _ => true
  | .ldw _ _ _ => true
  | .ldd _ _ _ => true
  | .stb _ _ _ => true
  | .sth _ _ _ => true
  | .stw _ _ _ => true
  | .std _ _ _ => true
  | .vld _ _ _ => true
  | .vst _ _ _ => true
  | .tld _ _ _ => true
  | .tst _ _ _ => true
  | .flrd _ _ _ => true
  | .vlds _ _ _ => true
  | .vsts _ _ _ => true
  | .vgth _ _ _ _ => true
  | .vsct _ _ _ _ => true
  | .dkput _ _ _ => true
  | .dkputSp _ _ => true
  | .dktake _ _ _ => true
  | .dktakeSp _ _ => true
  | .cpy _ _ _ => true
  | .cpyu _ _ _ => true
  | .cpyw _ _ _ => true
  | .satom _ d op _ _ => (op ≠ .cas || d.val % 2 == 0)
  | .gatom d _ op _ _ => (op ≠ .cas || d.val % 2 == 0)
  | .fence _ => true
  | .binit _ _ => true
  | .bsig _ _ sc c => (c || sc == 0)
  | .bwait a bare _ => (!bare || a == 0)
  | .fsend v r d => (if v then d.val % 2 == 0 else r.toNat < 16)
  | .fred _ => true
  | .qcnt _ _ => true
  | .bxfm _ op v cnt => match op with
    | .tr16 => v == 0 && cnt == 0
    | .zero => v == 0
    | .nrw => v == 0
    | .swp16 => v == 0
    | _ => true
  | .migr _ => true
  | .jmp _ => true
  | .call _ => true
  | .br _ _ => true
  | .brp _ _ _ => true
  | .callr _ _ => true
  | .ret _ => true
  | .loop cnt _ => decide (1 ≤ cnt.toNat)
  | .loops _ _ => true
  | .lidx _ dep _ => decide (dep.toNat ≤ 5)
  | .waitt n => decide (1 ≤ n.toNat)
  | .waittAbs _ => true
  | .bnd => true
  | .exit => true
  | .launch _ _ _ => true
  | .graph _ _ _ => true
  | .ccwait ge _ b => (ge || b == 0)
  | .ccrd _ _ => true
  | .cancel _ _ => true
  | .hsig _ v => decide (v.toNat ≤ 31)
  | .trap _ => true
  | .brk _ => true
  | .rth act => decide (act.toNat ≤ 4)
  | .mfsr _ sr => srSelOk sr
  | .mtsr _ sr => srSelOk sr
  | .ctxsw _ _ _ => true
  | .ctxst _ _ _ => true
  | .ctxld _ _ _ => true
  | .tlbinv sc s b => scopeOk sc s b
  | .shoot _ sc s b => scopeOk sc s b
  | .monrd _ _ => true
  | .attest _ _ _ => true
  | .errpop _ _ _ => true
  | .haltc _ _ _ => true
  | .issueBundle _ => true
  | .earlyCommitResume _ => true
  | .holdEnd _ => true
  | .holdTimeout _ => true
  | .resultLanding _ => true
  | .repReissue _ => true
  | .leaseEnd _ => true
  | .commitEntryEnqueue _ => true
  | .reamAdvance _ => true
  | .commitSignalPhase _ => true
  | .commitCompletionPhase _ => true
  | .handlerIssueBundle _ => true
  | .timelinePosition _ => true
  | .drainStall _ _ => true
  | .webLineArrival _ => true
  | .untimedCopyLine _ => true
  | .untimedCopyComplete _ => true
  | .barrierSignalDelivery _ => true
  | .vtencService _ => true
  | .vtencComplete _ => true
  | .fredContributionArrival _ => true
  | .fredComplete _ => true
  | .fredTimeout _ => true
  | .fredHeldExpiry _ => true
  | .woveFrameReceive _ => true
  | .peerAccessRequest _ => true
  | .queueEntryEnter _ _ => true
  | .hostMessageQueueWrite _ _ => true
  | .cxlMemWrite _ _ _ => true
  | .cxlMemRead _ => true
  | .cxlUnsupportedRequest => true
  | .mgmtRegisterWrite _ _ => true
  | .jobPortWrite _ => true
  | .apfenceRead => true
  | .vatcfgWrite _ => true
  | .timelineWordWrite _ _ _ => true
  | .tlctlWrite _ _ => true
  | .asctlWrite _ _ _ => true
  | .measextWrite _ => true
  | .errptrHeadWrite _ => true
  | .requeueWrite _ => true
  | .haltctlReq _ => true
  | .haltctlGo _ => true
  | .haltctlStep _ => true
  | .dbgdataWrite _ => true
  | .clkctlWrite _ => true
  | .clockChangeComplete => true
  | .cfgctlCommit _ => true
  | .cfgCommitComplete => true
  | .seedctlRetry => true
  | .seedctlGenkey => true
  | .shootreqWrite _ => true
  | .spdmRequest _ => true
  | .graphAdmit => true
  | .vatPlacement _ => true
  | .vatReservation _ => true
  | .contextStreamComplete _ => true
  | .vatSwitchActive _ => true
  | .shootdownStart => true
  | .shootdownAck _ => true
  | .shootdownComplete => true
  | .migrPage _ => true
  | .migrComplete _ => true
  | .ctxImageComplete _ => true
  | .attestComplete => true
  | .monitorSample => true
  | .powerOnStart => true
  | .conventionalResetStart => true
  | .startTimeout => true
  | .woveLinkUp _ => true
  | .woveLinkDown _ => true
  | .powerLoss => true
  | .hostSnoop => true

end Sys2Proof
end

