-- ==== Sys2Proof/Decode.lean ====
section
/-! DEFINITION. Bundles and slot words (R38 to R58): the fields of a word, the decoder of one slot with its five
refusals (R57), the class of a word (R42), DecodeBundle with its four faults (R55, R56), and after them the encoder.
Words are handled as natural numbers below 2^32. A slot is decoded in three moves: its codes are read (refusals 1, 2
and 3), the instruction found is encoded again and compared with the word so that every reserved bit is caught
(refusal 4), and an extension no form accepts is refused last (refusal 5). -/

namespace Sys2Proof

/-- The `n` bits of `w` from bit `lo` up. -/
def bitField (w lo n : Nat) : Nat := w / 2 ^ lo % 2 ^ n

/-- One bit of `w`. -/
def bitAt (w lo : Nat) : Bool := bitField w lo 1 == 1

/-- The `n`-bit field of `w` at `lo` as a bit vector. -/
def bits (n w lo : Nat) : BitVec n := BitVec.ofNat n (bitField w lo n)

/-- A six-bit register field (R44). -/
def reg6 (w lo : Nat) : Fin 64 := Fin.ofNat 64 (bitField w lo 6)

/-- A four-bit register field (R44). -/
def reg4 (w lo : Nat) : Fin 16 := Fin.ofNat 16 (bitField w lo 4)

/-- A three-bit register field (R44). -/
def reg3 (w lo : Nat) : Fin 8 := Fin.ofNat 8 (bitField w lo 3)

/-- A two-bit register field (R44). -/
def reg2 (w lo : Nat) : Fin 4 := Fin.ofNat 4 (bitField w lo 2)

/-- A seven-bit accumulator field (R161). -/
def reg7 (w lo : Nat) : Fin 128 := Fin.ofNat 128 (bitField w lo 7)

/-- The sum of `base` and of each value at its bit position: a word put together from its fields. -/
def packBits (base : Nat) : List (Nat × Nat) → Nat
  | [] => base
  | (lo, v) :: t => v * 2 ^ lo + packBits base t

/-- A Boolean as a bit. -/
def bitOf (b : Bool) : Nat := if b then 1 else 0

/-- The code of an `ExtW` (R52). -/
def ExtW.code : ExtW → Nat
  | .b8 => 0
  | .b16 => 1
  | .b32 => 2

/-- The `ExtW` of a code; a code the table does not list is refused with reason 4 (R52, R57). -/
def ExtW.ofCode (k : Nat) : Except Nat ExtW :=
  if k = 0 then .ok .b8
  else if k = 1 then .ok .b16
  else if k = 2 then .ok .b32
  else .error 4

/-- The code of a `Cond` (R45). -/
def Cond.code : Cond → Nat
  | .eq => 0
  | .ne => 1
  | .lt => 2
  | .ge => 3
  | .ltn => 4
  | .gen => 5

/-- The `Cond` of a code; a code the table does not list is refused with reason 3 (R45, R57). -/
def Cond.ofCode (k : Nat) : Except Nat Cond :=
  if k = 0 then .ok .eq
  else if k = 1 then .ok .ne
  else if k = 2 then .ok .lt
  else if k = 3 then .ok .ge
  else if k = 4 then .ok .ltn
  else if k = 5 then .ok .gen
  else .error 3

/-- The code of a `VCond` (R127). -/
def VCond.code : VCond → Nat
  | .eq => 0
  | .ne => 1
  | .lt => 2
  | .le => 3
  | .gt => 4
  | .ge => 5
  | .un => 6
  | .ord => 7

/-- The `VCond` of a code; a code the table does not list is refused with reason 3 (R127, R57). -/
def VCond.ofCode (k : Nat) : Except Nat VCond :=
  if k = 0 then .ok .eq
  else if k = 1 then .ok .ne
  else if k = 2 then .ok .lt
  else if k = 3 then .ok .le
  else if k = 4 then .ok .gt
  else if k = 5 then .ok .ge
  else if k = 6 then .ok .un
  else if k = 7 then .ok .ord
  else .error 3

/-- The code of a `FpFmt` (R48). -/
def FpFmt.code : FpFmt → Nat
  | .fp32 => 0
  | .bf16 => 1
  | .fp16 => 2

/-- The `FpFmt` of a code; a code the table does not list is refused with reason 3 (R48, R57). -/
def FpFmt.ofCode (k : Nat) : Except Nat FpFmt :=
  if k = 0 then .ok .fp32
  else if k = 1 then .ok .bf16
  else if k = 2 then .ok .fp16
  else .error 3

/-- The code of a `FloatFmt` (R49). -/
def FloatFmt.code : FloatFmt → Nat
  | .fp32 => 0
  | .bf16 => 1
  | .fp16 => 2
  | .e4m3 => 3
  | .e5m2 => 4
  | .e2m3 => 5
  | .e3m2 => 6
  | .e2m1 => 7

/-- The `FloatFmt` of a code; a code the table does not list is refused with reason 3 (R49, R57). -/
def FloatFmt.ofCode (k : Nat) : Except Nat FloatFmt :=
  if k = 0 then .ok .fp32
  else if k = 1 then .ok .bf16
  else if k = 2 then .ok .fp16
  else if k = 3 then .ok .e4m3
  else if k = 4 then .ok .e5m2
  else if k = 5 then .ok .e2m3
  else if k = 6 then .ok .e3m2
  else if k = 7 then .ok .e2m1
  else .error 3

/-- The code of a `IntFmt` (R48). -/
def IntFmt.code : IntFmt → Nat
  | .i4 => 0
  | .i8 => 1
  | .i16 => 2
  | .i32 => 3
  | .n4 => 4
  | .n8 => 5
  | .n16 => 6
  | .n32 => 7

/-- The `IntFmt` of a code; a code the table does not list is refused with reason 3 (R48, R57). -/
def IntFmt.ofCode (k : Nat) : Except Nat IntFmt :=
  if k = 0 then .ok .i4
  else if k = 1 then .ok .i8
  else if k = 2 then .ok .i16
  else if k = 3 then .ok .i32
  else if k = 4 then .ok .n4
  else if k = 5 then .ok .n8
  else if k = 6 then .ok .n16
  else if k = 7 then .ok .n32
  else .error 3

/-- The code of an `EWidth` (R48). -/
def EWidth.code : EWidth → Nat
  | .w4 => 0
  | .w8 => 1
  | .w16 => 2
  | .w32 => 3

/-- The `EWidth` of a code; a code the table does not list is refused with reason 3 (R48, R57). -/
def EWidth.ofCode (k : Nat) : Except Nat EWidth :=
  if k = 0 then .ok .w4
  else if k = 1 then .ok .w8
  else if k = 2 then .ok .w16
  else if k = 3 then .ok .w32
  else .error 3

/-- The code of a `CvtDir` (R49). -/
def CvtDir.code : CvtDir → Nat
  | .intToFp => 0
  | .fpToInt => 1

/-- The `CvtDir` of a code; a code the table does not list is refused with reason 3 (R49, R57). -/
def CvtDir.ofCode (k : Nat) : Except Nat CvtDir :=
  if k = 0 then .ok .intToFp
  else if k = 1 then .ok .fpToInt
  else .error 3

/-- The code of an `AField` (R124). -/
def AField.code : AField → Nat
  | .addr => 0
  | .inc => 1
  | .wrap => 2

/-- The `AField` of a code; a code the table does not list is refused with reason 4 (R124, R57). -/
def AField.ofCode (k : Nat) : Except Nat AField :=
  if k = 0 then .ok .addr
  else if k = 1 then .ok .inc
  else if k = 2 then .ok .wrap
  else .error 4

/-- The code of an `AtomOp` (R248). -/
def AtomOp.code : AtomOp → Nat
  | .add => 0
  | .and => 1
  | .or => 2
  | .xor => 3
  | .min => 4
  | .max => 5
  | .swp => 6
  | .cas => 7

/-- The `AtomOp` of a code; a code the table does not list is refused with reason 4 (R248, R57). -/
def AtomOp.ofCode (k : Nat) : Except Nat AtomOp :=
  if k = 0 then .ok .add
  else if k = 1 then .ok .and
  else if k = 2 then .ok .or
  else if k = 3 then .ok .xor
  else if k = 4 then .ok .min
  else if k = 5 then .ok .max
  else if k = 6 then .ok .swp
  else if k = 7 then .ok .cas
  else .error 4

/-- The code of a `FenceKind` (R235). -/
def FenceKind.code : FenceKind → Nat
  | .dev => 0
  | .sys => 1
  | .ap => 2

/-- The `FenceKind` of a code; a code the table does not list is refused with reason 4 (R235, R57). -/
def FenceKind.ofCode (k : Nat) : Except Nat FenceKind :=
  if k = 0 then .ok .dev
  else if k = 1 then .ok .sys
  else if k = 2 then .ok .ap
  else .error 4

/-- The code of a `Xfm` (R259). -/
def Xfm.code : Xfm → Nat
  | .tr16 => 0
  | .zero => 1
  | .fill => 2
  | .scl2Fp32 => 3
  | .scl2Bf16 => 4
  | .addcFp32 => 5
  | .addcI32 => 6
  | .nrw => 7
  | .swp16 => 8

/-- The `Xfm` of a code; a code the table does not list is refused with reason 4 (R259, R57). -/
def Xfm.ofCode (k : Nat) : Except Nat Xfm :=
  if k = 0 then .ok .tr16
  else if k = 1 then .ok .zero
  else if k = 2 then .ok .fill
  else if k = 3 then .ok .scl2Fp32
  else if k = 4 then .ok .scl2Bf16
  else if k = 5 then .ok .addcFp32
  else if k = 6 then .ok .addcI32
  else if k = 7 then .ok .nrw
  else if k = 8 then .ok .swp16
  else .error 4

/-- The code of a `Scope` (R391). -/
def Scope.code : Scope → Nat
  | .page => 0
  | .space => 1
  | .all => 2

/-- The `Scope` of a code; a code the table does not list is refused with reason 4 (R391, R57). -/
def Scope.ofCode (k : Nat) : Except Nat Scope :=
  if k = 0 then .ok .page
  else if k = 1 then .ok .space
  else if k = 2 then .ok .all
  else .error 4

/-- The code of a `HaltOp` (R391). -/
def HaltOp.code : HaltOp → Nat
  | .halt => 0
  | .go => 1
  | .gate => 2
  | .ungate => 3

/-- The `HaltOp` of a code; a code the table does not list is refused with reason 4 (R391, R57). -/
def HaltOp.ofCode (k : Nat) : Except Nat HaltOp :=
  if k = 0 then .ok .halt
  else if k = 1 then .ok .go
  else if k = 2 then .ok .gate
  else if k = 3 then .ok .ungate
  else .error 4

/-- The code of a `RndSel` (R50). -/
def RndSel.code : RndSel → Nat
  | .fctl => 0
  | .rne => 1
  | .rz => 2
  | .rsr => 3

/-- The `RndSel` of a code; a code the table does not list is refused with reason 4 (R50, R57). -/
def RndSel.ofCode (k : Nat) : Except Nat RndSel :=
  if k = 0 then .ok .fctl
  else if k = 1 then .ok .rne
  else if k = 2 then .ok .rz
  else if k = 3 then .ok .rsr
  else .error 4

/-- The code of a `SatSel` (R50). -/
def SatSel.code : SatSel → Nat
  | .fctl => 0
  | .sat => 1
  | .nsat => 2

/-- The `SatSel` of a code; a code the table does not list is refused with reason 4 (R50, R57). -/
def SatSel.ofCode (k : Nat) : Except Nat SatSel :=
  if k = 0 then .ok .fctl
  else if k = 1 then .ok .sat
  else if k = 2 then .ok .nsat
  else .error 4

/-- The code of a `GWidth` (R235). -/
def GWidth.code : GWidth → Nat
  | .w16 => 1
  | .w32 => 2

/-- The `GWidth` of a code; a code the table does not list is refused with reason 4 (R235, R57). -/
def GWidth.ofCode (k : Nat) : Except Nat GWidth :=
  if k = 1 then .ok .w16
  else if k = 2 then .ok .w32
  else .error 4

/-- A conversion pair of major 0x1B, or refusal 3 (R49). -/
def cvtPair (df sf : FloatFmt) : Except Nat Unit :=
  if cvtPairOk df sf then .ok () else .error 3

/-- The element code of VIDOT, or refusal 3 (R132). -/
def dotFmt (e : IntFmt) : Except Nat Unit :=
  if dotFmtOk e then .ok () else .error 3

/-- The source code of a VWIDEN or VNARROW of factor `f`, or refusal 3 (R53). -/
def widenFmt (f : Nat) (e : IntFmt) : Except Nat Unit :=
  if widenFmtOk f e then .ok () else .error 3

/-- The source code of a VNARROW, or refusal 3 (R53). -/
def narrowFmt (f : Nat) (e : IntFmt) : Except Nat Unit :=
  if narrowFmtOk f e then .ok () else .error 3

/-- The common fields of a vector modifier word; an absent word acts as zero (R50). -/
def VMod.ofExt (x : Nat) : Except Nat VMod := do
  let rd ← RndSel.ofCode (bitField x 28 3)
  let st ← SatSel.ofCode (bitField x 26 2)
  .ok { rnd := rd, sat := st,
        mask := if bitAt x 25 then some (Fin.ofNat 8 (bitField x 21 3), bitAt x 24) else none }

/-- The bits of a modifier word's common fields (R50). -/
def VMod.bits (m : VMod) : Nat :=
  m.rnd.code * 2 ^ 28 + m.sat.code * 2 ^ 26 +
    match m.mask with
    | none => 0
    | some (r, z) => 2 ^ 25 + bitOf z * 2 ^ 24 + r.val * 2 ^ 21

/-- The immediate of an I-format slot with the 12 bits `lo` (R46, R47). -/
def Imm.ofBits (lo : Nat) (x : Option Nat) : Imm :=
  match x with
  | none => .short (BitVec.ofNat 12 lo)
  | some e => .long (BitVec.ofNat 43 (e % 2 ^ 31 * 4096 + lo))

/-- The 12 bits of an immediate that stand in the slot word. -/
def Imm.low : Imm → Nat
  | .short v => v.toNat
  | .long v => v.toNat % 4096

/-- The extension of an immediate. -/
def Imm.ext : Imm → Option Nat
  | .short _ => none
  | .long v => some (v.toNat / 4096)

/-- The extension of PDRN (R161). -/
def DrainX.ofExt (x : Nat) : Except Nat DrainX := do
  let rd ← RndSel.ofCode (bitField x 12 2)
  let st ← SatSel.ofCode (bitField x 10 2)
  .ok { dest := BitVec.ofNat 12 (bitField x 19 12), ofmt := BitVec.ofNat 5 (bitField x 14 5),
        rnd := rd, sat := st, mx := bitAt x 9, pk := bitAt x 8, res := BitVec.ofNat 8 (bitField x 0 8) }

/-- The bits of a PDRN extension (R161). -/
def DrainX.bits (x : DrainX) : Nat :=
  x.dest.toNat * 2 ^ 19 + x.ofmt.toNat * 2 ^ 14 + x.rnd.code * 2 ^ 12 + x.sat.code * 2 ^ 10 +
    bitOf x.mx * 2 ^ 9 + bitOf x.pk * 2 ^ 8 + x.res.toNat

/-- The extension of LTDRN (R161). -/
def LDrainX.ofExt (x : Nat) : Except Nat LDrainX := do
  let rd ← RndSel.ofCode (bitField x 12 2)
  let st ← SatSel.ofCode (bitField x 10 2)
  .ok { ofmt := BitVec.ofNat 5 (bitField x 14 5), rnd := rd, sat := st, mx := bitAt x 9,
        cbx := Fin.ofNat 4 (bitField x 7 2) }

/-- The bits of an LTDRN extension (R161). -/
def LDrainX.bits (x : LDrainX) : Nat :=
  x.ofmt.toNat * 2 ^ 14 + x.rnd.code * 2 ^ 12 + x.sat.code * 2 ^ 10 + bitOf x.mx * 2 ^ 9 + x.cbx.val * 2 ^ 7

/-- The extension as a number, zero when absent. -/
def extOr0 (x : Option Nat) : Nat :=
  match x with
  | none => 0
  | some e => e % 2 ^ 31

/-- The instructions of major 0x00 (R51 to R54). -/
def decMajor00 (word : Nat) (_ext : Option Nat) : Except Nat Instr :=
  if bitField word 0 6 = 0 then .ok (.add (reg6 word 18) (reg6 word 12) (reg6 word 6))
  else if bitField word 0 6 = 1 then .ok (.sub (reg6 word 18) (reg6 word 12) (reg6 word 6))
  else if bitField word 0 6 = 2 then .ok (.and (reg6 word 18) (reg6 word 12) (reg6 word 6))
  else if bitField word 0 6 = 3 then .ok (.or (reg6 word 18) (reg6 word 12) (reg6 word 6))
  else if bitField word 0 6 = 4 then .ok (.xor (reg6 word 18) (reg6 word 12) (reg6 word 6))
  else if bitField word 0 6 = 5 then .ok (.andn (reg6 word 18) (reg6 word 12) (reg6 word 6))
  else if bitField word 0 6 = 6 then .ok (.shl (reg6 word 18) (reg6 word 12) (reg6 word 6))
  else if bitField word 0 6 = 7 then .ok (.shr (reg6 word 18) (reg6 word 12) (reg6 word 6))
  else if bitField word 0 6 = 8 then .ok (.sra (reg6 word 18) (reg6 word 12) (reg6 word 6))
  else if bitField word 0 6 = 9 then .ok (.rol (reg6 word 18) (reg6 word 12) (reg6 word 6))
  else if bitField word 0 6 = 10 then .ok (.min (reg6 word 18) (reg6 word 12) (reg6 word 6))
  else if bitField word 0 6 = 11 then .ok (.max (reg6 word 18) (reg6 word 12) (reg6 word 6))
  else if bitField word 0 6 = 12 then .ok (.minn (reg6 word 18) (reg6 word 12) (reg6 word 6))
  else if bitField word 0 6 = 13 then .ok (.maxn (reg6 word 18) (reg6 word 12) (reg6 word 6))
  else if bitField word 0 6 = 14 then .ok (.clz (reg6 word 18) (reg6 word 12))
  else if bitField word 0 6 = 15 then .ok (.ctz (reg6 word 18) (reg6 word 12))
  else if bitField word 0 6 = 16 then .ok (.popc (reg6 word 18) (reg6 word 12))
  else if bitField word 0 6 = 17 then (do
      let w ← ExtW.ofCode (bitField word 6 6)
      .ok (.sext (reg6 word 18) (reg6 word 12) w))
  else if bitField word 0 6 = 18 then (do
      let w ← ExtW.ofCode (bitField word 6 6)
      .ok (.zext (reg6 word 18) (reg6 word 12) w))
  else if bitField word 0 6 = 19 then (do
      let c ← Cond.ofCode (bitField word 21 3)
      .ok (.cmp c (reg3 word 18) (reg6 word 12) (reg6 word 6)))
  else if bitField word 0 6 = 20 then .ok (.pand (reg3 word 18) (reg3 word 12) (reg3 word 6))
  else if bitField word 0 6 = 21 then .ok (.por (reg3 word 18) (reg3 word 12) (reg3 word 6))
  else if bitField word 0 6 = 22 then .ok (.pnot (reg3 word 18) (reg3 word 12))
  else if bitField word 3 3 = 3 then .ok (.sel (reg6 word 18) (reg6 word 12) (reg6 word 6) (reg3 word 0))
  else if bitField word 0 6 = 63 then .ok (.nop)
  else .error 3

/-- The instructions of major 0x01 (R51 to R54). -/
def decMajor01 (word : Nat) (_ext : Option Nat) : Except Nat Instr :=
  if bitField word 0 6 = 0 then .ok (.mul (reg6 word 18) (reg6 word 12) (reg6 word 6))
  else if bitField word 0 6 = 1 then .ok (.mulh (reg6 word 18) (reg6 word 12) (reg6 word 6))
  else if bitField word 0 6 = 2 then .ok (.mulhn (reg6 word 18) (reg6 word 12) (reg6 word 6))
  else if bitField word 0 6 = 3 then .ok (.div (reg6 word 18) (reg6 word 12) (reg6 word 6))
  else if bitField word 0 6 = 4 then .ok (.divn (reg6 word 18) (reg6 word 12) (reg6 word 6))
  else if bitField word 0 6 = 5 then .ok (.rem (reg6 word 18) (reg6 word 12) (reg6 word 6))
  else if bitField word 0 6 = 6 then .ok (.remn (reg6 word 18) (reg6 word 12) (reg6 word 6))
  else .error 3

/-- The instructions of major 0x02 (R51 to R54). -/
def decMajor02 (word : Nat) (ext : Option Nat) : Except Nat Instr :=
  .ok (.addi (reg6 word 18) (reg6 word 12) (Imm.ofBits (bitField word 0 12) ext))

/-- The instructions of major 0x03 (R51 to R54). -/
def decMajor03 (word : Nat) (ext : Option Nat) : Except Nat Instr :=
  .ok (.andi (reg6 word 18) (reg6 word 12) (Imm.ofBits (bitField word 0 12) ext))

/-- The instructions of major 0x04 (R51 to R54). -/
def decMajor04 (word : Nat) (ext : Option Nat) : Except Nat Instr :=
  .ok (.ori (reg6 word 18) (reg6 word 12) (Imm.ofBits (bitField word 0 12) ext))

/-- The instructions of major 0x05 (R51 to R54). -/
def decMajor05 (word : Nat) (ext : Option Nat) : Except Nat Instr :=
  .ok (.xori (reg6 word 18) (reg6 word 12) (Imm.ofBits (bitField word 0 12) ext))

/-- The instructions of major 0x06 (R51 to R54). -/
def decMajor06 (word : Nat) (_ext : Option Nat) : Except Nat Instr :=
  .ok (.shli (reg6 word 18) (reg6 word 12) (bits 6 word 0))

/-- The instructions of major 0x07 (R51 to R54). -/
def decMajor07 (word : Nat) (_ext : Option Nat) : Except Nat Instr :=
  .ok (.shri (reg6 word 18) (reg6 word 12) (bits 6 word 0))

/-- The instructions of major 0x08 (R51 to R54). -/
def decMajor08 (word : Nat) (_ext : Option Nat) : Except Nat Instr :=
  .ok (.srai (reg6 word 18) (reg6 word 12) (bits 6 word 0))

/-- The instructions of major 0x09 (R51 to R54). -/
def decMajor09 (word : Nat) (ext : Option Nat) : Except Nat Instr :=
  (do
      let c ← Cond.ofCode (bitField word 21 3)
      .ok (.cmpi c (reg3 word 18) (reg6 word 12) (Imm.ofBits (bitField word 0 12) ext)))

/-- The instructions of major 0x0A (R51 to R54). -/
def decMajor0A (word : Nat) (ext : Option Nat) : Except Nat Instr :=
  .ok (.movi (reg6 word 18) (Imm.ofBits (bitField word 0 12) ext))

/-- The instructions of major 0x0C (R51 to R54). -/
def decMajor0C (word : Nat) (_ext : Option Nat) : Except Nat Instr :=
  .ok (.lui (reg6 word 18) (BitVec.ofNat 20 (bitField word 24 2 * 2 ^ 18 + bitField word 0 18)))

/-- The instructions of major 0x10 (R51 to R54). -/
def decMajor10 (word : Nat) (_ext : Option Nat) : Except Nat Instr :=
  if bitField word 0 6 = 0 then .ok (.amov (reg4 word 18) (reg6 word 12))
  else if bitField word 0 6 = 1 then .ok (.aadd (reg4 word 18) (reg4 word 12) (reg6 word 6))
  else if bitField word 0 6 = 2 then .ok (.ainc (reg4 word 18) (reg6 word 12))
  else if bitField word 0 6 = 3 then .ok (.amod (reg4 word 18) (reg6 word 12))
  else if bitField word 0 6 = 4 then (do
      let f ← AField.ofCode (bitField word 6 6)
      .ok (.aget (reg6 word 18) (reg4 word 12) f))
  else .error 3

/-- The instructions of major 0x11 (R51 to R54). -/
def decMajor11 (word : Nat) (ext : Option Nat) : Except Nat Instr :=
  .ok (.aaddi (reg4 word 18) (reg4 word 12) (Imm.ofBits (bitField word 0 12) ext))

/-- The instructions of major 0x14 (R51 to R54). -/
def decMajor14 (word : Nat) (_ext : Option Nat) : Except Nat Instr :=
  .ok (.addpc (reg6 word 18) (BitVec.ofNat 20 (bitField word 24 2 * 2 ^ 18 + bitField word 0 18)))

/-- The instructions of major 0x18 (R51 to R54), with the layout of slot and modifier word of R125. -/
def decMajor18 (word : Nat) (ext : Option Nat) : Except Nat Instr :=
  if bitField word 0 3 = 0 then (do
      let e ← FpFmt.ofCode (bitField word 3 3)
      let m ← VMod.ofExt (extOr0 ext)
      .ok (.vadd e (reg6 word 18) (reg6 word 12) (reg6 word 6) m (bits 16 (extOr0 ext) 0)))
  else if bitField word 0 3 = 1 then (do
      let e ← FpFmt.ofCode (bitField word 3 3)
      let m ← VMod.ofExt (extOr0 ext)
      .ok (.vsub e (reg6 word 18) (reg6 word 12) (reg6 word 6) m (bits 16 (extOr0 ext) 0)))
  else if bitField word 0 3 = 2 then (do
      let e ← FpFmt.ofCode (bitField word 3 3)
      let m ← VMod.ofExt (extOr0 ext)
      .ok (.vmul e (reg6 word 18) (reg6 word 12) (reg6 word 6) m (bits 16 (extOr0 ext) 0)))
  else if bitField word 0 3 = 3 then (do
      let e ← FpFmt.ofCode (bitField word 3 3)
      let m ← VMod.ofExt (extOr0 ext)
      .ok (.vfma e (reg6 word 18) (reg6 word 12) (reg6 word 6) m (bits 16 (extOr0 ext) 0)))
  else if bitField word 0 3 = 4 then (do
      let e ← FpFmt.ofCode (bitField word 3 3)
      let m ← VMod.ofExt (extOr0 ext)
      .ok (.vfms e (reg6 word 18) (reg6 word 12) (reg6 word 6) m (bits 16 (extOr0 ext) 0)))
  else if bitField word 0 3 = 5 then (do
      let e ← FpFmt.ofCode (bitField word 3 3)
      let m ← VMod.ofExt (extOr0 ext)
      .ok (.vmin e (reg6 word 18) (reg6 word 12) (reg6 word 6) m))
  else if bitField word 0 3 = 6 then (do
      let e ← FpFmt.ofCode (bitField word 3 3)
      let m ← VMod.ofExt (extOr0 ext)
      .ok (.vmax e (reg6 word 18) (reg6 word 12) (reg6 word 6) m))
  else if bitField word 0 3 = 7 then (do
      let e ← FpFmt.ofCode (bitField word 3 3)
      let c ← VCond.ofCode (bitField word 21 3)
      let m ← VMod.ofExt (extOr0 ext)
      .ok (.vcmp e c (reg3 word 18) (reg6 word 12) (reg6 word 6) m))
  else .error 3

/-- The instructions of major 0x19 (R51 to R54), with the layout of slot and modifier word of R125. -/
def decMajor19 (word : Nat) (ext : Option Nat) : Except Nat Instr :=
  if bitField word 0 3 = 0 then (do
      let e ← FpFmt.ofCode (bitField word 3 3)
      let m ← VMod.ofExt (extOr0 ext)
      .ok (.vabs e (reg6 word 18) (reg6 word 12) m))
  else if bitField word 0 3 = 1 then (do
      let e ← FpFmt.ofCode (bitField word 3 3)
      let m ← VMod.ofExt (extOr0 ext)
      .ok (.vneg e (reg6 word 18) (reg6 word 12) m))
  else if bitField word 0 3 = 2 then (do
      let e ← FpFmt.ofCode (bitField word 3 3)
      let m ← VMod.ofExt (extOr0 ext)
      .ok (.vsel e (reg6 word 18) (reg6 word 12) (reg6 word 6) m (reg3 (extOr0 ext) 0)))
  else if bitField word 0 3 = 3 then (do
      let e ← FpFmt.ofCode (bitField word 3 3)
      let m ← VMod.ofExt (extOr0 ext)
      .ok (.vrnd e (reg6 word 18) (reg6 word 12) (reg6 word 6) m))
  else if bitField word 0 3 = 4 then (do
      let e ← FpFmt.ofCode (bitField word 3 3)
      let m ← VMod.ofExt (extOr0 ext)
      .ok (.vexp2 e (reg6 word 18) (reg6 word 12) (reg6 word 6) m))
  else if bitField word 0 3 = 5 then (do
      let e ← FpFmt.ofCode (bitField word 3 3)
      let m ← VMod.ofExt (extOr0 ext)
      .ok (.vlog2 e (reg6 word 18) (reg6 word 12) (reg6 word 6) m))
  else if bitField word 0 3 = 6 then (do
      let e ← FpFmt.ofCode (bitField word 3 3)
      let m ← VMod.ofExt (extOr0 ext)
      .ok (.vrcp e (reg6 word 18) (reg6 word 12) (reg6 word 6) m))
  else if bitField word 0 3 = 7 then (do
      let e ← FpFmt.ofCode (bitField word 3 3)
      let m ← VMod.ofExt (extOr0 ext)
      .ok (.vrsq e (reg6 word 18) (reg6 word 12) (reg6 word 6) m))
  else .error 3

/-- The instructions of major 0x1A (R51 to R54), with the layout of slot and modifier word of R125. -/
def decMajor1A (word : Nat) (ext : Option Nat) : Except Nat Instr :=
  if bitField word 0 3 = 0 then (do
      let e ← FpFmt.ofCode (bitField word 3 3)
      let m ← VMod.ofExt (extOr0 ext)
      .ok (.vsig e (reg6 word 18) (reg6 word 12) (reg6 word 6) m))
  else if bitField word 0 3 = 1 then (do
      let e ← FpFmt.ofCode (bitField word 3 3)
      let m ← VMod.ofExt (extOr0 ext)
      .ok (.vtanh e (reg6 word 18) (reg6 word 12) (reg6 word 6) m))
  else if bitField word 0 3 = 2 then (do
      let e ← FpFmt.ofCode (bitField word 3 3)
      let m ← VMod.ofExt (extOr0 ext)
      .ok (.vredsum e (reg6 word 18) (reg6 word 12) (reg6 word 6) m (bitAt (extOr0 ext) 20)))
  else if bitField word 0 3 = 3 then (do
      let e ← FpFmt.ofCode (bitField word 3 3)
      let m ← VMod.ofExt (extOr0 ext)
      .ok (.vredmax e (reg6 word 18) (reg6 word 12) m (bitAt (extOr0 ext) 20)))
  else if bitField word 0 3 = 4 then (do
      let e ← FpFmt.ofCode (bitField word 3 3)
      let m ← VMod.ofExt (extOr0 ext)
      .ok (.vredmin e (reg6 word 18) (reg6 word 12) m (bitAt (extOr0 ext) 20)))
  else .error 3

/-- The instructions of major 0x1B (R51 to R54), with the layout of slot and modifier word of R125. -/
def decMajor1B (word : Nat) (ext : Option Nat) : Except Nat Instr :=
  (do
      let df ← FloatFmt.ofCode (bitField word 3 3)
      let sf ← FloatFmt.ofCode (bitField word 0 3)
      cvtPair df sf
      let m ← VMod.ofExt (extOr0 ext)
      .ok (.vcvtFp df sf (reg6 word 18) (reg6 word 12) (reg6 word 6) m))

/-- The instructions of major 0x1C (R51 to R54), with the layout of slot and modifier word of R125. -/
def decMajor1C (word : Nat) (ext : Option Nat) : Except Nat Instr :=
  (do
      let dir ← CvtDir.ofCode (bitField word 5 1)
      let i ← IntFmt.ofCode (bitField word 2 3)
      let f ← FpFmt.ofCode (bitField word 0 2)
      let m ← VMod.ofExt (extOr0 ext)
      .ok (.vcvtInt dir i f (reg6 word 18) (reg6 word 12) (reg6 word 6) m))

/-- The instructions of major 0x1D (R51 to R54), with the layout of slot and modifier word of R125. -/
def decMajor1D (word : Nat) (ext : Option Nat) : Except Nat Instr :=
  if bitField word 0 3 = 0 then (do
      let e ← IntFmt.ofCode (bitField word 3 3)
      let m ← VMod.ofExt (extOr0 ext)
      .ok (.viadd e (reg6 word 18) (reg6 word 12) (reg6 word 6) m))
  else if bitField word 0 3 = 1 then (do
      let e ← IntFmt.ofCode (bitField word 3 3)
      let m ← VMod.ofExt (extOr0 ext)
      .ok (.visub e (reg6 word 18) (reg6 word 12) (reg6 word 6) m))
  else if bitField word 0 3 = 2 then (do
      let e ← IntFmt.ofCode (bitField word 3 3)
      let m ← VMod.ofExt (extOr0 ext)
      .ok (.vimul e (reg6 word 18) (reg6 word 12) (reg6 word 6) m))
  else if bitField word 0 3 = 3 then (do
      let e ← IntFmt.ofCode (bitField word 3 3)
      dotFmt e
      let m ← VMod.ofExt (extOr0 ext)
      .ok (.vidot e (reg6 word 18) (reg6 word 12) (reg6 word 6) m))
  else if bitField word 0 3 = 4 then (do
      let e ← IntFmt.ofCode (bitField word 3 3)
      let m ← VMod.ofExt (extOr0 ext)
      .ok (.vimin e (reg6 word 18) (reg6 word 12) (reg6 word 6) m))
  else if bitField word 0 3 = 5 then (do
      let e ← IntFmt.ofCode (bitField word 3 3)
      let m ← VMod.ofExt (extOr0 ext)
      .ok (.vimax e (reg6 word 18) (reg6 word 12) (reg6 word 6) m))
  else .error 3

/-- The instructions of major 0x1E (R51 to R54), with the layout of slot and modifier word of R125. -/
def decMajor1E (word : Nat) (ext : Option Nat) : Except Nat Instr :=
  if bitField word 0 3 = 0 then (do
      let e ← IntFmt.ofCode (bitField word 3 3)
      let m ← VMod.ofExt (extOr0 ext)
      .ok (.vshl e (reg6 word 18) (reg6 word 12) (reg6 word 6) m (bitAt (extOr0 ext) 20) (bits 6 (extOr0 ext) 0)))
  else if bitField word 0 3 = 1 then (do
      let e ← IntFmt.ofCode (bitField word 3 3)
      let m ← VMod.ofExt (extOr0 ext)
      .ok (.vshr e (reg6 word 18) (reg6 word 12) (reg6 word 6) m (bitAt (extOr0 ext) 20) (bits 6 (extOr0 ext) 0)))
  else if bitField word 0 3 = 2 then (do
      let e ← IntFmt.ofCode (bitField word 3 3)
      let m ← VMod.ofExt (extOr0 ext)
      .ok (.vsra e (reg6 word 18) (reg6 word 12) (reg6 word 6) m (bitAt (extOr0 ext) 20) (bits 6 (extOr0 ext) 0)))
  else if bitField word 0 3 = 3 then (do
      let e ← IntFmt.ofCode (bitField word 3 3)
      let m ← VMod.ofExt (extOr0 ext)
      .ok (.vand e (reg6 word 18) (reg6 word 12) (reg6 word 6) m))
  else if bitField word 0 3 = 4 then (do
      let e ← IntFmt.ofCode (bitField word 3 3)
      let m ← VMod.ofExt (extOr0 ext)
      .ok (.vor e (reg6 word 18) (reg6 word 12) (reg6 word 6) m))
  else if bitField word 0 3 = 5 then (do
      let e ← IntFmt.ofCode (bitField word 3 3)
      let m ← VMod.ofExt (extOr0 ext)
      .ok (.vxor e (reg6 word 18) (reg6 word 12) (reg6 word 6) m))
  else .error 3

/-- The instructions of major 0x1F (R51 to R54), with the layout of slot and modifier word of R125. -/
def decMajor1F (word : Nat) (ext : Option Nat) : Except Nat Instr :=
  if bitField word 0 3 = 0 then (do
      let e ← EWidth.ofCode (bitField word 3 3)
      let m ← VMod.ofExt (extOr0 ext)
      .ok (.vperm e (reg6 word 18) (reg6 word 12) (reg6 word 6) m))
  else if bitField word 0 3 = 1 then (do
      let e ← EWidth.ofCode (bitField word 3 3)
      let m ← VMod.ofExt (extOr0 ext)
      .ok (.vbcast e (reg6 word 18) (reg6 word 12) m (bitAt (extOr0 ext) 20) (bits 10 (extOr0 ext) 0)))
  else if bitField word 0 3 = 2 then (do
      let e ← EWidth.ofCode (bitField word 3 3)
      let m ← VMod.ofExt (extOr0 ext)
      .ok (.vzip e (reg6 word 18) (reg6 word 12) (reg6 word 6) m))
  else if bitField word 0 3 = 3 then (do
      let e ← EWidth.ofCode (bitField word 3 3)
      let m ← VMod.ofExt (extOr0 ext)
      .ok (.vunzip e (reg6 word 18) (reg6 word 12) (reg6 word 6) m))
  else if bitField word 0 3 = 4 then (do
      let e ← EWidth.ofCode (bitField word 3 3)
      let m ← VMod.ofExt (extOr0 ext)
      .ok (.vslide e (reg6 word 18) (reg6 word 12) (reg6 word 6) m (bits 11 (extOr0 ext) 0)))
  else if bitField word 0 3 = 5 then (do
      let e ← EWidth.ofCode (bitField word 3 3)
      let m ← VMod.ofExt (extOr0 ext)
      .ok (.viota e (reg6 word 18) (reg6 word 12) m))
  else if bitField word 0 3 = 6 then (do
      let e ← EWidth.ofCode (bitField word 3 3)
      let m ← VMod.ofExt (extOr0 ext)
      .ok (.vext e (reg6 word 18) (reg6 word 12) (reg6 word 6) m (bitAt (extOr0 ext) 20)))
  else if bitField word 0 3 = 7 then (do
      let e ← EWidth.ofCode (bitField word 3 3)
      let m ← VMod.ofExt (extOr0 ext)
      .ok (.vins e (reg6 word 18) (reg6 word 12) (reg6 word 6) m))
  else .error 3

/-- The instructions of major 0x20 (R51 to R54), with the layout of slot and modifier word of R125. -/
def decMajor20 (word : Nat) (ext : Option Nat) : Except Nat Instr :=
  if bitField word 0 3 = 0 then (do
      let e ← IntFmt.ofCode (bitField word 3 3)
      widenFmt 2 e
      let m ← VMod.ofExt (extOr0 ext)
      .ok (.vwidenX2 e (reg6 word 18) (reg6 word 12) m))
  else if bitField word 0 3 = 1 then (do
      let e ← IntFmt.ofCode (bitField word 3 3)
      widenFmt 4 e
      let m ← VMod.ofExt (extOr0 ext)
      .ok (.vwidenX4 e (reg6 word 18) (reg6 word 12) m))
  else if bitField word 0 3 = 2 then (do
      let e ← IntFmt.ofCode (bitField word 3 3)
      narrowFmt 2 e
      let m ← VMod.ofExt (extOr0 ext)
      .ok (.vnarrowD2 e (reg6 word 18) (reg6 word 12) m))
  else if bitField word 0 3 = 3 then (do
      let e ← IntFmt.ofCode (bitField word 3 3)
      narrowFmt 4 e
      let m ← VMod.ofExt (extOr0 ext)
      .ok (.vnarrowD4 e (reg6 word 18) (reg6 word 12) m))
  else .error 3

/-- The instructions of major 0x21 (R51 to R54), with the layout of slot and modifier word of R125. -/
def decMajor21 (word : Nat) (ext : Option Nat) : Except Nat Instr :=
  if bitField word 0 6 = 0 then
      (do
      let m ← VMod.ofExt (extOr0 ext)
      let wc ← EWidth.ofCode (bitField (extOr0 ext) 16 2)
      .ok (.vhusk (bits 6 word 18) (reg6 word 12) (reg6 word 6) m (bitAt (extOr0 ext) 20) (bitAt (extOr0 ext) 19) wc (bits 16 (extOr0 ext) 0)))
  else if bitField word 0 6 = 1 then (do
      let m ← VMod.ofExt (extOr0 ext)
      .ok (.vpack (reg6 word 18) (reg6 word 12) m (bits 5 (extOr0 ext) 16) (bits 8 (extOr0 ext) 0)))
  else if bitField word 0 6 = 2 then (do
      let m ← VMod.ofExt (extOr0 ext)
      .ok (.vunpack (reg6 word 18) (reg6 word 12) m))
  else if bitField word 0 6 = 3 then (do
      let m ← VMod.ofExt (extOr0 ext)
      .ok (.vlaid (reg6 word 18) (reg3 word 12) (reg6 word 6) m (bitAt (extOr0 ext) 20) (bitAt (extOr0 ext) 19)))
  else if bitField word 0 6 = 4 then
      (do
      let m ← VMod.ofExt (extOr0 ext)
      .ok (.vqnt (reg6 word 18) (reg6 word 12) (reg6 word 6) m (bits 3 (extOr0 ext) 18) (bitAt (extOr0 ext) 17) (reg2 (extOr0 ext) 15) (reg3 (extOr0 ext) 12) (bits 6 (extOr0 ext) 6)))
  else .error 3

/-- The instructions of major 0x22 (R51 to R54), with the layout of slot and modifier word of R125. -/
def decMajor22 (word : Nat) (ext : Option Nat) : Except Nat Instr :=
  if bitField word 0 6 = 0 then (do
      let m ← VMod.ofExt (extOr0 ext)
      .ok (.mand (reg3 word 18) (reg3 word 12) (reg3 word 6) m))
  else if bitField word 0 6 = 1 then (do
      let m ← VMod.ofExt (extOr0 ext)
      .ok (.mor (reg3 word 18) (reg3 word 12) (reg3 word 6) m))
  else if bitField word 0 6 = 2 then (do
      let m ← VMod.ofExt (extOr0 ext)
      .ok (.mnot (reg3 word 18) (reg3 word 12) m))
  else if bitField word 0 6 = 3 then (do
      let m ← VMod.ofExt (extOr0 ext)
      .ok (.mpop (reg6 word 18) (reg3 word 12) m))
  else .error 3

/-- The instructions of major 0x28 (R51 to R54). -/
def decMajor28 (word : Nat) (ext : Option Nat) : Except Nat Instr :=
  if bitField word 0 6 = 0 then .ok (.ttype (reg4 word 20) (reg6 word 14))
  else if bitField word 0 6 = 1 then .ok (.tgett (reg6 word 18) (reg4 word 14) (bitAt word 13))
  else if bitField word 0 6 = 2 ∧ ¬ bitAt word 13 then .ok (.tbind (reg4 word 20) (reg6 word 14))
  else if bitField word 0 6 = 2 ∧ bitAt word 13 then .ok (.tbindU (reg4 word 20) (reg4 word 14))
  else if bitField word 0 6 = 3 ∧ ¬ bitAt word 19 then .ok (.tfree (reg4 word 20))
  else if bitField word 0 6 = 3 ∧ bitAt word 19 then .ok (.tfreeDv (reg4 word 20))
  else if bitField word 0 6 = 4 then .ok (.tresh (reg4 word 20) (reg4 word 16) (reg6 word 10))
  else if bitField word 0 6 = 5 then .ok (.ttrans (reg4 word 20) (reg4 word 16) (bitAt word 15))
  else if bitField word 0 6 = 6 then
      .ok (.tcast (reg4 word 20) (reg4 word 16) (bits 5 word 11) (bits 2 word 9) (bits 2 word 7) (bitAt word 6) (bits 31 (extOr0 ext) 0))
  else if bitField word 0 6 = 7 then .ok (.tzero (reg4 word 20))
  else if bitField word 0 6 = 8 then .ok (.texp (reg4 word 20) (reg4 word 16) (reg3 word 13) (bitAt word 12))
  else if bitField word 0 6 = 9 then .ok (.tmov (reg4 word 20) (reg4 word 16))
  else .error 3

/-- The instructions of major 0x29 (R51 to R54). -/
def decMajor29 (word : Nat) (ext : Option Nat) : Except Nat Instr :=
  if bitField word 0 6 = 0 then .ok (.lacq (reg3 word 18))
  else if bitField word 0 6 = 1 then .ok (.lrel)
  else if bitField word 0 6 = 2 ∧ ¬ bitAt word 19 then
      .ok (.pldb (reg4 word 20) (bits 2 word 17) (bitAt word 16) (reg4 word 12) (bits 3 word 9) (reg3 word 6))
  else if bitField word 0 6 = 2 ∧ bitAt word 19 then .ok (.pldbSp (reg4 word 20) (bitAt word 16))
  else if bitField word 0 6 = 3 then .ok (.plaid (reg3 word 21) (bitAt word 20) (reg6 word 14) (bitAt word 13))
  else if bitField word 0 6 = 4 then .ok (.pmma (reg7 word 17) (reg4 word 13) (bitAt word 12) (reg3 word 9))
  else if bitField word 0 6 = 5 then .ok (.pmmz (reg7 word 17) (reg4 word 13) (bitAt word 12) (reg3 word 9))
  else if bitField word 0 6 = 6 then .ok (.pclr (reg7 word 17))
  else if bitField word 0 6 = 7 then .ok (.ptsc (reg6 word 18) (bitAt word 17))
  else if bitField word 0 6 = 8 then (do
      let x ← DrainX.ofExt (extOr0 ext)
      .ok (.pdrn (reg7 word 17) (bitAt word 16) (reg2 word 14) (reg6 word 8) x))
  else if bitField word 0 6 = 9 ∧ ¬ bitAt word 23 then .ok (.cbld (reg2 word 21) (reg4 word 17) (bits 10 word 7))
  else if bitField word 0 6 = 9 ∧ bitAt word 23 then
      .ok (.cbldPt (reg2 word 21) (reg2 word 19) (bitAt word 18) (bitAt word 17))
  else if bitField word 0 6 = 10 then .ok (.kld (reg3 word 21) (reg4 word 17) (bits 10 word 7))
  else if bitField word 0 6 = 11 then .ok (.lwset (reg3 word 21) (reg4 word 17) (bits 10 word 7))
  else if bitField word 0 6 = 12 then .ok (.lwstep (reg3 word 21) (reg6 word 15) (bitAt word 14))
  else if bitField word 0 6 = 13 then .ok (.ltmma (reg7 word 17) (reg4 word 13) (reg4 word 9) (bitAt word 8))
  else if bitField word 0 6 = 14 then (do
      let x ← LDrainX.ofExt (extOr0 ext)
      .ok (.ltdrn (reg7 word 17) (reg4 word 13) (reg6 word 6) x))
  else if bitField word 0 6 = 15 then .ok (.vtenc (reg3 word 21) (reg3 word 18) (reg4 word 14))
  else if bitField word 0 6 = 16 then .ok (.rep (bits 6 word 18) (bits 6 word 12) (bits 3 word 9) (bits 3 word 6))
  else .error 3

/-- The instructions of major 0x30 (R51 to R54). -/
def decMajor30 (word : Nat) (_ext : Option Nat) : Except Nat Instr :=
  if bitField word 10 4 = 0 then .ok (.ldb (reg6 word 18) (reg4 word 14) (bits 10 word 0))
  else if bitField word 10 4 = 1 then .ok (.ldh (reg6 word 18) (reg4 word 14) (bits 10 word 0))
  else if bitField word 10 4 = 2 then .ok (.ldw (reg6 word 18) (reg4 word 14) (bits 10 word 0))
  else if bitField word 10 4 = 3 then .ok (.ldd (reg6 word 18) (reg4 word 14) (bits 10 word 0))
  else if bitField word 10 4 = 4 then .ok (.stb (reg6 word 18) (reg4 word 14) (bits 10 word 0))
  else if bitField word 10 4 = 5 then .ok (.sth (reg6 word 18) (reg4 word 14) (bits 10 word 0))
  else if bitField word 10 4 = 6 then .ok (.stw (reg6 word 18) (reg4 word 14) (bits 10 word 0))
  else if bitField word 10 4 = 7 then .ok (.std (reg6 word 18) (reg4 word 14) (bits 10 word 0))
  else if bitField word 10 4 = 8 then .ok (.vld (reg6 word 18) (reg4 word 14) (bits 10 word 0))
  else if bitField word 10 4 = 9 then .ok (.vst (reg6 word 18) (reg4 word 14) (bits 10 word 0))
  else if bitField word 10 4 = 10 then .ok (.tld (reg4 word 18) (reg4 word 14) (bits 10 word 0))
  else if bitField word 10 4 = 11 then .ok (.tst (reg4 word 18) (reg4 word 14) (bits 10 word 0))
  else if bitField word 10 4 = 12 then .ok (.flrd (reg6 word 18) (reg4 word 14) (bits 10 word 0))
  else .error 3

/-- The instructions of major 0x31 (R51 to R54). -/
def decMajor31 (word : Nat) (_ext : Option Nat) : Except Nat Instr :=
  if bitField word 0 6 = 0 then .ok (.vlds (reg6 word 18) (reg4 word 14) (reg6 word 8))
  else if bitField word 0 6 = 1 then .ok (.vsts (reg6 word 18) (reg4 word 14) (reg6 word 8))
  else if bitField word 0 6 = 2 then (do
      let w ← GWidth.ofCode (bitField word 6 2)
      .ok (.vgth (reg6 word 18) (reg4 word 14) (reg6 word 8) w))
  else if bitField word 0 6 = 3 then (do
      let w ← GWidth.ofCode (bitField word 6 2)
      .ok (.vsct (reg6 word 18) (reg4 word 14) (reg6 word 8) w))
  else if bitField word 0 6 = 4 ∧ ¬ bitAt word 19 then .ok (.dkput (bits 4 word 20) (reg6 word 13) (bits 3 word 10))
  else if bitField word 0 6 = 4 ∧ bitAt word 19 then .ok (.dkputSp (bits 4 word 20) (reg4 word 15))
  else if bitField word 0 6 = 5 ∧ ¬ bitAt word 19 then .ok (.dktake (bits 4 word 20) (reg6 word 13) (bits 3 word 10))
  else if bitField word 0 6 = 5 ∧ bitAt word 19 then .ok (.dktakeSp (bits 4 word 20) (reg4 word 15))
  else if bitField word 0 6 = 6 then .ok (.cpy (reg4 word 20) (reg6 word 14) (reg6 word 8))
  else if bitField word 0 6 = 7 then .ok (.cpyu (reg4 word 20) (reg6 word 14) (reg6 word 8))
  else if bitField word 0 6 = 8 then .ok (.cpyw (reg4 word 20) (reg6 word 14) (reg6 word 8))
  else if bitField word 0 6 = 9 then (do
      let op ← AtomOp.ofCode (bitField word 11 3)
      .ok (.satom (reg4 word 20) (reg6 word 14) op (bitAt word 10) (bits 2 word 8)))
  else if bitField word 0 6 = 10 then (do
      let op ← AtomOp.ofCode (bitField word 9 3)
      .ok (.gatom (reg6 word 18) (reg6 word 12) op (bitAt word 8) (bitAt word 7)))
  else if bitField word 0 6 = 11 then (do
      let k ← FenceKind.ofCode (bitField word 22 2)
      .ok (.fence k))
  else if bitField word 0 6 = 12 then .ok (.binit (reg4 word 20) (reg6 word 14))
  else if bitField word 0 6 = 13 then .ok (.bsig (reg4 word 20) (reg6 word 14) (reg6 word 8) (bitAt word 7))
  else if bitField word 0 6 = 14 then .ok (.bwait (reg4 word 20) (bitAt word 19) (bitAt word 18))
  else if bitField word 0 6 = 15 then .ok (.fsend (bitAt word 23) (bits 6 word 17) (reg6 word 11))
  else if bitField word 0 6 = 16 then .ok (.fred (reg4 word 20))
  else if bitField word 0 6 = 17 then .ok (.qcnt (reg6 word 18) (bits 2 word 16))
  else if bitField word 0 6 = 18 then (do
      let op ← Xfm.ofCode (bitField word 16 4)
      .ok (.bxfm (reg4 word 20) op (reg6 word 10) (bits 4 word 6)))
  else if bitField word 0 6 = 19 then .ok (.migr (reg4 word 20))
  else .error 3

/-- The instructions of major 0x38 (R51 to R54). -/
def decMajor38 (word : Nat) (_ext : Option Nat) : Except Nat Instr :=
  .ok (.jmp (bits 24 word 0))

/-- The instructions of major 0x39 (R51 to R54). -/
def decMajor39 (word : Nat) (_ext : Option Nat) : Except Nat Instr :=
  .ok (.call (bits 24 word 0))

/-- The instructions of major 0x3A (R51 to R54). -/
def decMajor3A (word : Nat) (_ext : Option Nat) : Except Nat Instr :=
  .ok (.br (reg6 word 18) (bits 18 word 0))

/-- The instructions of major 0x3B (R51 to R54). -/
def decMajor3B (word : Nat) (_ext : Option Nat) : Except Nat Instr :=
  .ok (.brp (bitAt word 23) (reg3 word 18) (bits 18 word 0))

/-- The instructions of major 0x3C (R51 to R54). -/
def decMajor3C (word : Nat) (_ext : Option Nat) : Except Nat Instr :=
  if bitField word 0 6 = 0 then .ok (.callr (reg6 word 18) (reg6 word 12))
  else if bitField word 0 6 = 1 then .ok (.ret (reg6 word 12))
  else if bitField word 0 6 = 2 then .ok (.loop (bits 10 word 14) (bits 8 word 6))
  else if bitField word 0 6 = 3 then .ok (.loops (reg6 word 18) (bits 8 word 6))
  else if bitField word 0 6 = 4 then .ok (.lidx (reg6 word 18) (bits 3 word 15) (bitAt word 14))
  else if bitField word 0 6 = 5 ∧ ¬ bitAt word 23 then .ok (.waitt (bits 17 word 6))
  else if bitField word 0 6 = 5 ∧ bitAt word 23 then .ok (.waittAbs (reg6 word 17))
  else if bitField word 0 6 = 6 then .ok (.bnd)
  else if bitField word 0 6 = 7 then .ok (.exit)
  else if bitField word 0 6 = 8 then .ok (.launch (reg6 word 18) (reg6 word 12) (reg3 word 9))
  else if bitField word 0 6 = 9 then .ok (.graph (reg6 word 18) (reg6 word 12) (reg3 word 9))
  else if bitField word 0 6 = 10 then .ok (.ccwait (bitAt word 23) (reg6 word 12) (reg6 word 6))
  else if bitField word 0 6 = 11 then .ok (.ccrd (reg6 word 18) (reg6 word 12))
  else if bitField word 0 6 = 12 then .ok (.cancel (reg6 word 12) (reg3 word 9))
  else if bitField word 0 6 = 13 then .ok (.hsig (reg6 word 12) (bits 6 word 6))
  else if bitField word 0 6 = 14 then .ok (.trap (bits 12 word 6))
  else if bitField word 0 6 = 15 then .ok (.brk (bits 12 word 6))
  else .error 3

/-- The instructions of major 0x3E (R51 to R54). -/
def decMajor3E (word : Nat) (_ext : Option Nat) : Except Nat Instr :=
  if bitField word 0 6 = 0 then .ok (.rth (bits 3 word 21))
  else if bitField word 0 6 = 1 then .ok (.mfsr (reg6 word 18) (bits 8 word 10))
  else if bitField word 0 6 = 2 then .ok (.mtsr (reg6 word 18) (bits 8 word 10))
  else if bitField word 0 6 = 3 then .ok (.ctxsw (reg3 word 18) (reg6 word 12) (bitAt word 11))
  else if bitField word 0 6 = 4 then .ok (.ctxst (reg4 word 20) (reg6 word 12) (reg6 word 6))
  else if bitField word 0 6 = 5 then .ok (.ctxld (reg4 word 20) (reg6 word 12) (reg6 word 6))
  else if bitField word 0 6 = 6 then (do
      let sc ← Scope.ofCode (bitField word 22 2)
      .ok (.tlbinv sc (reg6 word 12) (reg6 word 6)))
  else if bitField word 0 6 = 7 then (do
      let sc ← Scope.ofCode (bitField word 18 2)
      .ok (.shoot (reg4 word 20) sc (reg6 word 12) (reg6 word 6)))
  else if bitField word 0 6 = 8 then .ok (.monrd (reg6 word 18) (reg6 word 12))
  else if bitField word 0 6 = 9 then .ok (.attest (reg4 word 20) (reg6 word 12) (reg6 word 6))
  else if bitField word 0 6 = 10 then .ok (.errpop (reg6 word 18) (bits 3 word 15) (bitAt word 14))
  else if bitField word 0 6 = 11 then (do
      let op ← HaltOp.ofCode (bitField word 10 2)
      .ok (.haltc (reg3 word 18) (reg6 word 12) op))
  else .error 3

/-- The instruction in a slot word `w` with the extension `x`, by its codes alone: refusals 1, 2 and 3, and the
reserved values of coded fields (R51 to R54, R57). -/
def extract (w : Nat) (x : Option Nat) : Except Nat Instr :=
  if bitField w 24 6 = 0 then decMajor00 w x
  else if bitField w 24 6 = 1 then decMajor01 w x
  else if bitField w 24 6 = 2 then decMajor02 w x
  else if bitField w 24 6 = 3 then decMajor03 w x
  else if bitField w 24 6 = 4 then decMajor04 w x
  else if bitField w 24 6 = 5 then decMajor05 w x
  else if bitField w 24 6 = 6 then decMajor06 w x
  else if bitField w 24 6 = 7 then decMajor07 w x
  else if bitField w 24 6 = 8 then decMajor08 w x
  else if bitField w 24 6 = 9 then decMajor09 w x
  else if bitField w 24 6 = 10 then decMajor0A w x
  else if (bitField w 24 6 = 12 ∨ bitField w 24 6 = 13 ∨ bitField w 24 6 = 14 ∨ bitField w 24 6 = 15) then decMajor0C w x
  else if bitField w 24 6 = 16 then decMajor10 w x
  else if bitField w 24 6 = 17 then decMajor11 w x
  else if (bitField w 24 6 = 20 ∨ bitField w 24 6 = 21 ∨ bitField w 24 6 = 22 ∨ bitField w 24 6 = 23) then decMajor14 w x
  else if bitField w 24 6 = 24 then decMajor18 w x
  else if bitField w 24 6 = 25 then decMajor19 w x
  else if bitField w 24 6 = 26 then decMajor1A w x
  else if bitField w 24 6 = 27 then decMajor1B w x
  else if bitField w 24 6 = 28 then decMajor1C w x
  else if bitField w 24 6 = 29 then decMajor1D w x
  else if bitField w 24 6 = 30 then decMajor1E w x
  else if bitField w 24 6 = 31 then decMajor1F w x
  else if bitField w 24 6 = 32 then decMajor20 w x
  else if bitField w 24 6 = 33 then decMajor21 w x
  else if bitField w 24 6 = 34 then decMajor22 w x
  else if bitField w 24 6 = 40 then decMajor28 w x
  else if bitField w 24 6 = 41 then decMajor29 w x
  else if bitField w 24 6 = 48 then decMajor30 w x
  else if bitField w 24 6 = 49 then decMajor31 w x
  else if bitField w 24 6 = 56 then decMajor38 w x
  else if bitField w 24 6 = 57 then decMajor39 w x
  else if bitField w 24 6 = 58 then decMajor3A w x
  else if bitField w 24 6 = 59 then decMajor3B w x
  else if bitField w 24 6 = 60 then decMajor3C w x
  else if bitField w 24 6 = 62 then decMajor3E w x
  else if bitField w 24 6 = 63 then .error 1
  else .error 2

/-- Bits [29:0] of the slot word of an instruction, from the encoding tables (R43, R51 to R54, R119 to R141,
R149, R161, R230, R235, R305 to R324, R391). A step of the device has no word. -/
def slotWord : Instr → Nat
  | .add d a b => packBits 0x00000000 [(18, d.val), (12, a.val), (6, b.val)]
  | .sub d a b => packBits 0x00000001 [(18, d.val), (12, a.val), (6, b.val)]
  | .and d a b => packBits 0x00000002 [(18, d.val), (12, a.val), (6, b.val)]
  | .or d a b => packBits 0x00000003 [(18, d.val), (12, a.val), (6, b.val)]
  | .xor d a b => packBits 0x00000004 [(18, d.val), (12, a.val), (6, b.val)]
  | .andn d a b => packBits 0x00000005 [(18, d.val), (12, a.val), (6, b.val)]
  | .shl d a b => packBits 0x00000006 [(18, d.val), (12, a.val), (6, b.val)]
  | .shr d a b => packBits 0x00000007 [(18, d.val), (12, a.val), (6, b.val)]
  | .sra d a b => packBits 0x00000008 [(18, d.val), (12, a.val), (6, b.val)]
  | .rol d a b => packBits 0x00000009 [(18, d.val), (12, a.val), (6, b.val)]
  | .min d a b => packBits 0x0000000A [(18, d.val), (12, a.val), (6, b.val)]
  | .max d a b => packBits 0x0000000B [(18, d.val), (12, a.val), (6, b.val)]
  | .minn d a b => packBits 0x0000000C [(18, d.val), (12, a.val), (6, b.val)]
  | .maxn d a b => packBits 0x0000000D [(18, d.val), (12, a.val), (6, b.val)]
  | .clz d a => packBits 0x0000000E [(18, d.val), (12, a.val)]
  | .ctz d a => packBits 0x0000000F [(18, d.val), (12, a.val)]
  | .popc d a => packBits 0x00000010 [(18, d.val), (12, a.val)]
  | .sext d a w => packBits 0x00000011 [(18, d.val), (12, a.val), (6, w.code)]
  | .zext d a w => packBits 0x00000012 [(18, d.val), (12, a.val), (6, w.code)]
  | .cmp c p a b => packBits 0x00000013 [(21, c.code), (18, p.val), (12, a.val), (6, b.val)]
  | .pand d a b => packBits 0x00000014 [(18, d.val), (12, a.val), (6, b.val)]
  | .por d a b => packBits 0x00000015 [(18, d.val), (12, a.val), (6, b.val)]
  | .pnot d a => packBits 0x00000016 [(18, d.val), (12, a.val)]
  | .sel d a b q => packBits 0x00000018 [(18, d.val), (12, a.val), (6, b.val), (0, q.val)]
  | .nop => 0x0000003F
  | .mul d a b => packBits 0x01000000 [(18, d.val), (12, a.val), (6, b.val)]
  | .mulh d a b => packBits 0x01000001 [(18, d.val), (12, a.val), (6, b.val)]
  | .mulhn d a b => packBits 0x01000002 [(18, d.val), (12, a.val), (6, b.val)]
  | .div d a b => packBits 0x01000003 [(18, d.val), (12, a.val), (6, b.val)]
  | .divn d a b => packBits 0x01000004 [(18, d.val), (12, a.val), (6, b.val)]
  | .rem d a b => packBits 0x01000005 [(18, d.val), (12, a.val), (6, b.val)]
  | .remn d a b => packBits 0x01000006 [(18, d.val), (12, a.val), (6, b.val)]
  | .addi d a i => packBits 0x02000000 [(18, d.val), (12, a.val), (0, i.low)]
  | .andi d a i => packBits 0x03000000 [(18, d.val), (12, a.val), (0, i.low)]
  | .ori d a i => packBits 0x04000000 [(18, d.val), (12, a.val), (0, i.low)]
  | .xori d a i => packBits 0x05000000 [(18, d.val), (12, a.val), (0, i.low)]
  | .shli d a n => packBits 0x06000000 [(18, d.val), (12, a.val), (0, n.toNat)]
  | .shri d a n => packBits 0x07000000 [(18, d.val), (12, a.val), (0, n.toNat)]
  | .srai d a n => packBits 0x08000000 [(18, d.val), (12, a.val), (0, n.toNat)]
  | .cmpi c p a i => packBits 0x09000000 [(21, c.code), (18, p.val), (12, a.val), (0, i.low)]
  | .movi d i => packBits 0x0A000000 [(18, d.val), (0, i.low)]
  | .lui d u => packBits 0x0C000000 [(18, d.val), (24, u.toNat / 2 ^ 18), (0, u.toNat % 2 ^ 18)]
  | .addpc d u => packBits 0x14000000 [(18, d.val), (24, u.toNat / 2 ^ 18), (0, u.toNat % 2 ^ 18)]
  | .amov d a => packBits 0x10000000 [(18, d.val), (12, a.val)]
  | .aadd d a b => packBits 0x10000001 [(18, d.val), (12, a.val), (6, b.val)]
  | .ainc d a => packBits 0x10000002 [(18, d.val), (12, a.val)]
  | .amod d a => packBits 0x10000003 [(18, d.val), (12, a.val)]
  | .aget d a f => packBits 0x10000004 [(18, d.val), (12, a.val), (6, f.code)]
  | .aaddi d a i => packBits 0x11000000 [(18, d.val), (12, a.val), (0, i.low)]
  | .vadd e d a b _ _ => packBits 0x18000000 [(3, e.code), (18, d.val), (12, a.val), (6, b.val)]
  | .vsub e d a b _ _ => packBits 0x18000001 [(3, e.code), (18, d.val), (12, a.val), (6, b.val)]
  | .vmul e d a b _ _ => packBits 0x18000002 [(3, e.code), (18, d.val), (12, a.val), (6, b.val)]
  | .vfma e d a b _ _ => packBits 0x18000003 [(3, e.code), (18, d.val), (12, a.val), (6, b.val)]
  | .vfms e d a b _ _ => packBits 0x18000004 [(3, e.code), (18, d.val), (12, a.val), (6, b.val)]
  | .vmin e d a b _ => packBits 0x18000005 [(3, e.code), (18, d.val), (12, a.val), (6, b.val)]
  | .vmax e d a b _ => packBits 0x18000006 [(3, e.code), (18, d.val), (12, a.val), (6, b.val)]
  | .vcmp e c d a b _ => packBits 0x18000007 [(3, e.code), (21, c.code), (18, d.val), (12, a.val), (6, b.val)]
  | .vabs e d a _ => packBits 0x19000000 [(3, e.code), (18, d.val), (12, a.val)]
  | .vneg e d a _ => packBits 0x19000001 [(3, e.code), (18, d.val), (12, a.val)]
  | .vsel e d a b _ _ => packBits 0x19000002 [(3, e.code), (18, d.val), (12, a.val), (6, b.val)]
  | .vrnd e d a n _ => packBits 0x19000003 [(3, e.code), (18, d.val), (12, a.val), (6, n.val)]
  | .vexp2 e d a n _ => packBits 0x19000004 [(3, e.code), (18, d.val), (12, a.val), (6, n.val)]
  | .vlog2 e d a n _ => packBits 0x19000005 [(3, e.code), (18, d.val), (12, a.val), (6, n.val)]
  | .vrcp e d a n _ => packBits 0x19000006 [(3, e.code), (18, d.val), (12, a.val), (6, n.val)]
  | .vrsq e d a n _ => packBits 0x19000007 [(3, e.code), (18, d.val), (12, a.val), (6, n.val)]
  | .vsig e d a n _ => packBits 0x1A000000 [(3, e.code), (18, d.val), (12, a.val), (6, n.val)]
  | .vtanh e d a n _ => packBits 0x1A000001 [(3, e.code), (18, d.val), (12, a.val), (6, n.val)]
  | .vredsum e d a n _ _ => packBits 0x1A000002 [(3, e.code), (18, d.val), (12, a.val), (6, n.val)]
  | .vredmax e d a _ _ => packBits 0x1A000003 [(3, e.code), (18, d.val), (12, a.val)]
  | .vredmin e d a _ _ => packBits 0x1A000004 [(3, e.code), (18, d.val), (12, a.val)]
  | .vcvtFp df sf d a n _ => packBits 0x1B000000 [(3, df.code), (0, sf.code), (18, d.val), (12, a.val), (6, n.val)]
  | .vcvtInt dir i f d a n _ =>
      packBits 0x1C000000 [(5, dir.code), (2, i.code), (0, f.code), (18, d.val), (12, a.val), (6, n.val)]
  | .viadd e d a b _ => packBits 0x1D000000 [(3, e.code), (18, d.val), (12, a.val), (6, b.val)]
  | .visub e d a b _ => packBits 0x1D000001 [(3, e.code), (18, d.val), (12, a.val), (6, b.val)]
  | .vimul e d a b _ => packBits 0x1D000002 [(3, e.code), (18, d.val), (12, a.val), (6, b.val)]
  | .vidot e d a b _ => packBits 0x1D000003 [(3, e.code), (18, d.val), (12, a.val), (6, b.val)]
  | .vimin e d a b _ => packBits 0x1D000004 [(3, e.code), (18, d.val), (12, a.val), (6, b.val)]
  | .vimax e d a b _ => packBits 0x1D000005 [(3, e.code), (18, d.val), (12, a.val), (6, b.val)]
  | .vshl e d a b _ _ _ => packBits 0x1E000000 [(3, e.code), (18, d.val), (12, a.val), (6, b.val)]
  | .vshr e d a b _ _ _ => packBits 0x1E000001 [(3, e.code), (18, d.val), (12, a.val), (6, b.val)]
  | .vsra e d a b _ _ _ => packBits 0x1E000002 [(3, e.code), (18, d.val), (12, a.val), (6, b.val)]
  | .vand e d a b _ => packBits 0x1E000003 [(3, e.code), (18, d.val), (12, a.val), (6, b.val)]
  | .vor e d a b _ => packBits 0x1E000004 [(3, e.code), (18, d.val), (12, a.val), (6, b.val)]
  | .vxor e d a b _ => packBits 0x1E000005 [(3, e.code), (18, d.val), (12, a.val), (6, b.val)]
  | .vperm e d a b _ => packBits 0x1F000000 [(3, e.code), (18, d.val), (12, a.val), (6, b.val)]
  | .vbcast e d a _ _ _ => packBits 0x1F000001 [(3, e.code), (18, d.val), (12, a.val)]
  | .vzip e d a b _ => packBits 0x1F000002 [(3, e.code), (18, d.val), (12, a.val), (6, b.val)]
  | .vunzip e d a b _ => packBits 0x1F000003 [(3, e.code), (18, d.val), (12, a.val), (6, b.val)]
  | .vslide e d a b _ _ => packBits 0x1F000004 [(3, e.code), (18, d.val), (12, a.val), (6, b.val)]
  | .viota e d a _ => packBits 0x1F000005 [(3, e.code), (18, d.val), (12, a.val)]
  | .vext e d a b _ _ => packBits 0x1F000006 [(3, e.code), (18, d.val), (12, a.val), (6, b.val)]
  | .vins e d a b _ => packBits 0x1F000007 [(3, e.code), (18, d.val), (12, a.val), (6, b.val)]
  | .vwidenX2 e d a _ => packBits 0x20000000 [(3, e.code), (18, d.val), (12, a.val)]
  | .vwidenX4 e d a _ => packBits 0x20000001 [(3, e.code), (18, d.val), (12, a.val)]
  | .vnarrowD2 e d a _ => packBits 0x20000002 [(3, e.code), (18, d.val), (12, a.val)]
  | .vnarrowD4 e d a _ => packBits 0x20000003 [(3, e.code), (18, d.val), (12, a.val)]
  | .vhusk d a b _ _ _ _ _ => packBits 0x21000000 [(18, d.toNat), (12, a.val), (6, b.val)]
  | .vpack d a _ _ _ => packBits 0x21000001 [(18, d.val), (12, a.val)]
  | .vunpack d a _ => packBits 0x21000002 [(18, d.val), (12, a.val)]
  | .vlaid d l n _ _ _ => packBits 0x21000003 [(18, d.val), (12, l.val), (6, n.val)]
  | .vqnt d a n _ _ _ _ _ _ => packBits 0x21000004 [(18, d.val), (12, a.val), (6, n.val)]
  | .mand d a b _ => packBits 0x22000000 [(18, d.val), (12, a.val), (6, b.val)]
  | .mor d a b _ => packBits 0x22000001 [(18, d.val), (12, a.val), (6, b.val)]
  | .mnot d a _ => packBits 0x22000002 [(18, d.val), (12, a.val)]
  | .mpop d a _ => packBits 0x22000003 [(18, d.val), (12, a.val)]
  | .ttype t s => packBits 0x28000000 [(20, t.val), (14, s.val)]
  | .tgett d t r => packBits 0x28000001 [(18, d.val), (14, t.val), (13, bitOf r)]
  | .tbind v s => packBits 0x28000002 [(20, v.val), (14, s.val)]
  | .tbindU v u => packBits 0x28002002 [(20, v.val), (14, u.val)]
  | .tfree t => packBits 0x28000003 [(20, t.val)]
  | .tfreeDv v => packBits 0x28080003 [(20, v.val)]
  | .tresh d a s => packBits 0x28000004 [(20, d.val), (16, a.val), (10, s.val)]
  | .ttrans d a lt => packBits 0x28000005 [(20, d.val), (16, a.val), (15, bitOf lt)]
  | .tcast d a f rnd sat re _ =>
      packBits 0x28000006 [(20, d.val), (16, a.val), (11, f.toNat), (9, rnd.toNat), (7, sat.toNat), (6, bitOf re)]
  | .tzero d => packBits 0x28000007 [(20, d.val)]
  | .texp d a k out => packBits 0x28000008 [(20, d.val), (16, a.val), (13, k.val), (12, bitOf out)]
  | .tmov d a => packBits 0x28000009 [(20, d.val), (16, a.val)]
  | .lacq p => packBits 0x29000000 [(18, p.val)]
  | .lrel => 0x29000001
  | .pldb t mode b x noff k =>
      packBits 0x29000002 [(20, t.val), (17, mode.toNat), (16, bitOf b), (12, x.val), (9, noff.toNat), (6, k.val)]
  | .pldbSp a b => packBits 0x29080002 [(20, a.val), (16, bitOf b)]
  | .plaid l b s adv => packBits 0x29000003 [(21, l.val), (20, bitOf b), (14, s.val), (13, bitOf adv)]
  | .pmma c t b k => packBits 0x29000004 [(17, c.val), (13, t.val), (12, bitOf b), (9, k.val)]
  | .pmmz c t b k => packBits 0x29000005 [(17, c.val), (13, t.val), (12, bitOf b), (9, k.val)]
  | .pclr c => packBits 0x29000006 [(17, c.val)]
  | .ptsc s off => packBits 0x29000007 [(18, s.val), (17, bitOf off)]
  | .pdrn c dst cb s _ => packBits 0x29000008 [(17, c.val), (16, bitOf dst), (14, cb.val), (8, s.val)]
  | .cbld q a o => packBits 0x29000009 [(21, q.val), (17, a.val), (7, o.toNat)]
  | .cbldPt a b ea eb => packBits 0x29800009 [(21, a.val), (19, b.val), (18, bitOf ea), (17, bitOf eb)]
  | .kld k a o => packBits 0x2900000A [(21, k.val), (17, a.val), (7, o.toNat)]
  | .lwset l a o => packBits 0x2900000B [(21, l.val), (17, a.val), (7, o.toNat)]
  | .lwstep l s ab => packBits 0x2900000C [(21, l.val), (15, s.val), (14, bitOf ab)]
  | .ltmma c a b z => packBits 0x2900000D [(17, c.val), (13, a.val), (9, b.val), (8, bitOf z)]
  | .ltdrn c d s _ => packBits 0x2900000E [(17, c.val), (13, d.val), (6, s.val)]
  | .vtenc p l a => packBits 0x2900000F [(21, p.val), (18, l.val), (14, a.val)]
  | .rep cnt per tstep astep =>
      packBits 0x29000010 [(18, cnt.toNat), (12, per.toNat), (9, tstep.toNat), (6, astep.toNat)]
  | .ldb r a o => packBits 0x30000000 [(18, r.val), (14, a.val), (0, o.toNat)]
  | .ldh r a o => packBits 0x30000400 [(18, r.val), (14, a.val), (0, o.toNat)]
  | .ldw r a o => packBits 0x30000800 [(18, r.val), (14, a.val), (0, o.toNat)]
  | .ldd r a o => packBits 0x30000C00 [(18, r.val), (14, a.val), (0, o.toNat)]
  | .stb r a o => packBits 0x30001000 [(18, r.val), (14, a.val), (0, o.toNat)]
  | .sth r a o => packBits 0x30001400 [(18, r.val), (14, a.val), (0, o.toNat)]
  | .stw r a o => packBits 0x30001800 [(18, r.val), (14, a.val), (0, o.toNat)]
  | .std r a o => packBits 0x30001C00 [(18, r.val), (14, a.val), (0, o.toNat)]
  | .vld r a o => packBits 0x30002000 [(18, r.val), (14, a.val), (0, o.toNat)]
  | .vst r a o => packBits 0x30002400 [(18, r.val), (14, a.val), (0, o.toNat)]
  | .tld r a o => packBits 0x30002800 [(18, r.val), (14, a.val), (0, o.toNat)]
  | .tst r a o => packBits 0x30002C00 [(18, r.val), (14, a.val), (0, o.toNat)]
  | .flrd r a o => packBits 0x30003000 [(18, r.val), (14, a.val), (0, o.toNat)]
  | .vlds v a s => packBits 0x31000000 [(18, v.val), (14, a.val), (8, s.val)]
  | .vsts v a s => packBits 0x31000001 [(18, v.val), (14, a.val), (8, s.val)]
  | .vgth v a i w => packBits 0x31000002 [(18, v.val), (14, a.val), (8, i.val), (6, w.code)]
  | .vsct v a i w => packBits 0x31000003 [(18, v.val), (14, a.val), (8, i.val), (6, w.code)]
  | .dkput l v seg => packBits 0x31000004 [(20, l.toNat), (13, v.val), (10, seg.toNat)]
  | .dkputSp l a => packBits 0x31080004 [(20, l.toNat), (15, a.val)]
  | .dktake l v seg => packBits 0x31000005 [(20, l.toNat), (13, v.val), (10, seg.toNat)]
  | .dktakeSp l a => packBits 0x31080005 [(20, l.toNat), (15, a.val)]
  | .cpy a so dof => packBits 0x31000006 [(20, a.val), (14, so.val), (8, dof.val)]
  | .cpyu a so dof => packBits 0x31000007 [(20, a.val), (14, so.val), (8, dof.val)]
  | .cpyw a so dof => packBits 0x31000008 [(20, a.val), (14, so.val), (8, dof.val)]
  | .satom a d op w cis =>
      packBits 0x31000009 [(20, a.val), (14, d.val), (11, op.code), (10, bitOf w), (8, cis.toNat)]
  | .gatom d a op w rt => packBits 0x3100000A [(18, d.val), (12, a.val), (9, op.code), (8, bitOf w), (7, bitOf rt)]
  | .fence k => packBits 0x3100000B [(22, k.code)]
  | .binit a v => packBits 0x3100000C [(20, a.val), (14, v.val)]
  | .bsig a v sc c => packBits 0x3100000D [(20, a.val), (14, v.val), (8, sc.val), (7, bitOf c)]
  | .bwait a bare keep => packBits 0x3100000E [(20, a.val), (19, bitOf bare), (18, bitOf keep)]
  | .fsend v r s => packBits 0x3100000F [(23, bitOf v), (17, r.toNat), (11, s.val)]
  | .fred a => packBits 0x31000010 [(20, a.val)]
  | .qcnt d q => packBits 0x31000011 [(18, d.val), (16, q.toNat)]
  | .bxfm a op v cnt => packBits 0x31000012 [(20, a.val), (16, op.code), (10, v.val), (6, cnt.toNat)]
  | .migr a => packBits 0x31000013 [(20, a.val)]
  | .jmp o => packBits 0x38000000 [(0, o.toNat)]
  | .call o => packBits 0x39000000 [(0, o.toNat)]
  | .br s o => packBits 0x3A000000 [(18, s.val), (0, o.toNat)]
  | .brp inv p o => packBits 0x3B000000 [(23, bitOf inv), (18, p.val), (0, o.toNat)]
  | .callr d a => packBits 0x3C000000 [(18, d.val), (12, a.val)]
  | .ret a => packBits 0x3C000001 [(12, a.val)]
  | .loop cnt eo => packBits 0x3C000002 [(14, cnt.toNat), (6, eo.toNat)]
  | .loops s eo => packBits 0x3C000003 [(18, s.val), (6, eo.toNat)]
  | .lidx d dep pop => packBits 0x3C000004 [(18, d.val), (15, dep.toNat), (14, bitOf pop)]
  | .waitt n => packBits 0x3C000005 [(6, n.toNat)]
  | .waittAbs s => packBits 0x3C800005 [(17, s.val)]
  | .bnd => 0x3C000006
  | .exit => 0x3C000007
  | .launch d a p => packBits 0x3C000008 [(18, d.val), (12, a.val), (9, p.val)]
  | .graph d a p => packBits 0x3C000009 [(18, d.val), (12, a.val), (9, p.val)]
  | .ccwait ge a b => packBits 0x3C00000A [(23, bitOf ge), (12, a.val), (6, b.val)]
  | .ccrd d a => packBits 0x3C00000B [(18, d.val), (12, a.val)]
  | .cancel a p => packBits 0x3C00000C [(12, a.val), (9, p.val)]
  | .hsig s v => packBits 0x3C00000D [(12, s.val), (6, v.toNat)]
  | .trap c => packBits 0x3C00000E [(6, c.toNat)]
  | .brk c => packBits 0x3C00000F [(6, c.toNat)]
  | .rth act => packBits 0x3E000000 [(21, act.toNat)]
  | .mfsr d sr => packBits 0x3E000001 [(18, d.val), (10, sr.toNat)]
  | .mtsr a sr => packBits 0x3E000002 [(18, a.val), (10, sr.toNat)]
  | .ctxsw p s inn => packBits 0x3E000003 [(18, p.val), (12, s.val), (11, bitOf inn)]
  | .ctxst a s b => packBits 0x3E000004 [(20, a.val), (12, s.val), (6, b.val)]
  | .ctxld a s b => packBits 0x3E000005 [(20, a.val), (12, s.val), (6, b.val)]
  | .tlbinv sc s b => packBits 0x3E000006 [(22, sc.code), (12, s.val), (6, b.val)]
  | .shoot a sc s b => packBits 0x3E000007 [(20, a.val), (18, sc.code), (12, s.val), (6, b.val)]
  | .monrd d a => packBits 0x3E000008 [(18, d.val), (12, a.val)]
  | .attest a m b => packBits 0x3E000009 [(20, a.val), (12, m.val), (6, b.val)]
  | .errpop d w pop => packBits 0x3E00000A [(18, d.val), (15, w.toNat), (14, bitOf pop)]
  | .haltc p s op => packBits 0x3E00000B [(18, p.val), (12, s.val), (10, op.code)]
  | .issueBundle _ => 0
  | .earlyCommitResume _ => 0
  | .holdEnd _ => 0
  | .holdTimeout _ => 0
  | .resultLanding _ => 0
  | .repReissue _ => 0
  | .leaseEnd _ => 0
  | .commitEntryEnqueue _ => 0
  | .reamAdvance _ => 0
  | .commitSignalPhase _ => 0
  | .commitCompletionPhase _ => 0
  | .handlerIssueBundle _ => 0
  | .timelinePosition _ => 0
  | .drainStall _ _ => 0
  | .webLineArrival _ => 0
  | .untimedCopyLine _ => 0
  | .untimedCopyComplete _ => 0
  | .barrierSignalDelivery _ => 0
  | .vtencService _ => 0
  | .vtencComplete _ => 0
  | .fredContributionArrival _ => 0
  | .fredComplete _ => 0
  | .fredTimeout _ => 0
  | .fredHeldExpiry _ => 0
  | .woveFrameReceive _ => 0
  | .peerAccessRequest _ => 0
  | .queueEntryEnter _ _ => 0
  | .hostMessageQueueWrite _ _ => 0
  | .cxlMemWrite _ _ _ => 0
  | .cxlMemRead _ => 0
  | .cxlUnsupportedRequest => 0
  | .mgmtRegisterWrite _ _ => 0
  | .jobPortWrite _ => 0
  | .apfenceRead => 0
  | .vatcfgWrite _ => 0
  | .timelineWordWrite _ _ _ => 0
  | .tlctlWrite _ _ => 0
  | .asctlWrite _ _ _ => 0
  | .measextWrite _ => 0
  | .errptrHeadWrite _ => 0
  | .requeueWrite _ => 0
  | .haltctlReq _ => 0
  | .haltctlGo _ => 0
  | .haltctlStep _ => 0
  | .dbgdataWrite _ => 0
  | .clkctlWrite _ => 0
  | .clockChangeComplete => 0
  | .cfgctlCommit _ => 0
  | .cfgCommitComplete => 0
  | .seedctlRetry => 0
  | .seedctlGenkey => 0
  | .shootreqWrite _ => 0
  | .spdmRequest _ => 0
  | .graphAdmit => 0
  | .vatPlacement _ => 0
  | .vatReservation _ => 0
  | .contextStreamComplete _ => 0
  | .vatSwitchActive _ => 0
  | .shootdownStart => 0
  | .shootdownAck _ => 0
  | .shootdownComplete => 0
  | .migrPage _ => 0
  | .migrComplete _ => 0
  | .ctxImageComplete _ => 0
  | .attestComplete => 0
  | .monitorSample => 0
  | .powerOnStart => 0
  | .conventionalResetStart => 0
  | .startTimeout => 0
  | .woveLinkUp _ => 0
  | .woveLinkDown _ => 0
  | .powerLoss => 0
  | .hostSnoop => 0

/-- A value, or none for zero. -/
def nonZero (n : Nat) : Option Nat := if n = 0 then none else some n

/-- The extension of a slot, as a number: none where its bits are all zero or it takes none; an I-format long
immediate always has one (R47, R50, R155, R161). -/
def slotExt : Instr → Option Nat
  | .add _ _ _ => none
  | .sub _ _ _ => none
  | .and _ _ _ => none
  | .or _ _ _ => none
  | .xor _ _ _ => none
  | .andn _ _ _ => none
  | .shl _ _ _ => none
  | .shr _ _ _ => none
  | .sra _ _ _ => none
  | .rol _ _ _ => none
  | .min _ _ _ => none
  | .max _ _ _ => none
  | .minn _ _ _ => none
  | .maxn _ _ _ => none
  | .clz _ _ => none
  | .ctz _ _ => none
  | .popc _ _ => none
  | .sext _ _ _ => none
  | .zext _ _ _ => none
  | .cmp _ _ _ _ => none
  | .pand _ _ _ => none
  | .por _ _ _ => none
  | .pnot _ _ => none
  | .sel _ _ _ _ => none
  | .nop => none
  | .mul _ _ _ => none
  | .mulh _ _ _ => none
  | .mulhn _ _ _ => none
  | .div _ _ _ => none
  | .divn _ _ _ => none
  | .rem _ _ _ => none
  | .remn _ _ _ => none
  | .addi _ _ i => i.ext
  | .andi _ _ i => i.ext
  | .ori _ _ i => i.ext
  | .xori _ _ i => i.ext
  | .shli _ _ _ => none
  | .shri _ _ _ => none
  | .srai _ _ _ => none
  | .cmpi _ _ _ i => i.ext
  | .movi _ i => i.ext
  | .lui _ _ => none
  | .addpc _ _ => none
  | .amov _ _ => none
  | .aadd _ _ _ => none
  | .ainc _ _ => none
  | .amod _ _ => none
  | .aget _ _ _ => none
  | .aaddi _ _ i => i.ext
  | .vadd _ _ _ _ m roff => nonZero (packBits m.bits [(0, roff.toNat)])
  | .vsub _ _ _ _ m roff => nonZero (packBits m.bits [(0, roff.toNat)])
  | .vmul _ _ _ _ m roff => nonZero (packBits m.bits [(0, roff.toNat)])
  | .vfma _ _ _ _ m roff => nonZero (packBits m.bits [(0, roff.toNat)])
  | .vfms _ _ _ _ m roff => nonZero (packBits m.bits [(0, roff.toNat)])
  | .vmin _ _ _ _ m => nonZero m.bits
  | .vmax _ _ _ _ m => nonZero m.bits
  | .vcmp _ _ _ _ _ m => nonZero m.bits
  | .vabs _ _ _ m => nonZero m.bits
  | .vneg _ _ _ m => nonZero m.bits
  | .vsel _ _ _ _ m selm => nonZero (packBits m.bits [(0, selm.val)])
  | .vrnd _ _ _ _ m => nonZero m.bits
  | .vexp2 _ _ _ _ m => nonZero m.bits
  | .vlog2 _ _ _ _ m => nonZero m.bits
  | .vrcp _ _ _ _ m => nonZero m.bits
  | .vrsq _ _ _ _ m => nonZero m.bits
  | .vsig _ _ _ _ m => nonZero m.bits
  | .vtanh _ _ _ _ m => nonZero m.bits
  | .vredsum _ _ _ _ m acc => nonZero (packBits m.bits [(20, bitOf acc)])
  | .vredmax _ _ _ m acc => nonZero (packBits m.bits [(20, bitOf acc)])
  | .vredmin _ _ _ m acc => nonZero (packBits m.bits [(20, bitOf acc)])
  | .vcvtFp _ _ _ _ _ m => nonZero m.bits
  | .vcvtInt _ _ _ _ _ _ m => nonZero m.bits
  | .viadd _ _ _ _ m => nonZero m.bits
  | .visub _ _ _ _ m => nonZero m.bits
  | .vimul _ _ _ _ m => nonZero m.bits
  | .vidot _ _ _ _ m => nonZero m.bits
  | .vimin _ _ _ _ m => nonZero m.bits
  | .vimax _ _ _ _ m => nonZero m.bits
  | .vshl _ _ _ _ m imm amt => nonZero (packBits m.bits [(20, bitOf imm), (0, amt.toNat)])
  | .vshr _ _ _ _ m imm amt => nonZero (packBits m.bits [(20, bitOf imm), (0, amt.toNat)])
  | .vsra _ _ _ _ m imm amt => nonZero (packBits m.bits [(20, bitOf imm), (0, amt.toNat)])
  | .vand _ _ _ _ m => nonZero m.bits
  | .vor _ _ _ _ m => nonZero m.bits
  | .vxor _ _ _ _ m => nonZero m.bits
  | .vperm _ _ _ _ m => nonZero m.bits
  | .vbcast _ _ _ m scl idx => nonZero (packBits m.bits [(20, bitOf scl), (0, idx.toNat)])
  | .vzip _ _ _ _ m => nonZero m.bits
  | .vunzip _ _ _ _ m => nonZero m.bits
  | .vslide _ _ _ _ m sh => nonZero (packBits m.bits [(0, sh.toNat)])
  | .viota _ _ _ m => nonZero m.bits
  | .vext _ _ _ _ m sgn => nonZero (packBits m.bits [(20, bitOf sgn)])
  | .vins _ _ _ _ m => nonZero m.bits
  | .vwidenX2 _ _ _ m => nonZero m.bits
  | .vwidenX4 _ _ _ m => nonZero m.bits
  | .vnarrowD2 _ _ _ m => nonZero m.bits
  | .vnarrowD4 _ _ _ m => nonZero m.bits
  | .vhusk _ _ _ m hk msk wc p => nonZero (packBits m.bits [(20, bitOf hk), (19, bitOf msk), (16, wc.code), (0, p.toNat)])
  | .vpack _ _ m pfmt res => nonZero (packBits m.bits [(16, pfmt.toNat), (0, res.toNat)])
  | .vunpack _ _ m => nonZero m.bits
  | .vlaid _ _ _ m adv w32 => nonZero (packBits m.bits [(20, bitOf adv), (19, bitOf w32)])
  | .vqnt _ _ _ m fout sin cbx kreg sb => nonZero (packBits m.bits [(18, fout.toNat), (17, bitOf sin), (15, cbx.val), (12, kreg.val), (6, sb.toNat)])
  | .mand _ _ _ m => nonZero m.bits
  | .mor _ _ _ m => nonZero m.bits
  | .mnot _ _ m => nonZero m.bits
  | .mpop _ _ m => nonZero m.bits
  | .ttype _ _ => none
  | .tgett _ _ _ => none
  | .tbind _ _ => none
  | .tbindU _ _ => none
  | .tfree _ => none
  | .tfreeDv _ => none
  | .tresh _ _ _ => none
  | .ttrans _ _ _ => none
  | .tcast _ _ _ _ _ _ off => nonZero (packBits 0 [(0, off.toNat)])
  | .tzero _ => none
  | .texp _ _ _ _ => none
  | .tmov _ _ => none
  | .lacq _ => none
  | .lrel => none
  | .pldb _ _ _ _ _ _ => none
  | .pldbSp _ _ => none
  | .plaid _ _ _ _ => none
  | .pmma _ _ _ _ => none
  | .pmmz _ _ _ _ => none
  | .pclr _ => none
  | .ptsc _ _ => none
  | .pdrn _ _ _ _ x => nonZero x.bits
  | .cbld _ _ _ => none
  | .cbldPt _ _ _ _ => none
  | .kld _ _ _ => none
  | .lwset _ _ _ => none
  | .lwstep _ _ _ => none
  | .ltmma _ _ _ _ => none
  | .ltdrn _ _ _ x => nonZero x.bits
  | .vtenc _ _ _ => none
  | .rep _ _ _ _ => none
  | .ldb _ _ _ => none
  | .ldh _ _ _ => none
  | .ldw _ _ _ => none
  | .ldd _ _ _ => none
  | .stb _ _ _ => none
  | .sth _ _ _ => none
  | .stw _ _ _ => none
  | .std _ _ _ => none
  | .vld _ _ _ => none
  | .vst _ _ _ => none
  | .tld _ _ _ => none
  | .tst _ _ _ => none
  | .flrd _ _ _ => none
  | .vlds _ _ _ => none
  | .vsts _ _ _ => none
  | .vgth _ _ _ _ => none
  | .vsct _ _ _ _ => none
  | .dkput _ _ _ => none
  | .dkputSp _ _ => none
  | .dktake _ _ _ => none
  | .dktakeSp _ _ => none
  | .cpy _ _ _ => none
  | .cpyu _ _ _ => none
  | .cpyw _ _ _ => none
  | .satom _ _ _ _ _ => none
  | .gatom _ _ _ _ _ => none
  | .fence _ => none
  | .binit _ _ => none
  | .bsig _ _ _ _ => none
  | .bwait _ _ _ => none
  | .fsend _ _ _ => none
  | .fred _ => none
  | .qcnt _ _ => none
  | .bxfm _ _ _ _ => none
  | .migr _ => none
  | .jmp _ => none
  | .call _ => none
  | .br _ _ => none
  | .brp _ _ _ => none
  | .callr _ _ => none
  | .ret _ => none
  | .loop _ _ => none
  | .loops _ _ => none
  | .lidx _ _ _ => none
  | .waitt _ => none
  | .waittAbs _ => none
  | .bnd => none
  | .exit => none
  | .launch _ _ _ => none
  | .graph _ _ _ => none
  | .ccwait _ _ _ => none
  | .ccrd _ _ => none
  | .cancel _ _ => none
  | .hsig _ _ => none
  | .trap _ => none
  | .brk _ => none
  | .rth _ => none
  | .mfsr _ _ => none
  | .mtsr _ _ => none
  | .ctxsw _ _ _ => none
  | .ctxst _ _ _ => none
  | .ctxld _ _ _ => none
  | .tlbinv _ _ _ => none
  | .shoot _ _ _ _ => none
  | .monrd _ _ => none
  | .attest _ _ _ => none
  | .errpop _ _ _ => none
  | .haltc _ _ _ => none
  | .issueBundle _ => none
  | .earlyCommitResume _ => none
  | .holdEnd _ => none
  | .holdTimeout _ => none
  | .resultLanding _ => none
  | .repReissue _ => none
  | .leaseEnd _ => none
  | .commitEntryEnqueue _ => none
  | .reamAdvance _ => none
  | .commitSignalPhase _ => none
  | .commitCompletionPhase _ => none
  | .handlerIssueBundle _ => none
  | .timelinePosition _ => none
  | .drainStall _ _ => none
  | .webLineArrival _ => none
  | .untimedCopyLine _ => none
  | .untimedCopyComplete _ => none
  | .barrierSignalDelivery _ => none
  | .vtencService _ => none
  | .vtencComplete _ => none
  | .fredContributionArrival _ => none
  | .fredComplete _ => none
  | .fredTimeout _ => none
  | .fredHeldExpiry _ => none
  | .woveFrameReceive _ => none
  | .peerAccessRequest _ => none
  | .queueEntryEnter _ _ => none
  | .hostMessageQueueWrite _ _ => none
  | .cxlMemWrite _ _ _ => none
  | .cxlMemRead _ => none
  | .cxlUnsupportedRequest => none
  | .mgmtRegisterWrite _ _ => none
  | .jobPortWrite _ => none
  | .apfenceRead => none
  | .vatcfgWrite _ => none
  | .timelineWordWrite _ _ _ => none
  | .tlctlWrite _ _ => none
  | .asctlWrite _ _ _ => none
  | .measextWrite _ => none
  | .errptrHeadWrite _ => none
  | .requeueWrite _ => none
  | .haltctlReq _ => none
  | .haltctlGo _ => none
  | .haltctlStep _ => none
  | .dbgdataWrite _ => none
  | .clkctlWrite _ => none
  | .clockChangeComplete => none
  | .cfgctlCommit _ => none
  | .cfgCommitComplete => none
  | .seedctlRetry => none
  | .seedctlGenkey => none
  | .shootreqWrite _ => none
  | .spdmRequest _ => none
  | .graphAdmit => none
  | .vatPlacement _ => none
  | .vatReservation _ => none
  | .contextStreamComplete _ => none
  | .vatSwitchActive _ => none
  | .shootdownStart => none
  | .shootdownAck _ => none
  | .shootdownComplete => none
  | .migrPage _ => none
  | .migrComplete _ => none
  | .ctxImageComplete _ => none
  | .attestComplete => none
  | .monitorSample => none
  | .powerOnStart => none
  | .conventionalResetStart => none
  | .startTimeout => none
  | .woveLinkUp _ => none
  | .woveLinkDown _ => none
  | .powerLoss => none
  | .hostSnoop => none

/-- Whether an instruction accepts an extension (R47, R149, R161). -/
def takesExt : Instr → Bool
  | .add _ _ _ => false
  | .sub _ _ _ => false
  | .and _ _ _ => false
  | .or _ _ _ => false
  | .xor _ _ _ => false
  | .andn _ _ _ => false
  | .shl _ _ _ => false
  | .shr _ _ _ => false
  | .sra _ _ _ => false
  | .rol _ _ _ => false
  | .min _ _ _ => false
  | .max _ _ _ => false
  | .minn _ _ _ => false
  | .maxn _ _ _ => false
  | .clz _ _ => false
  | .ctz _ _ => false
  | .popc _ _ => false
  | .sext _ _ _ => false
  | .zext _ _ _ => false
  | .cmp _ _ _ _ => false
  | .pand _ _ _ => false
  | .por _ _ _ => false
  | .pnot _ _ => false
  | .sel _ _ _ _ => false
  | .nop => false
  | .mul _ _ _ => false
  | .mulh _ _ _ => false
  | .mulhn _ _ _ => false
  | .div _ _ _ => false
  | .divn _ _ _ => false
  | .rem _ _ _ => false
  | .remn _ _ _ => false
  | .addi _ _ _ => true
  | .andi _ _ _ => true
  | .ori _ _ _ => true
  | .xori _ _ _ => true
  | .shli _ _ _ => false
  | .shri _ _ _ => false
  | .srai _ _ _ => false
  | .cmpi _ _ _ _ => true
  | .movi _ _ => true
  | .lui _ _ => false
  | .addpc _ _ => false
  | .amov _ _ => false
  | .aadd _ _ _ => false
  | .ainc _ _ => false
  | .amod _ _ => false
  | .aget _ _ _ => false
  | .aaddi _ _ _ => true
  | .vadd _ _ _ _ _ _ => true
  | .vsub _ _ _ _ _ _ => true
  | .vmul _ _ _ _ _ _ => true
  | .vfma _ _ _ _ _ _ => true
  | .vfms _ _ _ _ _ _ => true
  | .vmin _ _ _ _ _ => true
  | .vmax _ _ _ _ _ => true
  | .vcmp _ _ _ _ _ _ => true
  | .vabs _ _ _ _ => true
  | .vneg _ _ _ _ => true
  | .vsel _ _ _ _ _ _ => true
  | .vrnd _ _ _ _ _ => true
  | .vexp2 _ _ _ _ _ => true
  | .vlog2 _ _ _ _ _ => true
  | .vrcp _ _ _ _ _ => true
  | .vrsq _ _ _ _ _ => true
  | .vsig _ _ _ _ _ => true
  | .vtanh _ _ _ _ _ => true
  | .vredsum _ _ _ _ _ _ => true
  | .vredmax _ _ _ _ _ => true
  | .vredmin _ _ _ _ _ => true
  | .vcvtFp _ _ _ _ _ _ => true
  | .vcvtInt _ _ _ _ _ _ _ => true
  | .viadd _ _ _ _ _ => true
  | .visub _ _ _ _ _ => true
  | .vimul _ _ _ _ _ => true
  | .vidot _ _ _ _ _ => true
  | .vimin _ _ _ _ _ => true
  | .vimax _ _ _ _ _ => true
  | .vshl _ _ _ _ _ _ _ => true
  | .vshr _ _ _ _ _ _ _ => true
  | .vsra _ _ _ _ _ _ _ => true
  | .vand _ _ _ _ _ => true
  | .vor _ _ _ _ _ => true
  | .vxor _ _ _ _ _ => true
  | .vperm _ _ _ _ _ => true
  | .vbcast _ _ _ _ _ _ => true
  | .vzip _ _ _ _ _ => true
  | .vunzip _ _ _ _ _ => true
  | .vslide _ _ _ _ _ _ => true
  | .viota _ _ _ _ => true
  | .vext _ _ _ _ _ _ => true
  | .vins _ _ _ _ _ => true
  | .vwidenX2 _ _ _ _ => true
  | .vwidenX4 _ _ _ _ => true
  | .vnarrowD2 _ _ _ _ => true
  | .vnarrowD4 _ _ _ _ => true
  | .vhusk _ _ _ _ _ _ _ _ => true
  | .vpack _ _ _ _ _ => true
  | .vunpack _ _ _ => true
  | .vlaid _ _ _ _ _ _ => true
  | .vqnt _ _ _ _ _ _ _ _ _ => true
  | .mand _ _ _ _ => true
  | .mor _ _ _ _ => true
  | .mnot _ _ _ => true
  | .mpop _ _ _ => true
  | .ttype _ _ => false
  | .tgett _ _ _ => false
  | .tbind _ _ => false
  | .tbindU _ _ => false
  | .tfree _ => false
  | .tfreeDv _ => false
  | .tresh _ _ _ => false
  | .ttrans _ _ _ => false
  | .tcast _ _ _ _ _ _ _ => true
  | .tzero _ => false
  | .texp _ _ _ _ => false
  | .tmov _ _ => false
  | .lacq _ => false
  | .lrel => false
  | .pldb _ _ _ _ _ _ => false
  | .pldbSp _ _ => false
  | .plaid _ _ _ _ => false
  | .pmma _ _ _ _ => false
  | .pmmz _ _ _ _ => false
  | .pclr _ => false
  | .ptsc _ _ => false
  | .pdrn _ _ _ _ _ => true
  | .cbld _ _ _ => false
  | .cbldPt _ _ _ _ => false
  | .kld _ _ _ => false
  | .lwset _ _ _ => false
  | .lwstep _ _ _ => false
  | .ltmma _ _ _ _ => false
  | .ltdrn _ _ _ _ => true
  | .vtenc _ _ _ => false
  | .rep _ _ _ _ => false
  | .ldb _ _ _ => false
  | .ldh _ _ _ => false
  | .ldw _ _ _ => false
  | .ldd _ _ _ => false
  | .stb _ _ _ => false
  | .sth _ _ _ => false
  | .stw _ _ _ => false
  | .std _ _ _ => false
  | .vld _ _ _ => false
  | .vst _ _ _ => false
  | .tld _ _ _ => false
  | .tst _ _ _ => false
  | .flrd _ _ _ => false
  | .vlds _ _ _ => false
  | .vsts _ _ _ => false
  | .vgth _ _ _ _ => false
  | .vsct _ _ _ _ => false
  | .dkput _ _ _ => false
  | .dkputSp _ _ => false
  | .dktake _ _ _ => false
  | .dktakeSp _ _ => false
  | .cpy _ _ _ => false
  | .cpyu _ _ _ => false
  | .cpyw _ _ _ => false
  | .satom _ _ _ _ _ => false
  | .gatom _ _ _ _ _ => false
  | .fence _ => false
  | .binit _ _ => false
  | .bsig _ _ _ _ => false
  | .bwait _ _ _ => false
  | .fsend _ _ _ => false
  | .fred _ => false
  | .qcnt _ _ => false
  | .bxfm _ _ _ _ => false
  | .migr _ => false
  | .jmp _ => false
  | .call _ => false
  | .br _ _ => false
  | .brp _ _ _ => false
  | .callr _ _ => false
  | .ret _ => false
  | .loop _ _ => false
  | .loops _ _ => false
  | .lidx _ _ _ => false
  | .waitt _ => false
  | .waittAbs _ => false
  | .bnd => false
  | .exit => false
  | .launch _ _ _ => false
  | .graph _ _ _ => false
  | .ccwait _ _ _ => false
  | .ccrd _ _ => false
  | .cancel _ _ => false
  | .hsig _ _ => false
  | .trap _ => false
  | .brk _ => false
  | .rth _ => false
  | .mfsr _ _ => false
  | .mtsr _ _ => false
  | .ctxsw _ _ _ => false
  | .ctxst _ _ _ => false
  | .ctxld _ _ _ => false
  | .tlbinv _ _ _ => false
  | .shoot _ _ _ _ => false
  | .monrd _ _ => false
  | .attest _ _ _ => false
  | .errpop _ _ _ => false
  | .haltc _ _ _ => false
  | .issueBundle _ => false
  | .earlyCommitResume _ => false
  | .holdEnd _ => false
  | .holdTimeout _ => false
  | .resultLanding _ => false
  | .repReissue _ => false
  | .leaseEnd _ => false
  | .commitEntryEnqueue _ => false
  | .reamAdvance _ => false
  | .commitSignalPhase _ => false
  | .commitCompletionPhase _ => false
  | .handlerIssueBundle _ => false
  | .timelinePosition _ => false
  | .drainStall _ _ => false
  | .webLineArrival _ => false
  | .untimedCopyLine _ => false
  | .untimedCopyComplete _ => false
  | .barrierSignalDelivery _ => false
  | .vtencService _ => false
  | .vtencComplete _ => false
  | .fredContributionArrival _ => false
  | .fredComplete _ => false
  | .fredTimeout _ => false
  | .fredHeldExpiry _ => false
  | .woveFrameReceive _ => false
  | .peerAccessRequest _ => false
  | .queueEntryEnter _ _ => false
  | .hostMessageQueueWrite _ _ => false
  | .cxlMemWrite _ _ _ => false
  | .cxlMemRead _ => false
  | .cxlUnsupportedRequest => false
  | .mgmtRegisterWrite _ _ => false
  | .jobPortWrite _ => false
  | .apfenceRead => false
  | .vatcfgWrite _ => false
  | .timelineWordWrite _ _ _ => false
  | .tlctlWrite _ _ => false
  | .asctlWrite _ _ _ => false
  | .measextWrite _ => false
  | .errptrHeadWrite _ => false
  | .requeueWrite _ => false
  | .haltctlReq _ => false
  | .haltctlGo _ => false
  | .haltctlStep _ => false
  | .dbgdataWrite _ => false
  | .clkctlWrite _ => false
  | .clockChangeComplete => false
  | .cfgctlCommit _ => false
  | .cfgCommitComplete => false
  | .seedctlRetry => false
  | .seedctlGenkey => false
  | .shootreqWrite _ => false
  | .spdmRequest _ => false
  | .graphAdmit => false
  | .vatPlacement _ => false
  | .vatReservation _ => false
  | .contextStreamComplete _ => false
  | .vatSwitchActive _ => false
  | .shootdownStart => false
  | .shootdownAck _ => false
  | .shootdownComplete => false
  | .migrPage _ => false
  | .migrComplete _ => false
  | .ctxImageComplete _ => false
  | .attestComplete => false
  | .monitorSample => false
  | .powerOnStart => false
  | .conventionalResetStart => false
  | .startTimeout => false
  | .woveLinkUp _ => false
  | .woveLinkDown _ => false
  | .powerLoss => false
  | .hostSnoop => false

/-- Whether the constructor is an instruction of a slot; the others are steps of the device. -/
def isSlot : Instr → Bool
  | .add _ _ _ => true
  | .sub _ _ _ => true
  | .and _ _ _ => true
  | .or _ _ _ => true
  | .xor _ _ _ => true
  | .andn _ _ _ => true
  | .shl _ _ _ => true
  | .shr _ _ _ => true
  | .sra _ _ _ => true
  | .rol _ _ _ => true
  | .min _ _ _ => true
  | .max _ _ _ => true
  | .minn _ _ _ => true
  | .maxn _ _ _ => true
  | .clz _ _ => true
  | .ctz _ _ => true
  | .popc _ _ => true
  | .sext _ _ _ => true
  | .zext _ _ _ => true
  | .cmp _ _ _ _ => true
  | .pand _ _ _ => true
  | .por _ _ _ => true
  | .pnot _ _ => true
  | .sel _ _ _ _ => true
  | .nop => true
  | .mul _ _ _ => true
  | .mulh _ _ _ => true
  | .mulhn _ _ _ => true
  | .div _ _ _ => true
  | .divn _ _ _ => true
  | .rem _ _ _ => true
  | .remn _ _ _ => true
  | .addi _ _ _ => true
  | .andi _ _ _ => true
  | .ori _ _ _ => true
  | .xori _ _ _ => true
  | .shli _ _ _ => true
  | .shri _ _ _ => true
  | .srai _ _ _ => true
  | .cmpi _ _ _ _ => true
  | .movi _ _ => true
  | .lui _ _ => true
  | .addpc _ _ => true
  | .amov _ _ => true
  | .aadd _ _ _ => true
  | .ainc _ _ => true
  | .amod _ _ => true
  | .aget _ _ _ => true
  | .aaddi _ _ _ => true
  | .vadd _ _ _ _ _ _ => true
  | .vsub _ _ _ _ _ _ => true
  | .vmul _ _ _ _ _ _ => true
  | .vfma _ _ _ _ _ _ => true
  | .vfms _ _ _ _ _ _ => true
  | .vmin _ _ _ _ _ => true
  | .vmax _ _ _ _ _ => true
  | .vcmp _ _ _ _ _ _ => true
  | .vabs _ _ _ _ => true
  | .vneg _ _ _ _ => true
  | .vsel _ _ _ _ _ _ => true
  | .vrnd _ _ _ _ _ => true
  | .vexp2 _ _ _ _ _ => true
  | .vlog2 _ _ _ _ _ => true
  | .vrcp _ _ _ _ _ => true
  | .vrsq _ _ _ _ _ => true
  | .vsig _ _ _ _ _ => true
  | .vtanh _ _ _ _ _ => true
  | .vredsum _ _ _ _ _ _ => true
  | .vredmax _ _ _ _ _ => true
  | .vredmin _ _ _ _ _ => true
  | .vcvtFp _ _ _ _ _ _ => true
  | .vcvtInt _ _ _ _ _ _ _ => true
  | .viadd _ _ _ _ _ => true
  | .visub _ _ _ _ _ => true
  | .vimul _ _ _ _ _ => true
  | .vidot _ _ _ _ _ => true
  | .vimin _ _ _ _ _ => true
  | .vimax _ _ _ _ _ => true
  | .vshl _ _ _ _ _ _ _ => true
  | .vshr _ _ _ _ _ _ _ => true
  | .vsra _ _ _ _ _ _ _ => true
  | .vand _ _ _ _ _ => true
  | .vor _ _ _ _ _ => true
  | .vxor _ _ _ _ _ => true
  | .vperm _ _ _ _ _ => true
  | .vbcast _ _ _ _ _ _ => true
  | .vzip _ _ _ _ _ => true
  | .vunzip _ _ _ _ _ => true
  | .vslide _ _ _ _ _ _ => true
  | .viota _ _ _ _ => true
  | .vext _ _ _ _ _ _ => true
  | .vins _ _ _ _ _ => true
  | .vwidenX2 _ _ _ _ => true
  | .vwidenX4 _ _ _ _ => true
  | .vnarrowD2 _ _ _ _ => true
  | .vnarrowD4 _ _ _ _ => true
  | .vhusk _ _ _ _ _ _ _ _ => true
  | .vpack _ _ _ _ _ => true
  | .vunpack _ _ _ => true
  | .vlaid _ _ _ _ _ _ => true
  | .vqnt _ _ _ _ _ _ _ _ _ => true
  | .mand _ _ _ _ => true
  | .mor _ _ _ _ => true
  | .mnot _ _ _ => true
  | .mpop _ _ _ => true
  | .ttype _ _ => true
  | .tgett _ _ _ => true
  | .tbind _ _ => true
  | .tbindU _ _ => true
  | .tfree _ => true
  | .tfreeDv _ => true
  | .tresh _ _ _ => true
  | .ttrans _ _ _ => true
  | .tcast _ _ _ _ _ _ _ => true
  | .tzero _ => true
  | .texp _ _ _ _ => true
  | .tmov _ _ => true
  | .lacq _ => true
  | .lrel => true
  | .pldb _ _ _ _ _ _ => true
  | .pldbSp _ _ => true
  | .plaid _ _ _ _ => true
  | .pmma _ _ _ _ => true
  | .pmmz _ _ _ _ => true
  | .pclr _ => true
  | .ptsc _ _ => true
  | .pdrn _ _ _ _ _ => true
  | .cbld _ _ _ => true
  | .cbldPt _ _ _ _ => true
  | .kld _ _ _ => true
  | .lwset _ _ _ => true
  | .lwstep _ _ _ => true
  | .ltmma _ _ _ _ => true
  | .ltdrn _ _ _ _ => true
  | .vtenc _ _ _ => true
  | .rep _ _ _ _ => true
  | .ldb _ _ _ => true
  | .ldh _ _ _ => true
  | .ldw _ _ _ => true
  | .ldd _ _ _ => true
  | .stb _ _ _ => true
  | .sth _ _ _ => true
  | .stw _ _ _ => true
  | .std _ _ _ => true
  | .vld _ _ _ => true
  | .vst _ _ _ => true
  | .tld _ _ _ => true
  | .tst _ _ _ => true
  | .flrd _ _ _ => true
  | .vlds _ _ _ => true
  | .vsts _ _ _ => true
  | .vgth _ _ _ _ => true
  | .vsct _ _ _ _ => true
  | .dkput _ _ _ => true
  | .dkputSp _ _ => true
  | .dktake _ _ _ => true
  | .dktakeSp _ _ => true
  | .cpy _ _ _ => true
  | .cpyu _ _ _ => true
  | .cpyw _ _ _ => true
  | .satom _ _ _ _ _ => true
  | .gatom _ _ _ _ _ => true
  | .fence _ => true
  | .binit _ _ => true
  | .bsig _ _ _ _ => true
  | .bwait _ _ _ => true
  | .fsend _ _ _ => true
  | .fred _ => true
  | .qcnt _ _ => true
  | .bxfm _ _ _ _ => true
  | .migr _ => true
  | .jmp _ => true
  | .call _ => true
  | .br _ _ => true
  | .brp _ _ _ => true
  | .callr _ _ => true
  | .ret _ => true
  | .loop _ _ => true
  | .loops _ _ => true
  | .lidx _ _ _ => true
  | .waitt _ => true
  | .waittAbs _ => true
  | .bnd => true
  | .exit => true
  | .launch _ _ _ => true
  | .graph _ _ _ => true
  | .ccwait _ _ _ => true
  | .ccrd _ _ => true
  | .cancel _ _ => true
  | .hsig _ _ => true
  | .trap _ => true
  | .brk _ => true
  | .rth _ => true
  | .mfsr _ _ => true
  | .mtsr _ _ => true
  | .ctxsw _ _ _ => true
  | .ctxst _ _ _ => true
  | .ctxld _ _ _ => true
  | .tlbinv _ _ _ => true
  | .shoot _ _ _ _ => true
  | .monrd _ _ => true
  | .attest _ _ _ => true
  | .errpop _ _ _ => true
  | .haltc _ _ _ => true
  | .issueBundle _ => false
  | .earlyCommitResume _ => false
  | .holdEnd _ => false
  | .holdTimeout _ => false
  | .resultLanding _ => false
  | .repReissue _ => false
  | .leaseEnd _ => false
  | .commitEntryEnqueue _ => false
  | .reamAdvance _ => false
  | .commitSignalPhase _ => false
  | .commitCompletionPhase _ => false
  | .handlerIssueBundle _ => false
  | .timelinePosition _ => false
  | .drainStall _ _ => false
  | .webLineArrival _ => false
  | .untimedCopyLine _ => false
  | .untimedCopyComplete _ => false
  | .barrierSignalDelivery _ => false
  | .vtencService _ => false
  | .vtencComplete _ => false
  | .fredContributionArrival _ => false
  | .fredComplete _ => false
  | .fredTimeout _ => false
  | .fredHeldExpiry _ => false
  | .woveFrameReceive _ => false
  | .peerAccessRequest _ => false
  | .queueEntryEnter _ _ => false
  | .hostMessageQueueWrite _ _ => false
  | .cxlMemWrite _ _ _ => false
  | .cxlMemRead _ => false
  | .cxlUnsupportedRequest => false
  | .mgmtRegisterWrite _ _ => false
  | .jobPortWrite _ => false
  | .apfenceRead => false
  | .vatcfgWrite _ => false
  | .timelineWordWrite _ _ _ => false
  | .tlctlWrite _ _ => false
  | .asctlWrite _ _ _ => false
  | .measextWrite _ => false
  | .errptrHeadWrite _ => false
  | .requeueWrite _ => false
  | .haltctlReq _ => false
  | .haltctlGo _ => false
  | .haltctlStep _ => false
  | .dbgdataWrite _ => false
  | .clkctlWrite _ => false
  | .clockChangeComplete => false
  | .cfgctlCommit _ => false
  | .cfgCommitComplete => false
  | .seedctlRetry => false
  | .seedctlGenkey => false
  | .shootreqWrite _ => false
  | .spdmRequest _ => false
  | .graphAdmit => false
  | .vatPlacement _ => false
  | .vatReservation _ => false
  | .contextStreamComplete _ => false
  | .vatSwitchActive _ => false
  | .shootdownStart => false
  | .shootdownAck _ => false
  | .shootdownComplete => false
  | .migrPage _ => false
  | .migrComplete _ => false
  | .ctxImageComplete _ => false
  | .attestComplete => false
  | .monitorSample => false
  | .powerOnStart => false
  | .conventionalResetStart => false
  | .startTimeout => false
  | .woveLinkUp _ => false
  | .woveLinkDown _ => false
  | .powerLoss => false
  | .hostSnoop => false
/-- The instruction in a slot word (bits [29:0] of `w`) followed by the extension `x` where its X bit is 1, or the
lowest reason code that applies (R57). -/
def decodeSlot (w : Nat) (x : Option Nat) : Except Nat Instr := do
  let i ← extract w x
  if slotWord i ≠ w % 2 ^ 30 then .error 4
  else if takesExt i ∧ (slotExt i).getD 0 ≠ extOr0 x then .error 4
  else if ¬ i.wf then .error 4
  else if x.isSome ∧ ¬ takesExt i then .error 5
  else .ok i

/-- The words of an instruction with S = 0: the slot word, and its extension where it has one (R38, R60). -/
def encode (i : Instr) : List Word :=
  if isSlot i then
    match slotExt i with
    | none => [BitVec.ofNat 32 (slotWord i)]
    | some e => [BitVec.ofNat 32 (slotWord i + 2 ^ 30), BitVec.ofNat 32 e]
  else []

/-- The slot classes of R42, in the order of the class codes of a bundle-format record (R380). -/
inductive SlotClass where
  | scalar | address | vector | tile | memory | control | system
deriving DecidableEq, Repr

/-- The class code of a bundle-format record (R380). -/
def SlotClass.code : SlotClass → Nat
  | .scalar => 0
  | .address => 1
  | .vector => 2
  | .tile => 3
  | .memory => 4
  | .control => 5
  | .system => 6

/-- The most slots of a class in one bundle (R42). -/
def SlotClass.limit : SlotClass → Nat
  | .scalar => 2
  | .address => 2
  | .vector => 2
  | .tile => 1
  | .memory => 2
  | .control => 1
  | .system => 1

/-- The class of a slot word: by its major; none for NOP, a reserved major and major 0x3F; REP is a control slot
(R42). -/
def slotClass (w : Nat) : Option SlotClass :=
  let m := bitField w 24 6
  let minor := bitField w 0 6
  if m = 0x00 then (if minor = 0x3F then none else some .scalar)
  else if m = 0x0B then none
  else if m ≤ 0x0F then some .scalar
  else if m ≤ 0x11 then some .address
  else if m ≤ 0x13 then none
  else if m ≤ 0x17 then some .scalar
  else if m ≤ 0x22 then some .vector
  else if m ≤ 0x27 then none
  else if m = 0x28 then some .tile
  else if m = 0x29 then (if minor = 0x10 then some .control else some .tile)
  else if m ≤ 0x2F then none
  else if m ≤ 0x31 then some .memory
  else if m ≤ 0x37 then none
  else if m ≤ 0x3C then some .control
  else if m = 0x3E then some .system
  else none

/-- A slot of a bundle as DecodeBundle finds it: its index, its word, and its extension. -/
structure RawSlot where
  ix : Nat
  word : Nat
  ext : Option Nat
deriving DecidableEq, Repr

/-- What DecodeBundle finds (R55): the bundle's slot count, template and instruction slots, or a bundle-format fault
with its code, the template so far, and the class code of a class-limit fault. -/
inductive Scan where
  | bundle (nslots : Nat) (template : Nat) (slots : List RawSlot)
  | bad (code : Nat) (template : Nat) (cls : Nat)
deriving DecidableEq, Repr

/-- How many slots among `l` are of class `c`. -/
def countClass (c : SlotClass) : List RawSlot → Nat
  | [] => 0
  | s :: t => (if slotClass s.word = some c then 1 else 0) + countClass c t

/-- CheckClassLimits: the class of the first slot, in slot order, at which its class's count passes its limit; `seen`
are the slots before (R56). -/
def overLimit (seen : List RawSlot) : List RawSlot → Option SlotClass
  | [] => none
  | s :: t =>
    match slotClass s.word with
    | none => overLimit (s :: seen) t
    | some c => if countClass c (s :: seen) > c.limit then some c else overLimit (s :: seen) t

/-- The end of a bundle that stops at slot `i` (R55). -/
def closeBundle (i template : Nat) (slots : List RawSlot) : Scan :=
  if i < 3 then .bad 2 template 0
  else
    match overLimit [] slots with
    | some c => .bad 1 template c.code
    | none => .bundle (i + 1) template slots

/-- DecodeBundle from slot `i` on, its words taken one by one from `fetch`, whose failure (a fetch event, R58) comes
before everything else; `fuel` is the number of slots left and `slots` those found, last first (R55). -/
def scanFrom {ε : Type} (fetch : Nat → Except ε Nat) : Nat → Nat → Nat → List RawSlot → Except ε Scan
  | 0, _, template, _ => .ok (.bad 3 template 0)
  | fuel + 1, i, template, slots => do
    if i ≥ 8 then .ok (.bad 3 template 0)
    else
      let w ← fetch i
      if bitAt w 30 then
        if bitAt w 31 then .ok (.bad 4 template 0)
        else if i + 1 ≥ 8 then .ok (.bad 3 template 0)
        else
          let e ← fetch (i + 1)
          let slots' := slots ++ [{ ix := i, word := w, ext := some (e % 2 ^ 31) }]
          let template' := template + 2 ^ (i + 1)
          if bitAt e 31 then .ok (closeBundle (i + 1) template' slots')
          else scanFrom fetch fuel (i + 2) template' slots'
      else
        let slots' := slots ++ [{ ix := i, word := w, ext := none }]
        if bitAt w 31 then .ok (closeBundle i template slots')
        else scanFrom fetch fuel (i + 1) template slots'

/-- DecodeBundle (R55) over the words that `fetch` gives for the slots 0 to 7 of a bundle. -/
def scanBundle {ε : Type} (fetch : Nat → Except ε Nat) : Except ε Scan := scanFrom fetch 8 0 0 []

/-- An instruction of a bundle with its slot index. -/
structure Slot where
  ix : Nat
  instr : Instr
deriving DecidableEq, Repr

/-- An illegal instruction's slot index, word and reason code (R57). -/
structure Illegal where
  ix : Nat
  word : Nat
  reason : Nat
deriving DecidableEq, Repr

/-- The instructions of a bundle's slots, or the lowest slot that is illegal (R57). -/
def decodeSlots : List RawSlot → Except Illegal (List Slot)
  | [] => .ok []
  | s :: t =>
    match decodeSlot s.word s.ext with
    | .error r => .error { ix := s.ix, word := s.word, reason := r }
    | .ok i =>
      match decodeSlots t with
      | .error b => .error b
      | .ok r => .ok ({ ix := s.ix, instr := i } :: r)

/-- What the decoder reads from a slot whose bits are `w`, the extension in the next word where X is 1. The step rows
of the table have no bits and no word. -/
def decodeTableWord (nbits w : Nat) : Option Instr :=
  if nbits = 0 then none
  else
    match decodeSlot (w % 2 ^ 32) (if bitAt w 30 then some (w / 2 ^ 32 % 2 ^ 31) else none) with
    | .ok i => some i
    | .error _ => none

end Sys2Proof
end

