-- ==== Sys2Proof/Machine/Bits.lean ====
section
/-! DEFINITION. Bit fields, byte order, sign extension and the elements of wide registers (R6, R32). Wide values are
handled as natural numbers; element `i` of width `w` occupies bits `[w*i + w - 1 : w*i]`, and bytes are little-endian. -/

namespace Sys2Proof.Machine

/-- The signed reading of the low `w` bits of `n`. -/
def signedOf (w n : Nat) : Int :=
  let m := n % 2 ^ w
  if m < 2 ^ (w - 1) then (m : Int) else (m : Int) - (2 ^ w : Nat)

/-- The `w`-bit two's complement code of an integer. -/
def codeOfInt (w : Nat) (x : Int) : Nat := (x % (2 ^ w : Nat)).toNat

/-- Element `i` of width `w` of a wide value. -/
def elemAt (w n i : Nat) : Nat := bitField n (w * i) w

/-- Elements `i`, `i + 1`, … of width `w`, `count` of them. -/
def elemsFrom (w n i : Nat) : Nat → List Nat
  | 0 => []
  | k + 1 => elemAt w n i :: elemsFrom w n (i + 1) k

/-- The first `count` elements of width `w`. -/
def elems (w count n : Nat) : List Nat := elemsFrom w n 0 count

/-- The wide value of a list of elements of width `w`, element 0 first. -/
def ofElems (w : Nat) : List Nat → Nat
  | [] => 0
  | v :: t => v % 2 ^ w + 2 ^ w * ofElems w t

/-- The wide value with bits `[lo + n - 1 : lo]` replaced by the low `n` bits of `v`. -/
def setField (x lo n v : Nat) : Nat := x - bitField x lo n * 2 ^ lo + v % 2 ^ n * 2 ^ lo

/-- The bytes of a value, least significant first. -/
def bytesOf (n x : Nat) : List Byte := (elems 8 n x).map (BitVec.ofNat 8)

/-- The value of little-endian bytes. -/
def ofBytes : List Byte → Nat
  | [] => 0
  | b :: t => b.toNat + 256 * ofBytes t

/-- A 64-bit register value of an integer. -/
def dblOfInt (x : Int) : Dbl := BitVec.ofInt 64 x

/-- A double of a natural number, modulo 2^64. -/
def dbl (n : Nat) : Dbl := BitVec.ofNat 64 n

/-- A word of a natural number, modulo 2^32. -/
def word (n : Nat) : Word := BitVec.ofNat 32 n

/-- A Boolean as a double. -/
def dblOfBool (b : Bool) : Dbl := if b then 1 else 0

/-- The natural numbers from `lo` up, `n` of them. -/
def rangeFrom (lo : Nat) : Nat → List Nat
  | 0 => []
  | n + 1 => lo :: rangeFrom (lo + 1) n

/-- The quotient rounded up. -/
def ceilDiv (a b : Nat) : Nat := (a + b - 1) / b

/-- The number of one bits of an `n`-bit value. -/
def popCount (x : Nat) : Nat → Nat
  | 0 => 0
  | n + 1 => bitField x n 1 + popCount x n

/-- The `i`-th entry of a list of naturals, zero past its end. -/
def nth (l : List Nat) (i : Nat) : Nat := l.getD i 0

/-- Element `i` of the vector data, by width. -/
def velem (w : Nat) (v : VData) (i : Nat) : Nat := elemAt w v.toNat i

/-- Vector data from its elements. -/
def vdata (w : Nat) (l : List Nat) : VData := BitVec.ofNat 4096 (ofElems w l)

/-- The elements of vector data. -/
def velems (w : Nat) (v : VData) : List Nat := elems w (4096 / w) v.toNat

/-- Line `i` of vector data. -/
def vline (v : VData) (i : Nat) : Line := BitVec.ofNat 512 (elemAt 512 v.toNat i)

/-- The bytes of a line. -/
def lineBytes (l : Line) : List Byte := bytesOf 64 l.toNat

/-- A line from its bytes. -/
def lineOf (l : List Byte) : Line := BitVec.ofNat 512 (ofBytes l)

/-- A text of a message, as bytes. -/
def asciiBytes (s : String) : List Byte := s.toList.map (fun c => BitVec.ofNat 8 c.toNat)

end Sys2Proof.Machine
end

