-- ==== Sys2Proof/Machine/Formats.lean ====
section
/-! DEFINITION. The number formats (R66 to R76, R80) as exact values. `Exact` is the exact result of an operation: a
signed infinity, NaN, a signed zero, or a non-zero real. -/

namespace Sys2Proof.Machine

/-- An exact value. `fin neg n e sticky` with `n > 0` is the real `± n * 2^e` when `sticky` is false, and some real of
magnitude strictly between `n * 2^e` and `(n + 1) * 2^e` when it is true. -/
inductive Exact where
  | nan
  | inf (neg : Bool)
  | zero (neg : Bool)
  | fin (neg : Bool) (n : Nat) (e : Int) (sticky : Bool)
deriving DecidableEq, Repr

/-- The parameters of a floating-point format (R66): exponent bits, significand bits, bias, the codes of the largest
finite value, and of infinity and the canonical NaN where the format has them. -/
structure FmtInfo where
  e : Nat
  m : Nat
  bias : Nat
  maxCode : Nat
  infCode : Option Nat
  nanCode : Option Nat
deriving DecidableEq, Repr

/-- The table of R66. -/
def fmtInfo : FloatFmt → FmtInfo
  | .fp32 => { e := 8, m := 23, bias := 127, maxCode := 0x7F7FFFFF, infCode := some 0x7F800000, nanCode := some 0x7FC00000 }
  | .bf16 => { e := 8, m := 7, bias := 127, maxCode := 0x7F7F, infCode := some 0x7F80, nanCode := some 0x7FC0 }
  | .fp16 => { e := 5, m := 10, bias := 15, maxCode := 0x7BFF, infCode := some 0x7C00, nanCode := some 0x7E00 }
  | .e4m3 => { e := 4, m := 3, bias := 7, maxCode := 0x7E, infCode := none, nanCode := some 0x7F }
  | .e5m2 => { e := 5, m := 2, bias := 15, maxCode := 0x7B, infCode := some 0x7C, nanCode := some 0x7E }
  | .e2m3 => { e := 2, m := 3, bias := 1, maxCode := 0x1F, infCode := none, nanCode := none }
  | .e3m2 => { e := 3, m := 2, bias := 3, maxCode := 0x1F, infCode := none, nanCode := none }
  | .e2m1 => { e := 2, m := 1, bias := 1, maxCode := 0x7, infCode := none, nanCode := none }

/-- The width of a format's codes. -/
def FmtInfo.w (f : FmtInfo) : Nat := 1 + f.e + f.m

/-- The format as one of R66. -/
def fpFloat : FpFmt → FloatFmt
  | .fp32 => .fp32
  | .bf16 => .bf16
  | .fp16 => .fp16

/-- DecodeFloat (R66). -/
def decodeFloat (f : FloatFmt) (c : Nat) : Exact :=
  let i := fmtInfo f
  let s := bitAt c (i.w - 1)
  let mag := bitField c 0 (i.w - 1)
  let e := bitField c i.m i.e
  let m := bitField c 0 i.m
  if i.infCode = some mag then .inf s
  else if mag > i.maxCode then .nan
  else if mag = 0 then .zero s
  else if e = 0 then .fin s m (1 - (i.bias : Int) - i.m) false
  else .fin s (2 ^ i.m + m) ((e : Int) - i.bias - i.m) false

/-- The exact value of an integer. -/
def exactOfInt (x : Int) : Exact := if x = 0 then .zero false else .fin (decide (x < 0)) x.natAbs 0 false

/-- The negation of a value; NaN has no sign. -/
def Exact.neg : Exact → Exact
  | .nan => .nan
  | .inf s => .inf (!s)
  | .zero s => .zero (!s)
  | .fin s n e k => .fin (!s) n e k

/-- The magnitude of a value. -/
def Exact.abs : Exact → Exact
  | .nan => .nan
  | .inf _ => .inf false
  | .zero _ => .zero false
  | .fin _ n e k => .fin false n e k

/-- The sign of a value. -/
def Exact.isNeg : Exact → Bool
  | .nan => false
  | .inf s => s
  | .zero s => s
  | .fin s _ _ _ => s

/-- Whether a value is a zero. -/
def Exact.isZero : Exact → Bool
  | .zero _ => true
  | _ => false

/-- Whether a value is an infinity. -/
def Exact.isInf : Exact → Bool
  | .inf _ => true
  | _ => false

/-- Whether a value is a finite real, zero or not. -/
def Exact.isFinite : Exact → Bool
  | .zero _ => true
  | .fin _ _ _ _ => true
  | _ => false

/-- The exact product: NaN of a NaN or of zero times infinity. -/
def Exact.mul : Exact → Exact → Exact
  | .nan, _ => .nan
  | _, .nan => .nan
  | .inf _, .zero _ => .nan
  | .zero _, .inf _ => .nan
  | .inf s, y => .inf (s != y.isNeg)
  | x, .inf s => .inf (s != x.isNeg)
  | .zero s, y => .zero (s != y.isNeg)
  | x, .zero s => .zero (s != x.isNeg)
  | .fin s n e _, .fin t m f _ => .fin (s != t) (n * m) (e + f) false

/-- A signed multiple of a power of two as a value; `z` is the sign a zero takes. -/
def exactOfScaled (z : Bool) (x : Int) (e : Int) : Exact :=
  if x = 0 then .zero z else .fin (decide (x < 0)) x.natAbs e false

/-- The signed integer `± n`. -/
def signInt (s : Bool) (n : Nat) : Int := if s then -(n : Int) else n

/-- The exact sum. A sum of zeros, or of opposite values, has the sign IEEE 754 gives it under round to nearest:
negative when both operands are negative zeros. -/
def Exact.add : Exact → Exact → Exact
  | .nan, _ => .nan
  | _, .nan => .nan
  | .inf s, .inf t => if s = t then .inf s else .nan
  | .inf s, _ => .inf s
  | _, .inf t => .inf t
  | .zero s, .zero t => .zero (s && t)
  | .zero _, y => y
  | x, .zero _ => x
  | .fin s n e _, .fin t m f _ =>
    let g := if e ≤ f then e else f
    exactOfScaled false (signInt s (n * 2 ^ (e - g).toNat) + signInt t (m * 2 ^ (f - g).toNat)) g

/-- The exact difference. -/
def Exact.sub (x y : Exact) : Exact := x.add y.neg

/-- A finite value times a power of two. -/
def Exact.scale (x : Exact) (k : Int) : Exact :=
  match x with
  | .fin s n e t => .fin s n (e + k) t
  | y => y

/-- The order of two values that are not NaN: −1, 0 or 1; the zeros are equal. -/
def Exact.cmp (x y : Exact) : Int :=
  match x, y with
  | .inf s, .inf t => if s = t then 0 else if s then -1 else 1
  | .inf s, _ => if s then -1 else 1
  | _, .inf t => if t then 1 else -1
  | x, y =>
    match x.sub y with
    | .fin s _ _ _ => if s then -1 else 1
    | _ => 0

/-- Floor(Log2(|x|)) of a finite non-zero value. -/
def Exact.log2 : Exact → Int
  | .fin _ n e _ => (Nat.log2 n : Int) + e
  | _ => 0

/-- The value of an E8M0 scale times `x` (R69, R70): NaN for scale 0xFF, an infinity kept. -/
def mxScale (s : Nat) (x : Exact) : Exact := if s = 0xFF then .nan else x.scale ((s : Int) - 127)

/-! ## Format codes of the type word (R90) -/

/-- The width in bits of a format code; zero for laid and the reserved codes. -/
def fmtWidth (f : Nat) : Nat :=
  if f = 0 then 32
  else if f ≤ 2 then 16
  else if f ≤ 4 then 8
  else if f ≤ 6 then 6
  else if f ≤ 8 then 4
  else if f = 9 then 0
  else if f = 10 then 8
  else if f = 11 ∨ f = 15 then 4
  else if f = 12 ∨ f = 16 then 8
  else if f = 13 ∨ f = 17 then 16
  else if f = 14 ∨ f = 18 then 32
  else 0

/-- The width an element takes in a byte-held row: a 6-bit element takes a byte (R68). -/
def heldWidth (f : Nat) : Nat := if fmtWidth f = 6 then 8 else fmtWidth f

/-- The floating-point format of a format code from 0 to 7. -/
def floatOfCode (f : Nat) : FloatFmt :=
  if f = 0 then .fp32
  else if f = 1 then .bf16
  else if f = 2 then .fp16
  else if f = 3 then .e4m3
  else if f = 4 then .e5m2
  else if f = 5 then .e2m3
  else if f = 6 then .e3m2
  else .e2m1

/-- Whether a format code is one of the signed integer formats. -/
def fmtSigned (f : Nat) : Bool := 11 ≤ f && f ≤ 14

/-- Whether a format code is an integer format. -/
def fmtInt (f : Nat) : Bool := 11 ≤ f && f ≤ 18

/-- Entry `c` of a codebook register (R73). -/
def cbEntry (cb : BitVec 256) (c : Nat) : Exact := decodeFloat .bf16 (elemAt 16 cb.toNat c)

/-- The E2M1 codebook (R74). -/
def e2m1Codebook : BitVec 256 :=
  BitVec.ofNat 256 (ofElems 16
    [0x0000, 0x3F00, 0x3F80, 0x3FC0, 0x4000, 0x4040, 0x4080, 0x40C0,
     0x8000, 0xBF00, 0xBF80, 0xBFC0, 0xC000, 0xC040, 0xC080, 0xC0C0])

/-- The exact value of an element code of format code `f`; `cb` is the codebook of a CB4 element. E8M0 codes are the
powers of two of R69. -/
def decodeElem (f : Nat) (cb : BitVec 256) (c : Nat) : Exact :=
  if f ≤ 7 then decodeFloat (floatOfCode f) c
  else if f = 8 then cbEntry cb c
  else if f = 10 then (if c = 0xFF then .nan else .fin false 1 ((c : Int) - 127) false)
  else if fmtSigned f then exactOfInt (signedOf (fmtWidth f) c)
  else exactOfInt (c : Int)

/-! ## Laid weights (R77 to R80) -/

/-- Signed7 (R79). -/
def signed7 (f : Nat) : Int := if f ≥ 64 then (f : Int) - 128 else f

/-- LaidValue (R79). -/
def laidValue (w mixm mixc : Nat) : Int :=
  let x := (w * mixm + mixc) % 2 ^ 32
  signed7 (bitField x 0 7) + signed7 (bitField x 7 7) + signed7 (bitField x 14 7) + signed7 (bitField x 21 7)

/-- Window(i) of a segment of `total` bits held in `seg` (R78): `len` bits from bit `pos`, wrapping. -/
def laidWindow (seg total pos : Nat) : Nat → Nat
  | 0 => 0
  | n + 1 => bitField seg (pos % total) 1 + 2 * laidWindow seg total (pos + 1) n

/-- The exact value of a laid weight with group scale `g` (R80). -/
def laidWeight (v : Int) (g : Nat) : Exact := if g = 0xFF then .nan else (exactOfInt v).scale ((g : Int) - 127)

end Sys2Proof.Machine
end

