-- ==== Sys2Proof/Machine/Assoc.lean ====
section
/-! DEFINITION. Sparse stores: finite maps from natural numbers kept as lists in one canonical form (keys strictly
rising, no entry equal to what an unlisted key reads as), and memories of bytes, which are such maps over
`Host.Cell`. Every keyed part of the state is one of these, so equal stores are equal data. -/

namespace Sys2Proof.Machine

/-- A sparse map: the listed keys with their values. What an unlisted key reads as is an argument of each operation. -/
abbrev Assoc (α : Type) := List (Nat × α)

/-- The value at a key; `d` at an unlisted key. -/
def Assoc.get {α : Type} (d : α) : Assoc α → Nat → α
  | [], _ => d
  | (k, v) :: t, i => if k = i then v else Assoc.get d t i

/-- Entry `(i, v)` put at its place among rising keys, in place of the entry that `i` had. -/
def Assoc.insert {α : Type} (i : Nat) (v : α) : Assoc α → Assoc α
  | [] => [(i, v)]
  | (k, w) :: t => if i < k then (i, v) :: (k, w) :: t else if i = k then (i, v) :: t else (k, w) :: Assoc.insert i v t

/-- The map without the entry at `i`. -/
def Assoc.erase {α : Type} (i : Nat) : Assoc α → Assoc α
  | [] => []
  | (k, w) :: t => if k = i then Assoc.erase i t else (k, w) :: Assoc.erase i t

/-- The map with `v` at `i`; writing what an unlisted key reads as removes the entry. -/
def Assoc.set {α : Type} [DecidableEq α] (d : α) (m : Assoc α) (i : Nat) (v : α) : Assoc α :=
  if v = d then Assoc.erase i m else Assoc.insert i v m

/-- Every key of the map is at least `lo`, the keys rise strictly, and no value is `d`. -/
def Assoc.wfFrom {α : Type} [DecidableEq α] (d : α) (lo : Nat) : Assoc α → Bool
  | [] => true
  | (k, v) :: t => decide (lo ≤ k) && !decide (v = d) && Assoc.wfFrom d (k + 1) t

/-- The canonical form. -/
def Assoc.wf {α : Type} [DecidableEq α] (d : α) (m : Assoc α) : Bool := Assoc.wfFrom d 0 m

/-- A memory: cells of address and byte in canonical form. -/
abbrev Memory := List Host.Cell

/-- What a byte of memory that nothing has written reads as: the start sequence clears every SRAM and writes every
DRAM line as zeros (R407); of host memory the spec says nothing (DESIGN CHOICE, log entry 3). -/
def Memory.unlisted : Byte := 0

/-- One byte of memory. -/
def Memory.read (m : Memory) (i : Nat) : Byte := Assoc.get Memory.unlisted m i

/-- The memory with byte `v` at `i`. -/
def Memory.write (m : Memory) (i : Nat) (v : Byte) : Memory := Assoc.set Memory.unlisted m i v

/-- The canonical form of a memory: rising addresses, and no cell that holds what an unlisted address reads as. -/
def Memory.wf (m : Memory) : Bool := Assoc.wf Memory.unlisted m

/-- The `n` bytes from `a` up. -/
def Memory.readBytes (m : Memory) (a : Nat) : Nat → List Byte
  | 0 => []
  | n + 1 => Memory.read m a :: Memory.readBytes m (a + 1) n

/-- The bytes `l` written from `a` up. -/
def Memory.writeBytes (m : Memory) (a : Nat) : List Byte → Memory
  | [] => m
  | b :: t => Memory.writeBytes (Memory.write m a b) (a + 1) t

end Sys2Proof.Machine
end

