-- ==== Sys2Proof/Machine/State.lean ====
section
/-! DEFINITION. The state of the whole module as plain data: the registers and in-flight results of every context, the
scratchpads, accumulators, presses, felts and deckles, the copy engines, the vat, the timelines and memories, the
links, the management registers and the error log. The last fields of `Device` are the model's
own: the numbers of its commands, the issue in progress, and the counter of free values. -/

namespace Sys2Proof.Machine

/-- Why a step stops with a fault. -/
inductive Fault where
  /-- Raised by the meaning of a slot instruction when the issuing context of the state holds no resident context, so
  there is nothing for the instruction to act on. No run issues an instruction so; safe. -/
  | noContext
deriving DecidableEq, Repr

/-- Why a step is refused. -/
inductive Refusal where
  /-- Raised by the dispatch for an instruction the model has no meaning for; safe. -/
  | notModelled (mnemonic : String)
deriving DecidableEq, Repr

/-! ## Registers of a context (R29) -/

/-- An address register: ADDR, INC and WRAP (R29, R123). -/
structure AReg where
  addr : Word
  inc : Word
  wrap : Word
deriving DecidableEq, Repr

/-- A tile register: its data, type word and sequence tag (R34). -/
structure TileReg where
  data : TData
  typ : Dbl
  tag : Byte
deriving DecidableEq, Repr

/-- A dimension variable (R143). -/
inductive DimVar where
  | unbound
  | bound (v : BitVec 16)
  | aliased (d : DNum)
deriving DecidableEq, Repr

/-- An entry of the hardware loop stack (R309). -/
structure LoopEntry where
  start : Nat
  stop : Nat
  left : Nat
  ix : Word
deriving DecidableEq, Repr

/-- The registers of a resident context (R29, R37); `loops` is the loop stack, bottom entry first. -/
structure Regs where
  s : Vector Dbl 64
  a : Vector AReg 16
  p : Vector Bool 8
  v : Vector VData 64
  m : Vector MData 8
  t : Vector TileReg 16
  dv : Vector DimVar 16
  k : Vector Line 8
  cb : Vector (BitVec 256) 4
  lw : Vector (BitVec 192) 8
  loops : List LoopEntry
  fctl : Word
  fstat : Word
  hkey : Dbl
  mmrev : Word
deriving DecidableEq, Repr

/-- The write of a register, or of the bytes of one, that a result makes when it lands; each names its place by
R35. `len` counts bytes. `hs` and `hp` are the handler context's own registers (R387). -/
inductive RegWrite where
  | s (r : SReg) (v : Dbl)
  | aAddr (r : ANum) (v : Word)
  | aInc (r : ANum) (v : Word)
  | aWrap (r : ANum) (v : Word)
  | p (r : PNum) (b : Bool)
  | v (r : VNum) (lo len : Nat) (d : VData)
  | m (r : MNum) (d : MData)
  | tdata (r : TNum) (d : TData)
  | ttype (r : TNum) (w : Dbl) (tag : Option Byte)
  | dv (r : DNum)
  | k (r : KNum) (lo len : Nat) (d : Line)
  | cb (r : CbNum) (d : BitVec 256)
  | lw (r : LwNum) (d : BitVec 192)
  | lwBoff (r : LwNum) (v : BitVec 26)
  | fctl (v : Word)
  | fstat (v : Word)
  | hkey (v : Dbl)
  | mmrev (v : Word)
  | hs (r : Fin 16) (v : Dbl)
  | hp (r : PNum) (b : Bool)
deriving DecidableEq, Repr

/-- An event to report: its code, reason and fields (R380), and the slot that raised it. -/
structure Ev where
  code : Nat
  reason : Nat
  i0 : Nat
  i1 : Nat
  i2 : Nat
  i3 : Nat
  aux : Nat
  slot : Nat
deriving DecidableEq, Repr

/-! ## Scaled operands of the press and of copies -/

/-- A stationary buffer of the press (R160, R164): its type word with resolved extents (zero: empty), K and N, the tag
it records, the stored codes of each column (six-bit codes in bytes), the scales, and each column's metadata nibbles
where it has them: the positions of a 2:4 operand under layout sp24, else a predicate. -/
structure PressBuf where
  typ : Dbl
  k : Nat
  n : Nat
  tag : Byte
  cols : List (BitVec 2048)
  scales : List Byte
  metas : List (Option (BitVec 2048))
deriving DecidableEq, Repr

/-- A global byte address after translation: the physical address, interleave mode and swizzle (R264, R333). -/
structure GAddr where
  pa : Nat
  im : Nat
  sw : Nat
deriving DecidableEq, Repr

/-- A copy record's fields as a command uses them (R239), with the effective addresses; `dataAt` and `pitch` are DATA
and PITCH of the destination header where there is one, else DST and DPITCH, and `scaleAt` is where its scales go.
Scratchpad addresses are keys, global ones virtual addresses. -/
structure CopySpec where
  record : BitVec 512
  src : Nat
  dst : Nat
  dataAt : Nat
  pitch : Nat
  scaleAt : Nat
  typ : Dbl
deriving DecidableEq, Repr

/-- The modes a conversion runs in, read at issue (R92, R93, R101). -/
structure Modes where
  rnd : Nat
  sat : Bool
  srb : Nat
  fz : Bool
  key : Dbl
deriving DecidableEq, Repr

/-- What a drain converts: the format, modes, scaling, codebook, tensor scale, and the counter of its first element. -/
structure DrainSpec where
  ofmt : Nat
  md : Modes
  mx : Bool
  cb : BitVec 256
  cbx : Nat
  ts : Option Word
  ctr : Nat
deriving DecidableEq, Repr

/-- What a finished load or command does with the bytes it has captured; addresses are physical scratchpad keys. -/
inductive Finish where
  /-- LDB to LDD (R231). -/
  | scalar (d : SReg) (a size : Nat)
  /-- VLD and VLDS: the eight line addresses (R231, R236). -/
  | vector (d : VNum) (lines : List Nat)
  /-- VGTH: each element's address (R237). -/
  | gather (d : VNum) (w : Nat) (addrs : List Nat)
  /-- TLD (R232): the tile registers, each row's address and its length in bytes; rows of `six` six-bit
  elements are unpacked to bytes, and a packed block's lines follow one another. -/
  | tile (d : TNum) (pair : Bool) (rows : List Nat) (len six : Nat) (pack : Bool)
  /-- CBLD (R172). -/
  | codebook (q : CbNum) (a : Nat)
  /-- KLD (R173). -/
  | scale (q : KNum) (a : Nat)
  /-- LWSET (R174). -/
  | window (q : LwNum) (a : Nat)
  /-- VLAID: the window as issued, elements, W32 and modes, the old vector, mask, offset (R140). -/
  | laid (d : VNum) (w : BitVec 192) (w32 : Bool) (adv : Option LwNum) (md : Modes) (mask : Option (Nat × Bool)) (old : VData) (off : Dbl)
  /-- A deckle value to a vector segment (R238). -/
  | segment (d : VNum) (seg : Nat)
  /-- A buffer load from a region: the type loaded, the address of each row's bytes and of its scales (R164, R176). -/
  | bufRegion (b : Bool) (typ : Dbl) (k n : Nat) (tag : Byte) (rows : List Nat) (len : Nat) (scales : List Nat) (slen : Nat)
  /-- PLAID: the window as issued (R166). -/
  | bufLaid (b : Bool) (typ : Dbl) (k n : Nat) (w : BitVec 192) (adv : Option LwNum) (sat : Bool)
  /-- The flags of some columns of a PLAID, at the tick they are decoded (R112, R166). -/
  | laidFlags (w : BitVec 192) (k n0 count : Nat) (sat : Bool)
  /-- A copy row whose source is a scratchpad (R244). -/
  | copyWindow (id : Nat)
deriving DecidableEq, Repr

/-- A row of A that a stream multiplies: its type, K, the index of its first scale, its storage width, its bytes, and
the operand's scales (R167, R176). -/
structure ARow where
  typ : Dbl
  k : Nat
  scale0 : Nat
  sw : Nat
  data : BitVec 4096
  scales : List Byte
deriving DecidableEq, Repr

/-- The action of an in-flight entry at its sheet tick. -/
inductive FlyOp where
  /-- Results written to registers, with the flags they raise and the vector destination for a trap record. -/
  | regs (ws : List RegWrite) (flags : BitVec 5) (vd : Option VNum)
  /-- The old value of a unit that a GATOM returns, unless the core has exited by now (R215). -/
  | atomRet (d : SReg) (v : Dbl)
  /-- An event raised at a stated tick after issue. -/
  | raise (e : Ev)
  /-- Scratchpad bytes read for the entry numbered `target`: pairs of a key and a length. -/
  | capture (target : Nat) (ranges : List (Nat × Nat))
  /-- A load or command completes from the bytes its entry holds. -/
  | finish (f : Finish)
  /-- Scratchpad bytes written. -/
  | store (at_ : Nat) (bytes : List Byte)
  /-- A region header's TYPE and TAG + 1, with the promise it keeps (R159, R198). -/
  | header (at_ : Nat) (typ : Dbl)
  /-- An atomic on a scratchpad unit; the old bytes go to the entry numbered `target` (R249). -/
  | satom (target : Nat) (op : AtomOp) (at_ size : Nat) (v cmp : Dbl)
  /-- A signal to a barrier object (R253). -/
  | signal (at_ : Nat) (v : Nat)
  /-- A signal to a barrier of another sheaf of the sheet, from here on in free bank-ticks (R253). -/
  | crossSignal (key at_ : Nat) (v : Nat)
  /-- A round consumed (R254). -/
  | consume (at_ : Nat)
  /-- A value placed on a deckle lane: from a register, or read from the scratchpad line `at_` (R238). -/
  | put (lane : Nat) (station : Nat) (data : Option Line) (at_ : Nat)
  /-- A value taken from a lane for the entry numbered `target` (R238). -/
  | take (lane : Nat) (station : Nat) (target : Nat)
  /-- A value taken from a lane to a scratchpad line (R238). -/
  | takeSp (lane : Nat) (station : Nat) (at_ : Nat)
  /-- A beater's transform at its last tick: the line keys (R259). -/
  | beat (op : Xfm) (lines : List Nat) (v : Dbl)
  /-- A row of A meets buffer `b` (R167, R176): the row of a tile register or pair, or the bytes captured from
  scratchpad at `at_`, with its scales at `sAt`. -/
  | streamRow (b : Bool) (acc outRow : Nat) (z : Bool) (src : Option (TNum × Bool × Nat)) (a : ARow) (at_ len sAt sLen : Nat)
    (cbA cbB : BitVec 256)
  /-- An accumulator row becomes final (R167). -/
  | accRow (acc : Nat) (outRow : Nat) (z : Bool) (buf : PressBuf) (a : ARow) (cbA cbB : BitVec 256)
  /-- A slot's type, where one is installed, and its K-open bit (R167). -/
  | accMark (acc : Nat) (typ : Option Dbl) (kopen : Bool)
  /-- A slot of a run that LTDRN drains (R177): rows `row` on of the tile, `m` of them with `n` columns, converted at this
  tick, and the keys of their lines and of the runs of their scales. -/
  | drain (d : DrainSpec) (acc n row m : Nat) (lines scales : List Nat)
  /-- PCLR's effect (R168). -/
  | clear (acc : Nat)
  /-- The press's tensor scale (R169). -/
  | tensorScale (v : Option Word)
  /-- LACQ's answer (R162). -/
  | lacq (p : PNum)
  /-- A buffer load from a tile completes (R164): `buf` has the columns and scales that the load brings, which follow those
  that the buffer holds then. -/
  | bufTile (b : Bool) (buf : PressBuf)
  /-- A buffer is left with the empty type and the fault of R165 is raised. -/
  | bufFail (b : Bool) (e : Ev)
  /-- The product table is valid (R172): the registers it was built from and their contents. -/
  | table (a b : Option CbNum) (cbA cbB : BitVec 256)
  /-- A felt line is written and stamped (R170, R197). -/
  | felt (line : Nat) (d : Line) (flags : BitVec 5)
  /-- Scratchpad bytes written by a drain or a copy row, with the flags of their elements. -/
  | storeFlags (at_ : Nat) (bytes : List Byte) (flags : BitVec 5)
  /-- Row `r` of the timed copy `id` is converted and written (R244). -/
  | copyRow (id : Nat) (r : Nat)
  /-- The timed copy `id` is complete: its header, and its claims end (R244, R271). -/
  | copyEnd (id : Nat)
  /-- The conversion of a CPYW fills its entry of the store buffer (R246). -/
  | convert (entry : Nat)
  /-- The contribution of a FRED is complete (R258). -/
  | fredData (entry : Nat) (at_ len : Nat)
  /-- TLBINV's removal (R397). -/
  | tlbInv (scope : Scope) (asid page : Nat)
  /-- The nonce of an ATTEST is read (R399). -/
  | nonce (at_ mask bar : Nat)
  /-- The record read of a command that needs none of its bytes. -/
  | nothing
deriving DecidableEq, Repr

/-- An in-flight entry of a context (R9): its number, the sheet tick it is due at, the bundle address, issue tick and
slot of its instruction, its action, and the scratchpad bytes captured for it. -/
structure Flight where
  seq : Nat
  due : Nat
  pc : Nat
  issued : Nat
  slot : Nat
  op : FlyOp
  buf : Memory
deriving DecidableEq, Repr

/-- An occupancy of a bank of core `sp`'s scratchpad by a timed requester, from one sheet tick to another (R200,
R201); `core` is the requester's core. -/
structure BankRes where
  sp : Nat
  bank : Nat
  lo : Nat
  hi : Nat
  code : Nat
  core : Nat
  pc : Nat
  issued : Nat
deriving DecidableEq, Repr

/-- An occupancy of a press resource (R160): 0 stream path, 1 load path, 2 drain path, 3 table builder, 4 sequencer,
5 and 6 buffers 0 and 1, 7 the product table; `writer` tells a writer from a reader. -/
structure PressRes where
  res : Nat
  writer : Bool
  lo : Nat
  hi : Nat
  pc : Nat
  issued : Nat
deriving DecidableEq, Repr

/-- A repeat in progress (R175): the command, its bundle, slot and issue tick, reissues done, the steps, and the felt
lines drained so far. -/
structure Rep where
  cmd : Instr
  pc : Nat
  slot : Nat
  issued : Nat
  done : Nat
  cnt : Nat
  per : Nat
  tstep : Nat
  astep : Nat
  dlines : Nat
deriving DecidableEq, Repr

/-- A destination of a buffered write: a translated byte and its value. -/
structure GByte where
  addr : GAddr
  val : Byte
deriving DecidableEq, Repr

/-- What a buffered effect does at its place in commit order (R208, R213). -/
inductive Effect where
  /-- CPYW: the bytes, none before the conversion (R246). -/
  | write (spec : CopySpec) (md : Modes) (lines : List (Nat × GAddr)) (bytes : Option (List GByte))
  /-- GATOM (R215, R250). -/
  | gatom (addr : GAddr) (size : Nat) (op : AtomOp) (v cmp : Dbl) (ret : Option SReg)
  /-- CPYU to a global destination (R245). -/
  | copy (id : Nat)
  /-- BSIG outside the sheet: the target's context key and object key (R253). -/
  | signal (key at_ : Nat) (v : Nat)
  /-- HSIG (R323). -/
  | hsig (vec : Nat) (v : Dbl)
  /-- FSEND (R256). -/
  | send (f : WoveFrame)
  /-- FRED: the record's scratchpad key, the record, and the contribution (R258). -/
  | fred (at_ : Nat) (bits : BitVec 256) (data : Option (List Byte))
  /-- LAUNCH and GRAPH: the reserved launch and graph slots and the request operand (R317, R318). -/
  | submit (graph : Bool) (lslot : Option Nat) (gslot : Nat) (req : Dbl)
  /-- CANCEL (R322). -/
  | cancel (handle : Word)
  /-- CTXSW (R395). -/
  | ctxsw (l : Nat) (inn : Bool)
  /-- HALTC (R395). -/
  | haltc (core : Nat) (op : HaltOp)
  /-- CTXST and CTXLD: the barrier object's key (R396). -/
  | image (load : Bool) (l : Nat) (va : Nat) (at_ : Nat)
  /-- SHOOT (R398). -/
  | shoot (scope : Scope) (asid page : Nat) (bar : Nat)
deriving DecidableEq, Repr

/-- A buffered effect of a core's store buffer: its number, its bundle address and issue tick, the tick at which its data are complete,
its charge, and the TLB entries it uses as numbers of pages (R208, R247). -/
structure Buffered where
  seq : Nat
  pc : Nat
  issued : Nat
  ready : Nat
  charge : Nat
  pages : List Nat
  eff : Effect
deriving DecidableEq, Repr

/-- The part of a context that a checkpoint records and a replay restores (R192, R193). `next` is the sheet tick of
the next bundle, `exited` that the unit has exited. -/
structure Live where
  regs : Regs
  flights : List Flight
  banks : List BankRes
  press : List PressRes
  reps : List Rep
  pc : Nat
  next : Nat
  exited : Bool
  store : List Buffered
  budget : Nat
  effects : Nat
deriving DecidableEq, Repr

/-- The handler context while it runs (R387, R388): its bundle address, the mill tick of its next bundle, the record of
its event, from which the trap registers are read, and the pending outcome with the mill tick of its effect. -/
structure Handler where
  pc : Nat
  next : Nat
  record : BitVec 512
  outcome : Option (Nat × Nat)
deriving DecidableEq, Repr

/-- A tag promise (R198): the header's physical key, the tick of its write, and the tag written. -/
structure Promise where
  at_ : Nat
  tick : Nat
  tag : Option Byte
deriving DecidableEq, Repr

/-- An event that waits in a context, with its bundle address and, once it has been detected, its error record (R381). -/
structure Waiting where
  ev : Ev
  pc : Nat
  record : Option (BitVec 512)
deriving DecidableEq, Repr

/-- A resident or streamed context: one core's part of a sheet, its handler registers with their writes in flight (mill
tick and write), its queues with the entries popped since the last checkpoint (R255, R385), its dirty bits (R296) and slip
counter (R261); then the events that wait to be serviced (R113, R324), the context as it
stood before its last bundle or reissue, with that one's tick and the number of entries popped of each queue, from which
an early commit takes its checkpoint (R300), and the counter value that a CCRD of a delayed bundle named at the first mill
tick of its tick (R321). That the handler has predicate registers `hp` of its own, zero at placement and kept between its
runs as hs0 to hs15 are, is the model's choice: R29 and R387 name the scalar ones alone (DESIGN CHOICE, log 128). R20 gives a core
one handler context, and R387 does not say of which launch: that every resident context has its own handler registers, kept
while it is streamed out, is the model's choice too (DESIGN CHOICE, log 141). -/
structure Ctx where
  present : Bool
  live : Live
  ckpt : Live
  hs : Vector Dbl 16
  hp : Vector Bool 8
  hfly : List (Nat × RegWrite)
  handler : Option Handler
  promises : List Promise
  queues : Vector (List Dbl) 4
  popped : Vector (List Dbl) 4
  dirty : BitVec 41
  slip : Word
  pending : List Waiting
  before : Option (Nat × Live × Vector Nat 4)
  seen : Option (Nat × Dbl)
deriving DecidableEq, Repr

/-- The lease state of a sheaf (R162, R298): the holder, the pointer, commands left, the last sheet tick of the term of
4,096 ticks, the last sheet tick at which the holder may issue a command, and the sheet tick from which the lease is free. -/
structure Lease where
  holder : Option (Fin 4)
  ptr : Fin 4
  cmds : Nat
  term : Nat
  limit : Nat
  free : Nat
deriving DecidableEq, Repr

/-- The product table (R160): the core and codebook pair it was built from, `none` for the built-in E2M1 codebook, and
the two codebooks' entries. -/
structure ProdTable where
  core : Nat
  a : Option CbNum
  b : Option CbNum
  cbA : BitVec 256
  cbB : BitVec 256
deriving DecidableEq, Repr

/-- A value on a deckle lane: where and at which sheet tick it was placed (R195). -/
structure LaneVal where
  lane : Nat
  station : Nat
  tick : Nat
  data : Line
deriving DecidableEq, Repr

/-- The state a sheaf's engines share (R21 to R23, R160): the lease, and as it stood at the end of the tick before,
the requests for it at this tick, the press, the felt stamps by line, and the deckle. -/
structure Sheaf where
  active : Option Nat
  lease : Lease
  leaseSeen : Lease
  requests : List (Fin 4)
  buf0 : PressBuf
  buf1 : PressBuf
  table : Option ProdTable
  scale : Option Word
  stamps : Assoc (Option Nat)
  deckle : List LaneVal
  gated : Bool
deriving DecidableEq, Repr

/-- An entry of a TLB (R340): the page, its size as the number of low address bits, word 0 of its leaf, and the
instant of its last use; `dying` once it is to be removed and only serves requests in flight (R397, R303). -/
structure TlbEntry where
  asid : Nat
  page : Nat
  bits : Nat
  word0 : Dbl
  used : Nat
  dying : Bool
deriving DecidableEq, Repr

/-! ## Work (R281 to R297) -/

/-- The states of a launch slot (R292); `held`: reserved for a request that is not yet submitted (R318). -/
inductive LState where
  | free | held | wait | ready | rsvd | active | shadow | out | done
deriving DecidableEq, Repr

/-- What a sheet does within its active state. -/
inductive Mode where
  /-- Bundles issue at every mill tick. -/
  | run
  /-- A hold since a mill tick (R189). -/
  | hold (since : Nat)
  /-- At least one handler runs (R190). -/
  | stop
  /-- Debug halt (R390); `step` is a tick to issue before halting again. -/
  | halt (step : Bool)
  /-- The entries of a commit enter their queues (R192). -/
  | commit
  /-- An early commit takes effect (R300); the core whose bundle raised the exception. -/
  | early (core : Nat)
  /-- A ream has been aborted, or the sheet parked at a boundary. -/
  | parked
deriving DecidableEq, Repr

/-- How far the streaming of a sheet has come (R295): it waits for its instant to leave or to come back, or the lines of
some banks (core and bank as 32 · core + bank) have still to be saved or loaded through free bank-ticks (R202). -/
inductive Streaming where
  | idle
  | leaving
  | saving (banks : List Nat)
  | returning
  | loading (banks : List Nat)
deriving DecidableEq, Repr

/-- Where a sheet's contexts lie on one of its sheaves (R296, R329, R330): the context slot, and the first byte and
accumulator slot of its partitions, the same on the sheaf's four cores. -/
structure Seat where
  sheaf : Nat
  slotNo : Nat
  spBase : Nat
  accBase : Nat
deriving DecidableEq, Repr

/-- A launch slot (R284, R286, R292). `ticked` tells that the bundles of its sheet tick have begun to issue, and `issuedAt` is
the mill tick at which they began (R190); `checked` is one more than the last sheet tick whose wait points were passed (R188);
`traps` are the timing traps and timeline faults that aborted the current ream (R194, R273); `asked` tells that an early commit
takes effect at the end of the mill tick (R214), `oversize` that one precedes the bundle to issue (R300), and `turn` that an
abort has left the sheet its turn on its sheaves (R293). `units` are the unit counters: COUNT, FIN, CAN and ERR. `need` is what
the sheet waits for: the page of an address space and an address, whose fault a REQUEUE may end too (R383), or, as 512 + core,
the install of a translation (R340). `kept` tells that a debug halt which an abort took from its sheaves has not ended, and
whether STEP has let one tick of it issue (R390); `backAt` is the mill tick at which the sheet last came back from OUT (R295). -/
structure Launch where
  st : LState
  gen : Nat
  graph : Nat
  index : Nat
  asid : Nat
  record : BitVec 512
  recVa : Nat
  fin : Bool
  can : Bool
  err : Bool
  count : Nat
  since : Nat
  rsvAt : Nat
  tick : Nat
  mode : Mode
  checked : Nat
  ran : Nat
  restart : Nat
  replaysCur : Nat
  replays : Nat
  traps : List (Nat × Nat × Nat)
  halt : Bool
  kept : Option Bool
  park : Bool
  cancel : Bool
  need : Option (Nat × Nat)
  seats : List Seat
  switchAt : Nat
  backAt : Nat
  streamed : Bool
  streaming : Streaming
  leases : List Lease
  fences : Nat
  nextFences : Nat
  units : List (Nat × Bool × Bool × Bool)
  windows : List (BitVec 256)
  msg : Option (Nat × Word)
  ticked : Bool
  issuedAt : Nat
  asked : Bool
  oversize : Bool
  turn : Bool
deriving DecidableEq, Repr

/-- A graph slot (R285). -/
structure Graph where
  used : Bool
  gen : Nat
  job : Nat
  phase : Nat
  launches : List Nat
  count : Nat
  fin : Bool
  can : Bool
  err : Bool
  msg : Option (Nat × Word)
  pending : Option Nat
deriving DecidableEq, Repr

/-- A phase of a job (R283): graphs finished, its flags, and whether a cancel has named it, so that it waits for no graph
that is still to come (R288). -/
structure Phase where
  count : Nat
  fin : Bool
  can : Bool
  err : Bool
  stop : Bool
deriving DecidableEq, Repr

/-- A job slot (R283). -/
structure Job where
  used : Bool
  gen : Nat
  record : BitVec 512
  asid : Nat
  root : Nat
  rootDone : Bool
  phases : List Phase
  count : Nat
  fin : Bool
  can : Bool
  err : Bool
deriving DecidableEq, Repr

/-- An entry of a channel's write queue (R274): the line's location index, data, mask and stamp; `early` names the launch slot and
the sheet tick of the early commit that made it (R209, R300). -/
structure WqEntry where
  loc : Nat
  data : Line
  mask : BitVec 64
  stamp : Nat
  turns : Nat
  early : Option (Nat × Nat) := none
deriving DecidableEq, Repr

/-- A commit in progress (R213): the sheet, its instant and the sheet tick it ends at, the data entries still to enter
their queues, the signal effects in commit order with the core of each, whether the launch ends with it, whether it is
an early commit, whether its scope is the system's, the units that exit with it, the mill tick from which its next phase
may begin, whether its signal phase has taken effect, the flags with which the launch ends, and the pages that its effects use, as
triples of a core, an address space and a number of 64 KiB pages (R303). -/
structure Commit where
  l : Nat
  at_ : Nat
  tick : Nat
  pending : List WqEntry
  signals : List (Nat × Effect)
  last : Bool
  early : Bool
  sys : Bool
  exits : List Nat
  due : Nat
  signalled : Bool
  can : Bool
  err : Bool
  pages : List (Nat × Nat × Nat) := []
deriving DecidableEq, Repr

/-- A timed copy in flight (R244): the owner's context key, its stack, the command, the modes, and for each source line
its address, its location, its timeline word, and its data once read; `window` are the bytes of a scratchpad source.
`rows` are the converted rows of a scaled copy. -/
structure Copy where
  key : Nat
  pages : List Nat
  stack : Nat
  issued : Nat
  mill : Nat
  until_ : Nat
  spec : CopySpec
  md : Modes
  lines : List (Nat × Nat × Nat × Option Line)
  window : Memory
  dstCore : Nat
  pc : Nat
deriving DecidableEq, Repr

/-- A line on its way through the web (R269): the copy, the line's place in it, its data, and the mill tick at which it
reaches the copy port. -/
structure WebLine where
  stack : Nat
  copy : Nat
  line : Nat
  data : Line
  arrive : Nat
deriving DecidableEq, Repr

/-- An untimed copy (R245): the owner's context key, the address space, the destination lines still to do as pairs of a
row and a line's address, the translations of its source and destination lines, the source lines read so far, the
contexts that it reaches with the generations of their launches, and the mill tick of its next line; `gone` once such a context was
found missing, and `failed` once a line was uncorrectable. -/
structure UCopy where
  key : Nat
  asid : Nat
  started : Bool
  stopped : Bool
  issued : Nat
  spec : CopySpec
  todo : List (Nat × Nat)
  srcPages : List (Nat × GAddr)
  dstPages : List (Nat × GAddr)
  got : List (Nat × Line)
  srcCtx : Option (Nat × Nat)
  dstCtx : Option (Nat × Nat)
  bar : Nat
  due : Nat
  failed : Bool
  gone : Bool
  header : Option Nat
deriving DecidableEq, Repr

/-- A signal under way to a barrier (R202, R253), with the bytes that an engine writes before it, each piece within a line,
the header it then writes, and the wove receive queue it notifies with the link of the frame; a value of zero signals no
barrier. `vt` marks the report of a Viterbi engine (R181). -/
structure Signal where
  key : Nat
  at_ : Nat
  v : Nat
  due : Nat
  data : List (Nat × List Byte)
  header : Option (Nat × Dbl)
  note : Option (Nat × Fin 4 × Dbl)
  vt : Bool := false
deriving DecidableEq, Repr

/-- A wove frame that has arrived over a link and waits for the bank of its region header (R202, R257): the key of its context, the
generation of that one's launch, and its window's entry. -/
structure HeldFrame where
  link : Nat
  key : Nat
  gen : Nat
  window : BitVec 256
  frame : WoveFrame
deriving DecidableEq, Repr

/-- An entry that waits at its source for room in a queue of a context (R255): the link of a wove frame, or none for
another source. -/
structure QueueWait where
  link : Option Nat
  key : Nat
  q : Fin 4
  v : Dbl
deriving DecidableEq, Repr

/-- A command of a Viterbi engine (R179, R180), with the lines of targets and scales read for it so far. -/
structure VtCmd where
  key : Nat
  lw : BitVec 192
  res : Nat
  bar : Nat
  tgt : Nat
  accepted : Nat
  got : List (Nat × Line)
deriving DecidableEq, Repr

/-- The command a Viterbi engine serves, and the mill tick at which its service ends (R180). -/
structure VtBusy where
  cmd : VtCmd
  done : Nat
  bytes : List Byte
  result : Dbl
deriving DecidableEq, Repr

/-- An all-reduce in progress (R258): the context, the record's key and contents, its number, its members, the
contributions that have arrived by rank, the mill tick of its departure, and, once every contribution is there, the mill
tick of its completion; `lost` when a member cannot be reached. -/
structure Fred where
  key : Nat
  asid : Nat
  at_ : Nat
  bits : BitVec 256
  group : Nat
  k : Nat
  members : List Nat
  arrived : List (Nat × FredFrame)
  left : Nat
  due : Nat
  lost : Bool
deriving DecidableEq, Repr

/-- An early contribution held for its number (R350). -/
structure Held where
  f : FredFrame
  asid : Nat
  at_ : Nat
deriving DecidableEq, Repr

/-- A migration (R260). `stage` tells how far its present page is: not begun, its lines on their way into the write
queues, or its leaf on its way. -/
structure Migr where
  key : Nat
  asid : Nat
  at_ : Nat
  va : Nat
  left : Nat
  deadline : Nat
  bar : Nat
  status : Nat
  due : Nat
  stage : Nat
deriving DecidableEq, Repr

/-- A context image command (R396): once begun, the banks whose lines are still to be read or written (R202), and its status
so far. -/
structure Image where
  load : Bool
  key : Nat
  asid : Nat
  l : Nat
  va : Nat
  at_ : Nat
  due : Nat
  banks : Option (List Nat)
  status : Nat
deriving DecidableEq, Repr

/-- A shoot-down (R341, R398): its scope, and the barrier of a SHOOT or none for a host request. -/
structure Shoot where
  scope : Scope
  asid : Nat
  page : Nat
  bar : Option (Nat × Nat)
deriving DecidableEq, Repr

/-- The shoot-down under way and the cores that have not acknowledged (R303). -/
structure ShootNow where
  req : Shoot
  waiting : List Nat
deriving DecidableEq, Repr

/-- A request of the ATTEST queue (R399). -/
structure Attest where
  key : Nat
  at_ : Nat
  mask : Nat
  bar : Nat
  nonce : List Byte
  due : Nat
deriving DecidableEq, Repr

/-- The kinds of command a channel's controller gives (R270). -/
inductive CmdKind where
  | act | read | write | pre | refAb | refPb
deriving DecidableEq, Repr

/-- A command of a channel: its kind, its position since RUN was set, and its bank (SID, BG and BA). -/
structure DramCmd where
  kind : CmdKind
  pos : Nat
  bank : Nat
deriving DecidableEq, Repr

/-- A read of a line for a timed copy that has been requested and not served (R271, R276). -/
structure Claim where
  word : Nat
  copy : Nat
  line : Nat
  loc : Nat
  mill : Nat
deriving DecidableEq, Repr

/-- An HBM stack's controller (R265 to R279). `words` are the timeline words by index, `t0` the mill tick at which
position number `base` begins, the first after RUN was set, and `pos` the number of the next position; by channel, `queues` are the write queues, `cmds` the
commands of the last positions and `drains` whether a drain run writes; by channel and bank, `rows` are the open rows,
each with the position of its precharge once that is fixed. -/
structure Stack where
  words : Assoc Dbl
  tlctl : Dbl
  t0 : Nat
  base : Nat
  pos : Nat
  queues : Assoc (List WqEntry)
  claims : List Claim
  cmds : Assoc (List DramCmd)
  drains : Assoc Bool
  rows : Assoc (Option (Nat × Option Nat))
deriving DecidableEq, Repr

/-- The algorithms that the module offers over SPDM (R357). -/
inductive SpdmAlg where
  | sm2P256 | sm3 | sm4Gcm
deriving DecidableEq, Repr

/-- An answer on the DOE mailbox (R357, R358): the algorithms for signing and key exchange, hashing and sessions, the bytes of
a certificate chain, the measurement blocks by number, a report, that a request is not supported, or another answer. -/
inductive SpdmAnswer where
  | algorithms (sign hash session : List SpdmAlg)
  | certificate (chain : List Byte)
  | measurements (blocks : List (Nat × BitVec 256))
  | report (bytes : List Byte)
  | unsupported
  | other (bytes : List Byte)
deriving DecidableEq, Repr

/-- What leaves the module: an MSI-X message, a wove frame with its link, an answer to a host request, or an access of
a peer's memory. -/
inductive Out where
  | msix (vec : Nat)
  | frame (link : Nat) (f : WoveFrame)
  | fred (link : Nat) (f : FredFrame)
  | cxlData (d : Line)
  | cxlPoison
  | cxlError
  | unsupported
  | peer (link : Nat) (r : PeerReq)
  | peerData (d : Line)
  | peerRefused
  | spdm (a : SpdmAnswer)
  | value (v : Dbl)
  | snoopNoData
  | thermalTrip
deriving DecidableEq, Repr

/-- The configuration store (R406, R407): its image, the failed starts, the code and step of
the last failure, the rollback floor, whether a start is in
progress, and the public half of the identity key sealed in it. -/
structure Store where
  image : Option (List Byte)
  fails : Nat
  why : Nat
  step : Nat
  floor : Nat
  starting : Bool
  key : Option (BitVec 512)
deriving DecidableEq, Repr

/-- The issue in progress: the core, the launch slot, the bundle's address, sheet tick, slot count and template, the
slot, the slots of the memory class, the queue entries the bundle sees, and whether it is the handler's; then what its
slots have settled so far: the successor and its delay, a delay of WAITT, EXIT, BND, the event of a TRAP or BRK, the
loop entry to push, a pop, the bank-ticks to check with their slots, the bundle's tile-or-press instruction with its
slot, the lines of a drain, the charge and number of its buffered effects with the slot of the first that exceeds
the budget, and the type words that its slots install. -/
structure Issue where
  core : Nat
  l : Nat
  pc : Nat
  tick : Nat
  nslots : Nat
  template : Nat
  slot : Nat
  memIx : List Nat
  q : Vector (Option Dbl) 4
  handler : Bool
  target : Option (Nat × Nat)
  waitt : Option Nat
  exits : Bool
  bnd : Bool
  late : Option Ev
  push : Option LoopEntry
  pop : Bool
  uses : List (Nat × BankRes)
  cmd : Option (Instr × Nat)
  lines : Nat
  charge : Nat
  effects : Nat
  overAt : Option Nat
  types : List Nat
deriving DecidableEq, Repr

/-- The module. `admissions` is the queue of graphs that wait for slots: a root launch (0, job, address) or a
graph (1, graph slot, address). `ending` is the launches that a fault has ended and whose results still land, each with the
last sheet tick it had or would have had (R35, R56). `cxlHeld` is the host writes that the port holds
back (R352), and `framesHeld` the wove frames that wait for a bank (R202). `saved` holds, by the number its in-flight area carries, what a save area or context image says in the
part's own layout (R396). `bulk` is the writes of engines that wait for room in their channels' queues, each with the number of its
command (R274), and `queueWaits` the entries that wait for room in a context's queue, in order of arrival (R255). -/
structure Device where
  mill : Nat
  ctxs : Assoc Ctx
  sheaves : Assoc Sheaf
  spad : Memory
  spDirty : Assoc Bool
  felt : Memory
  acc : Assoc Word
  accType : Assoc Dbl
  accOpen : Assoc Bool
  accDirty : Assoc Bool
  tlbs : Assoc (List TlbEntry)
  dram : Memory
  hostMem : Memory
  hbm : Assoc Stack
  launches : Assoc Launch
  graphs : Assoc Graph
  jobs : Assoc Job
  reservations : List Nat
  ending : List (Nat × Nat)
  admissions : List (Nat × Nat × Nat)
  commits : List Commit
  bulk : List (Nat × WqEntry)
  queueWaits : List QueueWait
  copies : Assoc (Option Copy)
  web : List WebLine
  ucopies : Assoc (Option UCopy)
  signals : Assoc (Option Signal)
  vtQueues : Assoc (List VtCmd)
  vtBusy : Assoc (Option VtBusy)
  freds : Assoc (Option Fred)
  held : Assoc (Option Held)
  fredCount : Assoc Nat
  migrs : Assoc (Option Migr)
  images : Assoc (Option Image)
  saved : List (Nat × Live)
  attests : List Attest
  shootQ : List Shoot
  shootNow : Option ShootNow
  outbox : List Out
  log : List (BitVec 512)
  logHead : Nat
  logLost : Nat
  lostNow : Bool
  hvec : Assoc Dbl
  rcfg : Dbl
  haltSlot : Nat
  dbgsel : Dbl
  clkMhz : Nat
  clkBusy : Option (Nat × Nat)
  startstat : Dbl
  cfgLen : Nat
  cfgBusy : Option Nat
  cfgOk : Bool
  keyOk : Bool
  shootDone : Word
  monval : Assoc Dbl
  monthr : Assoc Dbl
  trip : Option Word
  tripped : Bool
  window : Memory
  hsigval : Vector Dbl 32
  accepted : Nat
  refused : Nat
  apfence : Dbl
  vatcfg : Dbl
  hdmcfg : Dbl
  woveid : Dbl
  wovectl : Vector Dbl 16
  route : Assoc Dbl
  asctl : Assoc Dbl
  meas : Vector (BitVec 256) 16
  measdata : Vector Dbl 4
  idpub : BitVec 512
  serial : Dbl
  store : Store
  seq : Nat
  issue : Issue
  cxlHeld : List (BitVec 46 × Line × BitVec 64)
  framesHeld : List HeldFrame
  startDue : Option Nat
  fresh : Nat
deriving DecidableEq, Repr

/-! ## Initial values -/

/-- The registers of a unit at its start (R36): FCTL has SRB = 1 (R93) and MMREV has REV = 2 until the launch record
sets it (R225). -/
def Regs.init : Regs where
  s := Vector.replicate 64 0
  a := Vector.replicate 16 { addr := 0, inc := 0, wrap := 0 }
  p := Vector.replicate 8 false
  v := Vector.replicate 64 0
  m := Vector.replicate 8 0
  t := Vector.replicate 16 { data := 0, typ := 0, tag := 0 }
  dv := Vector.replicate 16 .unbound
  k := Vector.replicate 8 0
  cb := Vector.replicate 4 0
  lw := Vector.replicate 8 0
  loops := []
  fctl := 0x10
  fstat := 0
  hkey := 0
  mmrev := 2

/-- The checkpointed part of a context in which no unit runs. -/
def Live.init : Live where
  regs := Regs.init
  flights := []
  banks := []
  press := []
  reps := []
  pc := 0
  next := 0
  exited := true
  store := []
  budget := 0
  effects := 0

/-- A context slot that holds no context. -/
def Ctx.empty : Ctx where
  present := false
  live := Live.init
  ckpt := Live.init
  hs := Vector.replicate 16 0
  hp := Vector.replicate 8 false
  hfly := []
  handler := none
  promises := []
  queues := Vector.replicate 4 []
  popped := Vector.replicate 4 []
  dirty := 0
  slip := 0
  pending := []
  before := none
  seen := none

/-- A free lease whose pointer stands at core 0 (R162). -/
def Lease.init : Lease where
  holder := none
  ptr := 0
  cmds := 0
  term := 0
  limit := 0
  free := 0

/-- An empty stationary buffer. -/
def PressBuf.empty : PressBuf where
  typ := 0
  k := 0
  n := 0
  tag := 0
  cols := []
  scales := []
  metas := []

/-- A sheaf at rest. -/
def Sheaf.empty : Sheaf where
  active := none
  lease := Lease.init
  leaseSeen := Lease.init
  requests := []
  buf0 := PressBuf.empty
  buf1 := PressBuf.empty
  table := none
  scale := none
  stamps := []
  deckle := []
  gated := false

/-- A free launch slot of generation 0. -/
def Launch.free : Launch where
  st := .free
  gen := 0
  graph := 0
  index := 0
  asid := 0
  record := 0
  recVa := 0
  fin := false
  can := false
  err := false
  count := 0
  since := 0
  rsvAt := 0
  tick := 0
  mode := .run
  checked := 0
  ran := 0
  restart := 0
  replaysCur := 0
  replays := 0
  traps := []
  halt := false
  kept := none
  park := false
  cancel := false
  need := none
  seats := []
  switchAt := 0
  backAt := 0
  streamed := false
  streaming := .idle
  leases := []
  fences := 0
  nextFences := 0
  units := []
  windows := []
  msg := none
  ticked := false
  issuedAt := 0
  asked := false
  oversize := false
  turn := false

/-- A free graph slot. -/
def Graph.free : Graph where
  used := false
  gen := 0
  job := 0
  phase := 0
  launches := []
  count := 0
  fin := false
  can := false
  err := false
  msg := none
  pending := none

/-- A free job slot. -/
def Job.free : Job where
  used := false
  gen := 0
  record := 0
  asid := 0
  root := 0
  rootDone := false
  phases := []
  count := 0
  fin := false
  can := false
  err := false

/-- A controller whose timeline does not run: LWM 8 and HWM 32 (R268). -/
def Stack.init : Stack where
  words := []
  tlctl := 0x0000084000000000
  t0 := 0
  base := 0
  pos := 0
  queues := []
  claims := []
  cmds := []
  drains := []
  rows := []

/-- No issue in progress. -/
def Issue.idle : Issue where
  core := 0
  l := 0
  pc := 0
  tick := 0
  nslots := 4
  template := 0
  slot := 0
  memIx := []
  q := Vector.replicate 4 none
  handler := false
  target := none
  waitt := none
  exits := false
  bnd := false
  late := none
  push := none
  pop := false
  uses := []
  cmd := none
  lines := 0
  charge := 0
  effects := 0
  overAt := none
  types := []

/-- The machine at its first power-on (R406, R407): every register at the value of its Reset column, every store
cleared, the configuration store empty as the module leaves manufacture (R409), and the start about to begin. The
values the spec does not give are those of log entry 2. -/
def Device.reset : Device where
  mill := 0
  ctxs := []
  sheaves := []
  spad := []
  spDirty := []
  felt := []
  acc := []
  accType := []
  accOpen := []
  accDirty := []
  tlbs := []
  dram := []
  hostMem := []
  hbm := []
  launches := []
  graphs := []
  jobs := []
  reservations := []
  ending := []
  admissions := []
  commits := []
  bulk := []
  queueWaits := []
  copies := []
  web := []
  ucopies := []
  signals := []
  vtQueues := []
  vtBusy := []
  freds := []
  held := []
  fredCount := []
  migrs := []
  images := []
  saved := []
  attests := []
  shootQ := []
  shootNow := none
  outbox := []
  log := []
  logHead := 0
  logLost := 0
  lostNow := false
  hvec := []
  rcfg := 16
  haltSlot := 0
  dbgsel := 0
  clkMhz := 1200
  clkBusy := none
  startstat := 0
  cfgLen := 0
  cfgBusy := none
  cfgOk := false
  keyOk := false
  shootDone := 0
  monval := []
  monthr := []
  trip := none
  tripped := false
  window := []
  hsigval := Vector.replicate 32 0
  accepted := 0
  refused := 0
  apfence := 0
  vatcfg := 0x0018141614000000
  hdmcfg := 0
  woveid := 0xFFFF
  wovectl := Vector.replicate 16 0
  route := []
  asctl := []
  meas := Vector.replicate 16 0
  measdata := Vector.replicate 4 0
  idpub := 0
  serial := 0
  store := { image := none, fails := 0, why := 0, step := 0, floor := 0, starting := false, key := none }
  seq := 0
  issue := Issue.idle
  cxlHeld := []
  framesHeld := []
  startDue := none
  fresh := 0

/-- The state: the module, the steps still to come in the present mill tick, and the actions of the outside world by the
mill tick from which each may come. The two lists are the model's own: they order what the spec lets happen within a
tick, and stand for the environment. -/
structure State where
  dev : Device
  agenda : List Instr
  inputs : List (Nat × Instr)
deriving DecidableEq, Repr

/-- The machine at its first power-on: the module as its reset leaves it, with the start sequence as its first step
(R406, R407). -/
def State.reset : State where
  dev := Device.reset
  agenda := [.powerOnStart]
  inputs := []

end Sys2Proof.Machine
end

