-- ==== Sys2Proof/Machine/Flags.lean ====
section
/-! DEFINITION. Rounding, special values, overflow and the five flags (R92 to R103), the press sum (R106), the drain's
conversions (R108, R109) and scale search (R110). Flags are the five bits of FSTAT. -/

namespace Sys2Proof.Machine

/-- Flags of FSTAT raised by an operation (R94). -/
abbrev Flags := BitVec 5

/-- Invalid. -/
def fNV : Flags := 1
/-- Overflow. -/
def fOF : Flags := 2
/-- Underflow. -/
def fUF : Flags := 4
/-- Inexact. -/
def fNX : Flags := 8
/-- Saturated. -/
def fST : Flags := 16

/-- The flags raised by any of a list of operations. -/
def orFlags : List Flags → Flags
  | [] => 0
  | f :: t => f ||| orFlags t

/-- A destination of Deliver: a floating-point format, or an integer of a width and signedness (R95). -/
inductive Dest where
  | fl (f : FloatFmt)
  | int (w : Nat) (signed : Bool)
deriving DecidableEq, Repr

/-- The destination of an integer element format. -/
def intDest (i : IntFmt) : Dest := .int i.bits i.signed

/-- The destination of a format code from 0 to 7 or 11 to 18 (R90). -/
def destOfCode (f : Nat) : Dest := if f ≤ 7 then .fl (floatOfCode f) else .int (fmtWidth f) (fmtSigned f)

/-! ## Husk (R101 to R105) -/

/-- A 32-bit left rotation. -/
def rotl32 (x n : Nat) : Nat := (x * 2 ^ n) % 2 ^ 32 + x / 2 ^ (32 - n)

/-- The rounds of Husk from round `i` on (R103). -/
def huskRounds : Nat → Nat → Nat → Nat → Nat → Nat → Nat
  | 0, _, _, _, x2, x3 => x2 ^^^ x3
  | n + 1, i, x0, x1, x2, x3 =>
    let t := (x0 + x1 + (i + 1) * 0x9E3779B9) % 2 ^ 32
    huskRounds n (i + 1) x1 x2 (x3 ^^^ rotl32 t (if i % 2 = 0 then 8 else 12)) t

/-- Husk(key, ctr) (R103). -/
def husk (key ctr : Nat) : Nat :=
  huskRounds 8 0 (bitField key 0 32) (bitField key 32 32) (bitField ctr 0 32) (bitField ctr 32 32)

/-- The key and the width of a stochastic draw of R101. -/
structure Draw where
  key : Nat
  r : Nat
  ctr : Nat
deriving DecidableEq, Repr

/-- The stochastic width of FCTL.SRB (R93). -/
def srbWidth (srb : Nat) : Nat := 8 * (srb % 4 + 1)

/-- StochasticUp (R101) on a discarded fraction `rem / den`. -/
def stochasticUp (md : Modes) (ctr rem den : Nat) : Bool :=
  let r := srbWidth md.srb
  rem * 2 ^ r / den + husk md.key.toNat ctr / 2 ^ (32 - r) ≥ 2 ^ r

/-! ## Deliver (R95 to R98) -/

/-- The largest magnitude of an integer destination on a side, as a code. -/
def intLimit (w : Nat) (signed neg : Bool) : Nat :=
  if signed then (if neg then 2 ^ (w - 1) else 2 ^ (w - 1) - 1) else (if neg then 0 else 2 ^ w - 1)

/-- The code with its sign bit. -/
def withSign (i : FmtInfo) (s : Bool) (mag : Nat) : Nat := mag + bitOf s * 2 ^ (i.w - 1)

/-- Special (R96): NaN and infinity inputs. -/
def deliverSpecial (d : Dest) (sat : Bool) : Exact → Nat × Flags
  | .inf s =>
    match d with
    | .int w sg => (intLimit w sg s, fNV ||| fST)
    | .fl f =>
      let i := fmtInfo f
      match i.infCode, i.nanCode with
      | some c, _ => if sat then (withSign i s i.maxCode, fST) else (withSign i s c, 0)
      | none, some n => if sat then (withSign i s i.maxCode, fST) else (n, fNV)
      | none, none => (withSign i s i.maxCode, fNV ||| fST)
  | _ =>
    match d with
    | .int _ _ => (0, fNV)
    | .fl f =>
      match (fmtInfo f).nanCode with
      | some n => (n, 0)
      | none => (0, fNV)

/-- Overflow (R97): a finite result beyond the limits of the destination. -/
def deliverOverflow (d : Dest) (rnd : Nat) (sat : Bool) (s : Bool) : Nat × Flags :=
  match d with
  | .int w sg => (intLimit w sg s, fST ||| fNX)
  | .fl f =>
    let i := fmtInfo f
    match i.infCode, i.nanCode with
    | none, none => (withSign i s i.maxCode, fOF ||| fNX ||| fST)
    | some c, _ =>
      if sat then (withSign i s i.maxCode, fOF ||| fNX ||| fST)
      else if rnd = 1 then (withSign i s i.maxCode, fOF ||| fNX)
      else (withSign i s c, fOF ||| fNX)
    | none, some n =>
      if sat then (withSign i s i.maxCode, fOF ||| fNX ||| fST)
      else if rnd = 1 then (withSign i s i.maxCode, fOF ||| fNX)
      else (n, fOF ||| fNX)

/-- Whether a discarded fraction rounds the magnitude up; `odd` tells whether the kept part is odd. -/
def roundsUp (md : Modes) (ctr rem den : Nat) (sticky odd : Bool) : Bool :=
  if md.rnd = 0 then decide (2 * rem > den) || (decide (2 * rem = den) && (sticky || odd))
  else if md.rnd = 2 then (decide (rem > 0) || sticky) && stochasticUp md ctr rem den
  else false

/-- A magnitude rounded to a multiple of `2^u`: the multiple and whether anything was discarded. -/
def roundAt (md : Modes) (ctr n : Nat) (e : Int) (sticky : Bool) (u : Int) : Nat × Bool :=
  if u ≤ e then
    let q := n * 2 ^ (e - u).toNat
    (if roundsUp md ctr 0 1 sticky (bitAt q 0) then q + 1 else q, sticky)
  else
    let den := 2 ^ (u - e).toNat
    let q := n / den
    let rem := n % den
    (if roundsUp md ctr rem den sticky (bitAt q 0) then q + 1 else q, decide (rem > 0) || sticky)

/-- A magnitude in units of the smallest subnormal, as a code without its sign. -/
def encodeMag (m y : Nat) : Nat :=
  if y < 2 ^ m then y
  else
    let k := Nat.log2 y
    (k - m) * 2 ^ m + y / 2 ^ (k - m)

/-- The value of a code without its sign, in units of the smallest subnormal. -/
def decodeMag (m c : Nat) : Nat :=
  let e := c / 2 ^ m
  if e = 0 then c else (2 ^ m + c % 2 ^ m) * 2 ^ (e - 1)

/-- Deliver of a finite non-zero value to a floating-point format (R95). -/
def deliverFloat (md : Modes) (ctr : Nat) (f : FloatFmt) (s : Bool) (n : Nat) (e : Int) (sticky : Bool) : Nat × Flags :=
  let i := fmtInfo f
  let emin : Int := 1 - (i.bias : Int)
  let lg : Int := (Nat.log2 n : Int) + e
  if lg > 300 then deliverOverflow (.fl f) md.rnd md.sat s
  else
    let u : Int := (if lg < emin then emin else lg) - i.m
    let (q, inexact) := roundAt md ctr n e sticky u
    let y := q * 2 ^ (u - (emin - i.m)).toNat
    let fl : Flags := (if inexact then (if lg < emin then fNX ||| fUF else fNX) else 0)
    if y > decodeMag i.m i.maxCode then
      let (c, g) := deliverOverflow (.fl f) md.rnd md.sat s
      (c, fl ||| g)
    else (withSign i s (encodeMag i.m y), fl)

/-- Deliver of a finite non-zero value to an integer format (R95). -/
def deliverInt (md : Modes) (ctr : Nat) (w : Nat) (sg : Bool) (s : Bool) (n : Nat) (e : Int) (sticky : Bool) : Nat × Flags :=
  if (Nat.log2 n : Int) + e > 300 then deliverOverflow (.int w sg) md.rnd md.sat s
  else
    let (q, inexact) := roundAt md ctr n e sticky 0
    let fl : Flags := if inexact then fNX else 0
    if q > intLimit w sg s then
      let (c, g) := deliverOverflow (.int w sg) md.rnd md.sat s
      (c, fl ||| g)
    else (codeOfInt w (signInt s q), fl)

/-- Deliver (R95): the code written to a destination for an exact value, and the flags. -/
def deliver (md : Modes) (ctr : Nat) (d : Dest) (x : Exact) : Nat × Flags :=
  match x with
  | .nan => deliverSpecial d md.sat .nan
  | .inf s => deliverSpecial d md.sat (.inf s)
  | .zero s =>
    match d with
    | .fl f => (withSign (fmtInfo f) s 0, 0)
    | .int _ _ => (0, 0)
  | .fin s n e k =>
    match d with
    | .fl f => deliverFloat md ctr f s n e k
    | .int w sg => deliverInt md ctr w sg s n e k

/-- Round to nearest even, not saturating, no draw: the modes of the press and of a tensor scale. -/
def modesRne : Modes := { rnd := 0, sat := false, srb := 1, fz := false, key := 0 }

/-- An FP32 result delivered with .rne and .nsat. -/
def toFp32 (x : Exact) : Nat × Flags := deliver modesRne 0 (.fl .fp32) x

/-- Whether a code of a floating-point format is subnormal. -/
def isSubnormal (f : FloatFmt) (c : Nat) : Bool :=
  let i := fmtInfo f
  decide (bitField c 0 (i.w - 1) ≠ 0) && decide (bitField c i.m i.e = 0)

/-- The value of an operand of a vector operation, with FZ applied (R100). -/
def readFz (fz : Bool) (f : FloatFmt) (c : Nat) : Exact :=
  if fz && isSubnormal f c then .zero (bitAt c ((fmtInfo f).w - 1)) else decodeFloat f c

/-- Deliver of a result of the vector unit, with FZ applied (R100). -/
def deliverFz (md : Modes) (ctr : Nat) (f : FloatFmt) (x : Exact) : Nat × Flags :=
  match x with
  | .fin s n e k =>
    if md.fz && decide ((Nat.log2 n : Int) + e < 1 - ((fmtInfo f).bias : Int)) then
      (withSign (fmtInfo f) s 0, fUF ||| fNX)
    else deliver md ctr (.fl f) (.fin s n e k)
  | y => deliver md ctr (.fl f) y

/-- Whether a conversion between floating-point formats is always exact (R99). -/
def exactPair (sf df : FloatFmt) : Bool :=
  match df with
  | .fp32 => sf != .fp32
  | .bf16 => sf != .fp32 && sf != .bf16 && sf != .fp16
  | .fp16 => sf != .fp32 && sf != .bf16 && sf != .fp16
  | _ => false

/-- The modes of a conversion: an exact pair carries an infinity to the same infinity in every mode (R99). -/
def Modes.forPair (md : Modes) (sf df : FloatFmt) : Modes := if exactPair sf df then { md with sat := false } else md

/-- The modes of a conversion between format codes. -/
def Modes.forCodes (md : Modes) (src dst : Nat) : Modes :=
  if src ≤ 7 ∧ dst ≤ 7 then md.forPair (floatOfCode src) (floatOfCode dst) else md

/-! ## The press sum (R106) -/

/-- The greatest Floor(Log2(|q|)) among non-zero products, or none. -/
def maxLog2 : List Exact → Option Int
  | [] => none
  | q :: t =>
    match q with
    | .fin _ _ _ _ =>
      match maxLog2 t with
      | none => some q.log2
      | some m => some (if m < q.log2 then q.log2 else m)
    | _ => maxLog2 t

/-- A product truncated in magnitude to a multiple of `2^u`, as that multiple with its sign (R106). -/
def truncAt (u : Int) : Exact → Int
  | .fin s n e _ => signInt s (if u ≤ e then n * 2 ^ (e - u).toNat else n / 2 ^ (u - e).toNat)
  | _ => 0

/-- The sum of truncated products. -/
def sumTrunc (u : Int) : List Exact → Int
  | [] => 0
  | q :: t => truncAt u q + sumTrunc u t

/-- A product as the press forms it, and whether it is a NaN of zero times infinity. -/
def pressProduct (x y : Exact) : Exact × Bool :=
  (x.mul y, (x.isZero && y.isInf) || (x.isInf && y.isZero))

/-- The end of AddBlock: the block partial meets the accumulator (R106). -/
def addPartial (acc : Exact) (accCode : Nat) (s : Exact) : Nat × Flags :=
  match s with
  | .zero _ => (accCode, 0)
  | .inf a =>
    match acc with
    | .inf b => if a = b then toFp32 (.inf a) else (0x7FC00000, fNV)
    | _ => toFp32 (.inf a)
  | x => toFp32 (acc.add x)

/-- AddBlock (R106): the accumulator code and a block of products. -/
def addBlock (accCode : Nat) (qs : List (Exact × Bool)) : Nat × Flags :=
  let acc := decodeFloat .fp32 accCode
  let q := qs.map (fun p => p.1)
  if acc = .nan ∨ q.contains .nan then (0x7FC00000, if qs.any (fun p => p.2) then fNV else 0)
  else if q.contains (.inf false) ∧ q.contains (.inf true) then (0x7FC00000, fNV)
  else if q.contains (.inf false) then addPartial acc accCode (.inf false)
  else if q.contains (.inf true) then addPartial acc accCode (.inf true)
  else
    match maxLog2 q with
    | none => (accCode, 0)
    | some e => addPartial acc accCode (exactOfScaled false (sumTrunc (e - 48) q) (e - 48))

/-- PressAccumulate over the products of blocks of 32, ascending, in blocks taken by `fuel` (R106). -/
def pressBlocks : Nat → Nat → List (Exact × Bool) → Nat × Flags
  | 0, acc, _ => (acc, 0)
  | n + 1, acc, q =>
    if q.isEmpty then (acc, 0)
    else
      let (a, f) := addBlock acc (q.take 32)
      let (b, g) := pressBlocks n a (q.drop 32)
      (b, f ||| g)

/-! ## Codebook conversion and scale search (R109, R110) -/

/-- The codes of a codebook with their values. -/
def cbList (cb : BitVec 256) : List (Nat × Exact) := (rangeFrom 0 16).map (fun c => (c, cbEntry cb c))

/-- The lowest code of the list whose value satisfies a test. -/
def findCode (p : Exact → Bool) : List (Nat × Exact) → Option Nat
  | [] => none
  | (c, v) :: t => if p v then some c else findCode p t

/-- The distance of a finite value from an entry; infinite entries are at infinite distance. -/
def cbDist (x v : Exact) : Exact := (x.sub v).abs

/-- The code of least distance, ties to the lowest, among entries that are not NaN (R109). -/
def nearestCode (x : Exact) : List (Nat × Exact) → Option (Nat × Exact)
  | [] => none
  | (c, v) :: t =>
    match nearestCode x t with
    | none => if v = .nan then none else some (c, v)
    | some (d, w) => if v = .nan then some (d, w) else if (cbDist x v).cmp (cbDist x w) ≤ 0 then some (c, v) else some (d, w)

/-- The last case of R109, for a finite value. -/
def cbNearest (cb : BitVec 256) (x : Exact) : Nat × Flags :=
  match nearestCode x (cbList cb) with
  | none => (0, fNV)
  | some (c, v) => (c, if v.isFinite && (cbDist x v).isZero then 0 else fNX)

/-- The largest finite FP32 value with a sign. -/
def fp32Max (s : Bool) : Exact := .fin s (2 ^ 24 - 1) 104 false

/-- Conversion to CB4 (R109). -/
def toCb4 (cb : BitVec 256) (x : Exact) : Nat × Flags :=
  let l := cbList cb
  match x with
  | .nan =>
    match findCode (fun v => decide (v = .nan)) l with
    | some c => (c, 0)
    | none => (0, fNV)
  | y =>
    if l.all (fun p => decide (p.2 = .nan)) then (0, fNV)
    else if y.isInf then
      match findCode (fun v => decide (v = y)) l with
      | some c => (c, 0)
      | none =>
        let (c, f) := cbNearest cb (fp32Max y.isNeg)
        (c, fST ||| f)
    else cbNearest cb y

/-- The output element of a scale search: an E-format, or CB4 against a codebook (R110). -/
inductive ScaleFmt where
  | flt (f : FloatFmt)
  | cb4 (cb : BitVec 256)
deriving DecidableEq, Repr

/-- Floor(Log2) of the largest magnitude of a codebook's finite, non-zero entries, or none (R109). -/
def cbEmax (cb : BitVec 256) : Option Int := maxLog2 ((cbList cb).map (fun p => p.2))

/-- The exponent emax of R110. -/
def ScaleFmt.emax : ScaleFmt → Option Int
  | .flt f =>
    let i := fmtInfo f
    some ((Nat.log2 (decodeMag i.m i.maxCode) : Int) + (1 - (i.bias : Int) - i.m))
  | .cb4 cb => cbEmax cb

/-- An element's code, its value and flags at a candidate scale `c`, delivered with .sat (R110). -/
def ScaleFmt.convert (f : ScaleFmt) (md : Modes) (ctr : Nat) (x : Exact) (c : Int) : Nat × Exact × Flags :=
  match f with
  | .flt g =>
    let (k, fl) := deliver { md with sat := true } ctr (.fl g) (x.scale (-c))
    (k, (decodeFloat g k).scale c, fl)
  | .cb4 cb =>
    let (k, fl) := toCb4 cb (x.scale (-c))
    (k, (cbEntry cb k).scale c, fl)

/-- The error of a candidate so far plus its elements' errors in ascending order, as an FP32 code (R110). -/
def scaleError (acc : Nat) : List (Exact × Exact) → Nat
  | [] => acc
  | (x, y) :: t =>
    let d := decodeFloat .fp32 (toFp32 (x.sub y)).1
    let s := decodeFloat .fp32 (toFp32 (d.mul d)).1
    scaleError (toFp32 ((decodeFloat .fp32 acc).add s)).1 t

/-- Elements paired with their counters: a base and the elements' numbers from it. -/
def withCtr (ctr : Nat → Nat) (xs : List Exact) : List (Nat × Exact) :=
  (rangeFrom 0 xs.length).zip xs |>.map (fun p => (ctr p.1, p.2))

/-- The conversions of a block at a candidate. -/
def convertBlock (f : ScaleFmt) (md : Modes) (ctr : Nat → Nat) (xs : List Exact) (c : Int) : List (Nat × Exact × Flags) :=
  (withCtr ctr xs).map (fun p => f.convert md p.1 p.2 c)

/-- A candidate's error. -/
def candidateError (f : ScaleFmt) (md : Modes) (ctr : Nat → Nat) (xs : List Exact) (c : Int) : Nat :=
  scaleError 0 (xs.zip ((convertBlock f md ctr xs c).map (fun p => p.2.1)))

/-- A candidate clamped to the exponents of E8M0. -/
def clampScale (c : Int) : Int := if c < -127 then -127 else if c > 127 then 127 else c

/-- The candidate of least error, ties to the larger exponent; candidates ascend, so a later one wins a tie. -/
def bestScale (err : Int → Nat) : List Int → Option Int
  | [] => none
  | c :: t =>
    match bestScale err t with
    | none => some c
    | some d => if ((decodeFloat .fp32 (err c)).cmp (decodeFloat .fp32 (err d))) < 0 then some c else some d

/-- The candidates of a derived exponent (R110). -/
def scaleCandidates (e : Int) : List Int := ([clampScale (e - 1), clampScale e, clampScale (e + 1)]).dedup

/-- The result of a scale search: X, the element codes and the flags of each element; a block that holds a NaN or an
infinity raises its flag with its first element. -/
structure Scaled where
  x : Nat
  codes : List Nat
  flags : List Flags
deriving DecidableEq, Repr

/-- The elements converted one by one without a search. -/
def scaleNone (f : ScaleFmt) (md : Modes) (ctr : Nat → Nat) (xs : List Exact) : Scaled :=
  let r := convertBlock f md ctr xs 0
  { x := 0x7F, codes := r.map (fun p => p.1), flags := r.map (fun p => p.2.2) }

/-- Scale search of a block of FP32 values (R110); `ctr j` is the counter of element `j`. -/
def scaleSearch (f : ScaleFmt) (md : Modes) (ctr : Nat → Nat) (xs : List Exact) : Scaled :=
  if xs.any (fun x => !x.isFinite) then { x := 0xFF, codes := xs.map (fun _ => 0), flags := [fNV] }
  else
    match maxLog2 xs, f.emax with
    | some a, some m =>
      match bestScale (candidateError f md ctr xs) (scaleCandidates (a - m)) with
      | none => scaleNone f md ctr xs
      | some c =>
        let r := convertBlock f md ctr xs c
        { x := (c + 127).toNat, codes := r.map (fun p => p.1), flags := r.map (fun p => p.2.2) }
    | _, _ => scaleNone f md ctr xs

end Sys2Proof.Machine
end

