-- ==== Sys2Proof/Machine/Access.lean ====
section
/-! DEFINITION. The accessors of the state, and the operations a slot of a bundle is written in: sources read at issue
(R41), results scheduled to land at issue + n (R9, R35), bank-ticks (R200), press resources (R160). A slot is a function
`Device → Except Ev Device` on a trial state: an event leaves nothing behind (R56). -/

namespace Sys2Proof.Machine

/-! ## Parts of the state -/

/-- The key of a context: the launch slot of its sheet and its core. -/
def ctxKey (l core : Nat) : Nat := l * 640 + core

/-- The context of a sheet on a core. -/
def Device.ctx (s : Device) (l core : Nat) : Ctx := Assoc.get Ctx.empty s.ctxs (ctxKey l core)

/-- The state with the context of a sheet on a core replaced. -/
def Device.setCtx (s : Device) (l core : Nat) (c : Ctx) : Device :=
  { s with ctxs := Assoc.set Ctx.empty s.ctxs (ctxKey l core) c }

/-- The launch slot `l`. -/
def Device.launch (s : Device) (l : Nat) : Launch := Assoc.get Launch.free s.launches l

/-- The state with launch slot `l` replaced. -/
def Device.setLaunch (s : Device) (l : Nat) (x : Launch) : Device :=
  { s with launches := Assoc.set Launch.free s.launches l x }

/-- The shared state of sheaf `g`. -/
def Device.sheaf (s : Device) (g : Nat) : Sheaf := Assoc.get Sheaf.empty s.sheaves g

/-- The state with the shared state of sheaf `g` replaced. -/
def Device.setSheaf (s : Device) (g : Nat) (x : Sheaf) : Device :=
  { s with sheaves := Assoc.set Sheaf.empty s.sheaves g x }

/-- The controller of stack `q`. -/
def Device.stack (s : Device) (q : Nat) : Stack := Assoc.get Stack.init s.hbm q

/-- The state with the controller of stack `q` replaced. -/
def Device.setStack (s : Device) (q : Nat) (x : Stack) : Device := { s with hbm := Assoc.set Stack.init s.hbm q x }

/-- The next free value's number, with the counter advanced. -/
def Device.draw (s : Device) : Nat × Device := (s.fresh, { s with fresh := s.fresh + 1 })

/-- The mill tick at which an untimed engine next acts: a free value no earlier than the next tick (R202). -/
def Device.later (s : Device) : Nat × Device := (s.mill + 1 + Config.engineDelay s.fresh, { s with fresh := s.fresh + 1 })

/-- The mill tick at which an action happens that the spec bounds: a free value among the next `n` ticks. -/
def Device.within (s : Device) (n : Nat) : Nat × Device :=
  (s.mill + 1 + Config.engineDelay s.fresh % n, { s with fresh := s.fresh + 1 })

/-! ## The launch record and the sheet (R284) -/

/-- A field of a launch's record. -/
def Launch.field (x : Launch) (lo n : Nat) : Nat := bitField x.record.toNat lo n

/-- The first sheaf. -/
def Launch.sheaf0 (x : Launch) : Nat := x.field 296 8
/-- The number of sheaves. -/
def Launch.nsheaf (x : Launch) : Nat := x.field 288 8
/-- The ream length in sheet ticks. -/
def Launch.ream (x : Launch) : Nat := 512 * 2 ^ x.field 282 3
/-- The store budget in bytes (R284, R300). -/
def Launch.budget (x : Launch) : Nat := 64 * (if x.field 266 16 = 0 then 512 else x.field 266 16)
/-- The store-budget disposition. -/
def Launch.sbd (x : Launch) : Nat := x.field 264 2
/-- The partition's scratchpad size in bytes. -/
def Launch.spSize (x : Launch) : Nat := 65536 * x.field 255 6
/-- The partition's number of accumulator slots. -/
def Launch.accn (x : Launch) : Nat := x.field 247 8
/-- The first core of the sheet. -/
def Launch.core0 (x : Launch) : Nat := 4 * x.sheaf0
/-- The number of cores of the sheet. -/
def Launch.ncores (x : Launch) : Nat := 4 * x.nsheaf
/-- The cores of the sheet, in core-index order. -/
def Launch.cores (x : Launch) : List Nat := rangeFrom x.core0 x.ncores
/-- The sheaves of the sheet. -/
def Launch.sheaves (x : Launch) : List Nat := rangeFrom x.sheaf0 x.nsheaf
/-- Whether a core belongs to the sheet. -/
def Launch.hasCore (x : Launch) (c : Nat) : Bool := decide (x.core0 ≤ c) && decide (c < x.core0 + x.ncores)

/-! ## The issuing context -/

/-- The launch slot of the issuing sheet. -/
def Device.curLaunch (s : Device) : Launch := s.launch s.issue.l

/-- The issuing context. -/
def Device.cur (s : Device) : Ctx := s.ctx s.issue.l s.issue.core

/-- The state with the issuing context replaced. -/
def Device.setCur (s : Device) (c : Ctx) : Device := s.setCtx s.issue.l s.issue.core c

/-- The checkpointed part of the issuing context. -/
def Device.live (s : Device) : Live := s.cur.live

/-- The state with the checkpointed part of the issuing context replaced. -/
def Device.setLive (s : Device) (v : Live) : Device := s.setCur { s.cur with live := v }

/-- The registers of the issuing context. -/
def Device.regs (s : Device) : Regs := s.live.regs

/-- The state with the registers of the issuing context replaced. -/
def Device.setRegs (s : Device) (r : Regs) : Device := s.setLive { s.live with regs := r }

/-- The sheaf of the issuing core. -/
def Device.curSheaf (s : Device) : Sheaf := s.sheaf (s.issue.core / 4)

/-- The core's number within its sheaf. -/
def Device.cis (s : Device) : Nat := s.issue.core % 4

/-- An event raised by the slot being issued. -/
def Device.ev (s : Device) (code reason i0 i1 i2 i3 : Nat) : Ev :=
  { code := code, reason := reason, i0 := i0, i1 := i1, i2 := i2, i3 := i3, aux := 0, slot := s.issue.slot }

/-- A schedule fault that concerns no earlier instruction (R380): its reason, the register or resource concerned, and the
tick. -/
def Device.schedule (s : Device) (reason i0 tick : Nat) : Ev := s.ev 3 reason i0 tick 0 0

/-- The number of a vector register by number. -/
def vnum (n : Nat) : VNum := Fin.ofNat 64 n

/-- The number of a tile register by number. -/
def tnum (n : Nat) : TNum := Fin.ofNat 16 n

/-! ## Modes and flags as they are written (R7, R93, R94, R226) -/

/-- FCTL as a write of it leaves it (R93). -/
def fctlWritten (v : Dbl) : Word :=
  let w := v.setWidth 32 &&& 0x1F3F
  if w &&& 3 = 3 then w &&& 0x1F3C else w

/-- MMREV as a write of it leaves it (R226). -/
def mmrevWritten (old : Word) (v : Dbl) : Word :=
  let rv := bitField v.toNat 0 8
  word ((if rv = 1 ∨ rv = 2 then rv else bitField old.toNat 0 8) + bitField v.toNat 8 1 * 2 ^ 8)

/-- FSTAT as a write of it leaves it (R94). -/
def fstatWritten (v : Dbl) : Word := v.setWidth 32 &&& 0x1F

/-! ## Sources, read at issue (R30, R31, R41) -/

/-- A scalar source. In the handler context the field names hs0 to hs15 (R387); elsewhere s0 reads zero and s60 to s63
read the entry the bundle pops, or raise the timing trap of R31. -/
def Device.srcS (s : Device) (r : SReg) : Except Ev Dbl :=
  if s.issue.handler then .ok (if r = 0 then 0 else s.cur.hs[Fin.ofNat 16 r.val])
  else if r = 0 then .ok 0
  else if r.val < 60 then .ok s.regs.s[r]
  else
    match s.issue.q[Fin.ofNat 4 (r.val - 60)] with
    | some v => .ok v
    | none => .error (s.ev 6 1 (r.val - 60) 0 0 0)

/-- A predicate source: p0 reads true (R30). -/
def Device.srcP (s : Device) (p : PNum) : Bool :=
  if p = 0 then true else if s.issue.handler then s.cur.hp[p] else s.regs.p[p]

/-- An address register. -/
def Device.srcA (s : Device) (a : ANum) : AReg := s.regs.a[a]

/-- A vector source. -/
def Device.srcV (s : Device) (v : VNum) : VData := s.regs.v[v]

/-- A vector source by number, for the members of a group (R115). -/
def Device.srcVn (s : Device) (n : Nat) : VData := s.regs.v[vnum n]

/-- A mask source. -/
def Device.srcM (s : Device) (m : MNum) : MData := s.regs.m[m]

/-- A tile source. -/
def Device.srcT (s : Device) (t : TNum) : TileReg := s.regs.t[t]

/-! ## Landing places (R35) -/

/-- A place a result lands in: a kind of register, its number, and the bytes written of it. -/
structure Place where
  kind : Nat
  reg : Nat
  lo : Nat
  len : Nat
deriving DecidableEq, Repr

/-- Whether two places overlap. -/
def Place.meets (a b : Place) : Bool :=
  a.kind == b.kind && a.reg == b.reg && decide (a.lo < b.lo + b.len) && decide (b.lo < a.lo + a.len)

/-- The place of a write; the flags and modes of the context are written by MTSR alone and merge with the flags of other
results (R392), so they have none. A conflict is told by overlapping bytes in a scale register too, as R35 says of vector
and tile registers (DEDUCED, log 147). -/
def RegWrite.place : RegWrite → Option Place
  | .s r _ => some { kind := 0, reg := r, lo := 0, len := 1 }
  | .aAddr r _ => some { kind := 1, reg := r, lo := 0, len := 1 }
  | .aInc r _ => some { kind := 2, reg := r, lo := 0, len := 1 }
  | .aWrap r _ => some { kind := 3, reg := r, lo := 0, len := 1 }
  | .p r _ => some { kind := 4, reg := r, lo := 0, len := 1 }
  | .v r lo len _ => some { kind := 5, reg := r, lo := lo, len := len }
  | .m r _ => some { kind := 6, reg := r, lo := 0, len := 1 }
  | .tdata r _ => some { kind := 7, reg := r, lo := 0, len := 1 }
  | .ttype r _ _ => some { kind := 8, reg := r, lo := 0, len := 1 }
  | .dv r => some { kind := 9, reg := r, lo := 0, len := 1 }
  | .k r lo len _ => some { kind := 10, reg := r, lo := lo, len := len }
  | .cb r _ => some { kind := 11, reg := r, lo := 0, len := 1 }
  | .lw r _ => some { kind := 12, reg := r, lo := 0, len := 1 }
  | .lwBoff r _ => some { kind := 12, reg := r, lo := 0, len := 1 }
  | .hs r _ => some { kind := 13, reg := r, lo := 0, len := 1 }
  | .hp r _ => some { kind := 14, reg := r, lo := 0, len := 1 }
  | .fctl _ => none
  | .fstat _ => none
  | .hkey _ => none
  | .mmrev _ => none

/-- The places that a load or command writes when it completes. -/
def Finish.places : Finish → List Place
  | .scalar d _ _ => if d = 0 ∨ d.val ≥ 60 then [] else [{ kind := 0, reg := d, lo := 0, len := 1 }]
  | .vector d _ => [{ kind := 5, reg := d, lo := 0, len := 512 }]
  | .gather d _ _ => [{ kind := 5, reg := d, lo := 0, len := 512 }]
  | .tile d pair _ _ _ _ =>
    { kind := 7, reg := d, lo := 0, len := 1 } ::
      (if pair then [{ kind := 7, reg := d.val + 1, lo := 0, len := 1 }] else [])
  | .codebook q _ => [{ kind := 11, reg := q, lo := 0, len := 1 }]
  | .scale q _ => [{ kind := 10, reg := q, lo := 0, len := 64 }]
  | .window q _ => [{ kind := 12, reg := q, lo := 0, len := 1 }]
  | .laid d _ _ adv _ _ _ _ =>
    { kind := 5, reg := d, lo := 0, len := 512 } ::
      (match adv with
      | some q => [{ kind := 12, reg := q, lo := 0, len := 1 }]
      | none => [])
  | .segment d seg => [{ kind := 5, reg := d, lo := 64 * seg, len := 64 }]
  | .bufRegion _ _ _ _ _ _ _ _ _ => []
  | .bufLaid _ _ _ _ _ adv _ =>
    match adv with
    | some q => [{ kind := 12, reg := q, lo := 0, len := 1 }]
    | none => []
  | .laidFlags _ _ _ _ _ => []
  | .copyWindow _ => []

/-- The places an in-flight entry writes at its tick. -/
def FlyOp.places : FlyOp → List Place
  | .regs ws _ _ => ws.filterMap RegWrite.place
  | .finish f => f.places
  | .lacq p => if p = 0 then [] else [{ kind := 4, reg := p, lo := 0, len := 1 }]
  | .atomRet d _ => [{ kind := 0, reg := d, lo := 0, len := 1 }]
  | _ => []

/-- The first in-flight entry due at a tick that writes one of some places, with the register concerned. -/
def findLanding (due : Nat) (ps : List Place) : List Flight → Option (Nat × Flight)
  | [] => none
  | f :: t =>
    if f.due = due then
      match ps.find? (fun p => f.op.places.any (fun q => p.meets q)) with
      | some p => some (p.reg, f)
      | none => findLanding due ps t
    else findLanding due ps t

/-! ## In-flight entries (R9) -/

/-- An action added to the issuing context's in-flight entries, due `n` sheet ticks after issue, unless its results
would meet others at their place (R35). -/
def addFlight (n : Nat) (op : FlyOp) (s : Device) : Except Ev Device :=
  let due := s.issue.tick + n
  match findLanding due op.places s.live.flights with
  | some (r, f) => .error (s.ev 3 1 r due f.pc f.issued)
  | none =>
    let f : Flight := { seq := s.seq, due := due, pc := s.issue.pc, issued := s.issue.tick, slot := s.issue.slot, op := op, buf := [] }
    .ok { s.setLive { s.live with flights := s.live.flights ++ [f] } with seq := s.seq + 1 }

/-- A write as it stands for the issuing context: discarded for s0, p0 and the queue-mapped registers (R30, R31); the
handler's own registers in the handler context (R387). -/
def Device.keepWrite (s : Device) : RegWrite → Option RegWrite
  | .s r v =>
    if s.issue.handler then (if r.val % 16 = 0 then none else some (.hs (Fin.ofNat 16 r.val) v))
    else if r = 0 ∨ r.val ≥ 60 then none
    else some (.s r v)
  | .p r b =>
    if r = 0 then none
    else if s.issue.handler then some (.hp r b)
    else some (.p r b)
  | w => some w

/-- The first write in flight of the handler due at a mill tick that meets a place. -/
def findHandlerLanding (due : Nat) (p : Place) : List (Nat × RegWrite) → Bool
  | [] => false
  | (d, w) :: t => (d == due && (match w.place with | some q => p.meets q | none => false)) || findHandlerLanding due p t

/-- Writes of the handler context, landing `n` mill ticks after issue (R387). -/
def addHandler (n : Nat) (ws : List RegWrite) (s : Device) : Except Ev Device :=
  let due := s.mill + n
  match (ws.filterMap RegWrite.place).find? (fun p => findHandlerLanding due p s.cur.hfly) with
  | some p => .error (s.ev 3 1 p.reg due s.issue.pc s.mill)
  | none => .ok (s.setCur { s.cur with hfly := s.cur.hfly ++ ws.map (fun w => (due, w)) })

/-- Results landing at issue + `n`, with the flags they raise there and a vector destination for an arithmetic trap's
record (R35, R112). Nothing is in flight for a discarded write without flags. -/
def land (n : Nat) (ws : List RegWrite) (flags : Flags) (vd : Option VNum) (s : Device) : Except Ev Device :=
  let kept := ws.filterMap s.keepWrite
  if s.issue.handler then addHandler n kept s
  else if kept.isEmpty && flags == 0 then .ok s
  else addFlight n (.regs kept flags vd) s

/-- A scalar result at issue + `n`. -/
def landS (n : Nat) (d : SReg) (v : Dbl) (s : Device) : Except Ev Device := land n [.s d v] 0 none s

/-- A predicate result at issue + `n`. -/
def landP (n : Nat) (p : PNum) (b : Bool) (s : Device) : Except Ev Device := land n [.p p b] 0 none s

/-- A whole vector result at issue + `n`. -/
def landV (n : Nat) (d : VNum) (v : VData) (flags : Flags) (s : Device) : Except Ev Device :=
  land n [.v d 0 512 v] flags (some d) s

/-- Vector results of a register group at issue + `n`; the group's first register names it in a trap's record. -/
def landGroup (n : Nat) (d : VNum) (vs : List VData) (flags : Flags) (s : Device) : Except Ev Device :=
  land n ((rangeFrom d.val vs.length).zip vs |>.map (fun p => .v (vnum p.1) 0 512 p.2)) flags (some d) s

/-- A mask result at issue + `n`. -/
def landM (n : Nat) (d : MNum) (m : MData) (flags : Flags) (s : Device) : Except Ev Device :=
  land n [.m d m] flags none s

/-! ## Banks and press resources -/

/-- The bank of a scratchpad address (R16). -/
def bankOf (a : Nat) : Nat := a / 64 % 32

/-- A bank-tick of core `sp`'s scratchpad occupied from issue + `lo` to issue + `hi` by requester `code`; the check of
R201 follows the checks of every slot. -/
def useBank (sp bank lo hi code : Nat) (s : Device) : Device :=
  let r : BankRes :=
    { sp := sp, bank := bank, lo := s.issue.tick + lo, hi := s.issue.tick + hi, code := code, core := s.issue.core,
      pc := s.issue.pc, issued := s.issue.tick }
  { s with issue := { s.issue with uses := s.issue.uses ++ [(s.issue.slot, r)] } }

/-- One access to the line of a physical address at issue + `n`. -/
def useLine (sp a n code : Nat) (s : Device) : Device := useBank sp (bankOf a) n n code s

/-- Accesses to the lines of some physical addresses at issue + `n`. -/
def useLines (sp : Nat) (n code : Nat) : List Nat → Device → Device
  | [], s => s
  | a :: t, s => useLines sp n code t (useLine sp a n code s)

/-- Whether two press resources compete: a table's readers do not meet each other, nor a buffer's (R160). -/
def pressMeets (a b : PressRes) : Bool :=
  a.res == b.res && (a.writer || b.writer) && decide (a.lo ≤ b.hi) && decide (b.lo ≤ a.hi)

/-- The press occupancies of a sheaf planned by the cores of a sheet. -/
def Device.pressPlans (s : Device) (l g : Nat) : List PressRes :=
  ((rangeFrom (4 * g) 4).map (fun c => (s.ctx l c).live.press)).flatten

/-- A press resource occupied from issue + `lo` to issue + `hi`, or the schedule fault of R160. -/
def usePress (res : Nat) (writer : Bool) (lo hi : Nat) (s : Device) : Except Ev Device :=
  let r : PressRes :=
    { res := res, writer := writer, lo := s.issue.tick + lo, hi := s.issue.tick + hi, pc := s.issue.pc, issued := s.issue.tick }
  match (s.pressPlans s.issue.l (s.issue.core / 4)).find? (fun p => pressMeets r p) with
  | some p => .error (s.ev 3 2 (Config.pressCode res) r.lo p.pc p.issued)
  | none => .ok (s.setLive { s.live with press := s.live.press ++ [r] })

/-- The memory port of the slot: by its place among the bundle's memory slots (R41); a slot of another class takes port
1, unless the bundle holds two memory slots (R161, R391). -/
def Device.port (s : Device) : Except Ev Nat :=
  if s.issue.memIx.contains s.issue.slot then .ok (s.issue.memIx.idxOf s.issue.slot)
  else if s.issue.memIx.length ≥ 2 then .error (s.ev 3 6 1 s.issue.tick s.issue.pc s.issue.tick)
  else .ok 1

/-! ## Scratchpad addresses (R16, R229, R329, R331) -/

/-- The bytes of one scratchpad. -/
def spBytes : Nat := 2097152

/-- Where a sheet lies on the sheaf of a core. -/
def Launch.seat (x : Launch) (core : Nat) : Seat :=
  (x.seats.find? (fun t => t.sheaf == core / 4)).getD { sheaf := core / 4, slotNo := 0, spBase := 0, accBase := 0 }

/-- The physical scratchpad address on a core of an address of a sheet's partition (R329). -/
def Launch.spPhys (x : Launch) (core a : Nat) : Nat := (x.seat core).spBase + a

/-- The key of a byte of core `c`'s scratchpad by its physical address. -/
def spKey (c a : Nat) : Nat := c * spBytes + a

/-- A checked range of the issuing sheet's partition: alignment before bounds (R229, R331). The physical address. -/
def Device.spAddr (s : Device) (a size align : Nat) : Except Ev Nat :=
  if a % align ≠ 0 then .error (s.ev 12 0 a 0 0 0)
  else if a + size > s.curLaunch.spSize then .error (s.ev 13 1 a s.curLaunch.spSize 0 0)
  else .ok (s.curLaunch.spPhys s.issue.core a)

/-- The bytes of the issuing core's scratchpad at a physical address. -/
def Device.spRead (s : Device) (core a n : Nat) : List Byte := Memory.readBytes s.spad (spKey core a) n

end Sys2Proof.Machine
end

