-- ==== Sys2Proof/Machine/Dram.lean ====
section
/-! DEFINITION. Device memory: the address map (R263, R264), the Reed-Solomon code of a line (R277, R278), the write
queues as a reader sees them (R274, R276), and the bytes of device and host memory. -/

namespace Sys2Proof.Machine

/-! ## Lines (R263, R264, R379) -/

/-- A line's location index: stack, channel, SID, BG, BA, ROW and COL, the bits of R379's location word above bit 2. -/
def lineIndex (stack ch sid bg ba row col : Nat) : Nat :=
  col + row * 2 ^ 5 + ba * 2 ^ 19 + bg * 2 ^ 21 + sid * 2 ^ 23 + ch * 2 ^ 25 + stack * 2 ^ 30

/-- The location word of a line (R379). -/
def locationWord (loc : Nat) : Nat := loc * 8

/-- The stack of a location. -/
def locStack (loc : Nat) : Nat := bitField loc 30 3
/-- The channel of a location. -/
def locCh (loc : Nat) : Nat := bitField loc 25 5
/-- The bank of a location within its channel: SID, BG and BA. -/
def locBank (loc : Nat) : Nat := bitField loc 19 6
/-- The bank group of a location. -/
def locBg (loc : Nat) : Nat := bitField loc 21 2
/-- The row of a location. -/
def locRow (loc : Nat) : Nat := bitField loc 5 14

/-- DramMap after the stack, channel and Q are chosen (R264). -/
def dramSlices (stack ch q sw : Nat) : Nat :=
  let col := bitField q 0 5
  let sl := fun n => bitField q (5 + 2 * n) 2
  let j := bitField sw 2 2
  let i := bitField sw 0 2
  let top := bitField col 3 2
  let col' := if j = 0 then col else bitField col 0 3 + sl (j - 1) * 8
  let s := fun n => if j ≠ 0 ∧ n = j - 1 then top else sl n
  lineIndex stack ch (s ((i + 2) % 4)) (s i) (s ((i + 1) % 4)) (bitField q 13 12 * 4 + s ((i + 3) % 4)) col'

/-- DramMap (R264): the location of the line that holds a device physical address. -/
def dramMap (pa im sw : Nat) : Nat :=
  if im = 0 then dramSlices (bitField pa 36 3) (bitField pa 6 5) (bitField pa 11 25) sw
  else if im = 1 then dramSlices (bitField pa 6 3) (bitField pa 9 5) (bitField pa 14 25) sw
  else dramSlices (bitField pa 11 3) (bitField pa 6 5) (bitField pa 14 25) sw

/-! ## The code (R277, R278) -/

/-- A field element times x. -/
def gfTwice (a : Nat) : Nat := if a < 128 then 2 * a else (2 * a) % 256 ^^^ 0x1D

/-- The product of two field elements, over the `n` low bits of the second. -/
def gfMulBits (a b : Nat) : Nat → Nat
  | 0 => 0
  | n + 1 => (if b % 2 = 1 then a else 0) ^^^ gfMulBits (gfTwice a) (b / 2) n

/-- The product in GF(2^8). -/
def gfMul (a b : Nat) : Nat := gfMulBits a b 8

/-- A power in GF(2^8). -/
def gfPow (a : Nat) : Nat → Nat
  | 0 => 1
  | n + 1 => gfMul a (gfPow a n)

/-- The inverse of a non-zero element. -/
def gfInv (a : Nat) : Nat := gfPow a 254

/-- A step of the division by (x - 1)(x - 2)(x - 4)(x - 8), which is x^4 + 15x^3 + 54x^2 + 120x + 64; the remainder is
held by rising degree. -/
def rsStep (d : Nat) (r : Nat × Nat × Nat × Nat) : Nat × Nat × Nat × Nat :=
  let f := d ^^^ r.2.2.2
  (gfMul f 64, r.1 ^^^ gfMul f 120, r.2.1 ^^^ gfMul f 54, r.2.2.1 ^^^ gfMul f 15)

/-- The check bytes of a line, by rising degree (R277). -/
def rsChecks (data : List Nat) : List Nat :=
  let r := data.foldr rsStep (0, 0, 0, 0)
  [r.1, r.2.1, r.2.2.1, r.2.2.2]

/-- The 68 symbols of a line: the data bytes, then the check bytes. -/
def rsEncode (l : Line) : List Byte :=
  lineBytes l ++ (rsChecks ((lineBytes l).map (fun b => b.toNat))).map (BitVec.ofNat 8)

/-- The polynomial degree of symbol `j` (R277). -/
def rsDegree (j : Nat) : Nat := if j < 64 then j + 4 else j - 64

/-- A syndrome: the word's polynomial at `x`, its symbols by rising degree. -/
def rsEval (x : Nat) : List Nat → Nat
  | [] => 0
  | c :: t => c ^^^ gfMul x (rsEval x t)

/-- A pattern of at most two errors with the syndromes given, as pairs of a degree and a value. -/
def rsLocate (s0 s1 s2 s3 : Nat) : Option (List (Nat × Nat)) :=
  let xs := (rangeFrom 0 68).map (fun d => (d, gfPow 2 d))
  match xs.find? (fun p => s0 != 0 && gfMul s0 p.2 == s1 && gfMul s1 p.2 == s2 && gfMul s2 p.2 == s3) with
  | some p => some [(p.1, s0)]
  | none =>
    ((xs.map (fun p => (xs.filter (fun q => decide (p.1 < q.1))).map (fun q => (p, q)))).flatten.findSome? (fun pq =>
      let x1 := pq.1.2
      let x2 := pq.2.2
      let e2 := gfMul (s1 ^^^ gfMul s0 x1) (gfInv (x1 ^^^ x2))
      let e1 := s0 ^^^ e2
      let y1 := gfMul x1 x1
      let y2 := gfMul x2 x2
      if e1 ≠ 0 ∧ e2 ≠ 0 ∧ gfMul e1 y1 ^^^ gfMul e2 y2 = s2 ∧ gfMul e1 (gfMul y1 x1) ^^^ gfMul e2 (gfMul y2 x2) = s3 then
        some [(pq.1.1, e1), (pq.2.1, e2)]
      else none))

/-- What decoding a line finds (R278). -/
inductive Decoded where
  | clean (l : Line)
  /-- The line, the symbols corrected with their XOR values, lowest symbol first. -/
  | corrected (l : Line) (errors : List (Nat × Nat))
  | bad
deriving DecidableEq, Repr

/-- The symbol of a degree. -/
def rsSymbol (d : Nat) : Nat := if d < 4 then 64 + d else d - 4

/-- The decoding of 68 symbols (R278). -/
def rsDecode (syms : List Byte) : Decoded :=
  let v := syms.map (fun b => b.toNat)
  let byDegree := v.drop 64 ++ v.take 64
  let s0 := rsEval 1 byDegree
  let s1 := rsEval 2 byDegree
  let s2 := rsEval 4 byDegree
  let s3 := rsEval 8 byDegree
  if s0 = 0 ∧ s1 = 0 ∧ s2 = 0 ∧ s3 = 0 then .clean (lineOf (syms.take 64))
  else
    match rsLocate s0 s1 s2 s3 with
    | none => .bad
    | some es =>
      let errs := (rangeFrom 0 68).filterMap (fun j => (es.find? (fun e => rsSymbol e.1 == j)).map (fun e => (j, e.2)))
      let fix := fun j b => match errs.find? (fun e => e.1 == j) with
        | some e => BitVec.ofNat 8 (b ^^^ e.2)
        | none => BitVec.ofNat 8 b
      .corrected (lineOf ((rangeFrom 0 64).map (fun j => fix j (nth v j)))) errs

/-! ## Cells and queues -/

/-- The 68 symbols of a line as the cells hold them. -/
def Device.cells (s : Device) (loc : Nat) : List Byte := Memory.readBytes s.dram (loc * 68) 68

/-- The cells with a line written. -/
def Device.writeCells (s : Device) (loc : Nat) (l : Line) : Device :=
  { s with dram := Memory.writeBytes s.dram (loc * 68) (rsEncode l) }

/-- The write queue of a channel, oldest entry first. -/
def Device.queue (s : Device) (stack ch : Nat) : List WqEntry := Assoc.get [] (s.stack stack).queues ch

/-- The state with the write queue of a channel replaced. -/
def Device.setQueue (s : Device) (stack ch : Nat) (l : List WqEntry) : Device :=
  s.setStack stack { s.stack stack with queues := Assoc.set [] (s.stack stack).queues ch l }

/-- A line with the masked bytes of another. -/
def mergeLine (old new : Line) (mask : BitVec 64) : Line :=
  lineOf (((lineBytes old).zip (lineBytes new)).zip (rangeFrom 0 64) |>.map (fun p =>
    if bitAt mask.toNat p.2 then p.1.2 else p.1.1))

/-- A line under the entries for it, the youngest last (R276). -/
def overlay (loc : Nat) (l : Line) : List WqEntry → Line
  | [] => l
  | e :: t => overlay loc (if e.loc = loc then mergeLine l e.data e.mask else l) t

/-- The bytes of a line that some entries cover. -/
def covered (loc : Nat) : List WqEntry → BitVec 64
  | [] => 0
  | e :: t => (if e.loc = loc then e.mask else 0) ||| covered loc t

/-- Every byte of a line. -/
def fullMask : BitVec 64 := BitVec.allOnes 64

/-- The value of a line of device memory, with what its decoding found (R278); the entries of its queue stand over the cells. -/
def Device.line (s : Device) (loc : Nat) : Option Line × Decoded :=
  let q := s.queue (locStack loc) (locCh loc)
  match rsDecode (s.cells loc) with
  | .clean l => (some (overlay loc l q), .clean l)
  | .corrected l e => (some (overlay loc l q), .corrected l e)
  | .bad => (none, .bad)

/-- The line that a reader takes: the bytes of an uncorrectable line are free values (R278). -/
def Device.lineOr (s : Device) (loc : Nat) : Line :=
  match (s.line loc).1 with
  | some l => l
  | none => lineOf ((rangeFrom 0 64).map (fun i => Config.freeByte (s.mill * 2 ^ 40 + 64 * loc + i)))

/-- The bytes of device memory at a physical address under a mapping. -/
def Device.devBytes (s : Device) (pa im sw : Nat) : Nat → List Byte
  | 0 => []
  | n + 1 =>
    ((lineBytes (s.lineOr (dramMap pa im sw))).getD (pa % 64) 0) :: s.devBytes (pa + 1) im sw n

/-- An aligned 8-byte word of a table in device memory (R328, R334): tables are mapped stack-local and unswizzled. -/
def Device.tableWord (s : Device) (pa : Nat) : Dbl :=
  BitVec.ofNat 64 (elemAt 64 (s.lineOr (dramMap pa 0 0)).toNat (pa % 64 / 8))

/-- The little-endian value of `n` aligned words of a table. -/
def Device.tableWords (s : Device) (pa : Nat) : Nat → Nat
  | 0 => 0
  | n + 1 => (s.tableWord pa).toNat + 2 ^ 64 * s.tableWords (pa + 8) n

end Sys2Proof.Machine
end

