-- ==== Sys2Proof/Machine/Translate.lean ====
section
/-! DEFINITION. Address spaces, page walks and TLBs (R328, R333 to R340), and the physical memory behind a translated
address (R333). -/

namespace Sys2Proof.Machine

/-! ## Address spaces (R328) -/

/-- Word `w` of ASCTL[a]. -/
def Device.asctlWord (s : Device) (a w : Nat) : Nat := (Assoc.get 0 s.asctl (4 * a + w)).toNat
/-- ASROOT.EN. -/
def Device.asEnabled (s : Device) (a : Nat) : Bool := bitAt (s.asctlWord a 0) 63
/-- The level-3 table. -/
def Device.asRoot (s : Device) (a : Nat) : Nat := bitField (s.asctlWord a 0) 13 33 * 8192
/-- PTAG. -/
def Device.asTag (s : Device) (a : Nat) : Nat := bitField (s.asctlWord a 1) 48 16
/-- The window table and its number of entries. -/
def Device.asWindows (s : Device) (a : Nat) : Nat × Nat := (bitField (s.asctlWord a 1) 13 33 * 8192, bitField (s.asctlWord a 1) 0 9)
/-- The peer-group table and its number of groups. -/
def Device.asGroups (s : Device) (a : Nat) : Nat × Nat := (bitField (s.asctlWord a 2) 13 33 * 8192, bitField (s.asctlWord a 2) 0 8)
/-- The export table and its number of entries. -/
def Device.asExports (s : Device) (a : Nat) : Nat × Nat := (bitField (s.asctlWord a 3) 13 33 * 8192, bitField (s.asctlWord a 3) 0 6)

/-! ## Table walks (R334 to R337) -/

/-- Whether a physical address lies in device memory. -/
def inDevice (pa : Nat) : Bool := decide (pa < 2 ^ 39)

/-- The index of a virtual address at a level (R334). -/
def vaIndex (va level : Nat) : Nat := if level = 0 then bitField va 16 5 else bitField va (12 + 9 * level) 9

/-- A leaf of a page table: its two words and the number of low address bits of its page. -/
structure Leaf where
  word0 : Dbl
  word1 : Dbl
  bits : Nat
  at_ : Nat
deriving DecidableEq, Repr

/-- The frame of a leaf: PFN as an address. -/
def leafFrame (w0 : Nat) : Nat := bitField w0 16 30 * 65536
/-- The target of a physical address (R333). -/
def paTarget (pa : Nat) : Nat := bitField pa 44 2
/-- RES of a leaf. -/
def leafRes (w0 : Nat) : Bool := bitAt w0 61
/-- MIG of a leaf. -/
def leafMig (w0 : Nat) : Bool := bitAt w0 60
/-- SW of a leaf. -/
def leafSw (w0 : Nat) : Nat := bitField w0 54 4
/-- IM of a leaf. -/
def leafIm (w0 : Nat) : Nat := bitField w0 52 2

/-- Whether a pointer entry at a level breaks R335 or R337. -/
def badPointer (w0 w1 level : Nat) : Bool :=
  level == 0 || bitField w0 46 16 != 0 || bitField w0 0 9 != 0 || w1 != 0 || !inDevice (bitField w0 9 37 * 512) ||
    (level != 1 && bitField w0 9 4 != 0)

/-- Whether a leaf entry at a level breaks R336 or R337. -/
def badLeaf (w0 w1 level : Nat) : Bool :=
  let pa := leafFrame w0
  decide (level ≥ 2) || bitField w1 46 18 != 0 || bitField w1 0 16 != 0 || bitField w0 58 2 != 0 || bitField w0 46 3 != 0 ||
    bitField w0 0 16 != 0 || leafIm w0 == 3 || paTarget pa == 3 ||
    (paTarget pa == 0 && bitField pa 39 5 != 0) || (paTarget pa != 0 && (leafIm w0 != 0 || leafSw w0 != 0)) ||
    (level == 1 && bitField pa 16 5 != 0)

/-- The walk from the table at `base` of level `n - 1` down (R334): the leaf, or the cause and level of R337. -/
def Device.walkFrom (s : Device) (va base : Nat) : Nat → Except (Nat × Nat) Leaf
  | 0 => .error (3, 0)
  | n + 1 =>
    if inDevice base = false then .error (3, n)
    else
      let at_ := base + 16 * vaIndex va n
      let w0 := (s.tableWord at_).toNat
      let w1 := (s.tableWord (at_ + 8)).toNat
      if bitAt w0 63 = false then .error (2, n)
      else if bitAt w0 62 then
        if badLeaf w0 w1 n then .error (3, n)
        else .ok { word0 := dbl w0, word1 := dbl w1, bits := if n = 0 then 16 else 21, at_ := at_ }
      else if badPointer w0 w1 n then .error (3, n)
      else s.walkFrom va (bitField w0 9 37 * 512) n

/-- The addresses of the entries that such a walk reads. -/
def Device.walkReads (s : Device) (va base : Nat) : Nat → List Nat
  | 0 => []
  | n + 1 =>
    if inDevice base = false then []
    else
      let at_ := base + 16 * vaIndex va n
      let w0 := (s.tableWord at_).toNat
      let w1 := (s.tableWord (at_ + 8)).toNat
      at_ :: (if bitAt w0 63 = false ∨ bitAt w0 62 = true ∨ badPointer w0 w1 n = true then []
        else s.walkReads va (bitField w0 9 37 * 512) n)

/-- The locations of the lines that a walk of an address space reads. -/
def Device.walkLines (s : Device) (asid va : Nat) : List Nat :=
  if s.asEnabled asid then (s.walkReads va (s.asRoot asid) 4).map (fun a => dramMap a 0 0) else []

/-- The walk of an address space (R334). -/
def Device.walk (s : Device) (asid va : Nat) : Except (Nat × Nat) Leaf :=
  if s.asEnabled asid then s.walkFrom va (s.asRoot asid) 4 else .error (1, 3)

/-! ## Rights and outcomes (R337) -/

/-- The rights an access needs. -/
structure Rights where
  r : Bool
  w : Bool
  x : Bool
deriving DecidableEq, Repr

/-- Reads of a copy. -/
def rightsR : Rights := { r := true, w := false, x := false }
/-- Writes of a copy. -/
def rightsW : Rights := { r := false, w := true, x := false }
/-- A global atomic. -/
def rightsRw : Rights := { r := true, w := true, x := false }
/-- Instruction fetch. -/
def rightsX : Rights := { r := false, w := false, x := true }

/-- Whether a leaf has the rights. -/
def Rights.allowed (x : Rights) (w0 : Nat) : Bool :=
  (!x.r || bitAt w0 51) && (!x.w || bitAt w0 50) && (!x.x || bitAt w0 49)

/-- The level of a page's leaf. -/
def pageLevel (bits : Nat) : Nat := if bits = 16 then 0 else 1

/-- The translation of a virtual address by a leaf (R336). -/
def leafAddr (w0 bits va : Nat) : GAddr := { pa := leafFrame w0 / 2 ^ bits * 2 ^ bits + va % 2 ^ bits, im := leafIm w0, sw := leafSw w0 }

/-- The TLB of a core's copy engine. -/
def Device.tlb (s : Device) (core : Nat) : List TlbEntry := Assoc.get [] s.tlbs core

/-- Whether an entry translates an address of a space (R340). -/
def TlbEntry.hits (e : TlbEntry) (asid va : Nat) : Bool := !e.dying && e.asid == asid && e.page == va / 2 ^ e.bits

/-- What an access finds (R337, R340, R417): its translation, or the event code, reason and level. -/
def Device.translate (s : Device) (core asid va : Nat) (x : Rights) : Except (Nat × Nat × Nat) GAddr :=
  if s.asEnabled asid = false then .error (15, 1, 3)
  else
    match (s.tlb core).find? (fun e => e.hits asid va) with
    | some e => if x.allowed e.word0.toNat then .ok (leafAddr e.word0.toNat e.bits va) else .error (15, 4, pageLevel e.bits)
    | none =>
      match s.walk asid va with
      | .error (c, l) => .error (15, c, l)
      | .ok f =>
        if x.allowed f.word0.toNat = false then .error (15, 4, pageLevel f.bits)
        else if leafRes f.word0.toNat = false then .error (16, 0, pageLevel f.bits)
        else .error (17, 0, 0)

/-- The TLB with the entry that translates an address marked as used now. -/
def Device.touchTlb (s : Device) (core asid va : Nat) : Device :=
  let l := (s.tlb core).map (fun e => if e.hits asid va then { e with used := s.mill } else e)
  { s with tlbs := Assoc.set [] s.tlbs core l }

/-- A translation of an access that must not reach a peer: peer memory is reached only by CPYU (R348), so the access
lacks a right. -/
def notPeer (r : Except (Nat × Nat × Nat) GAddr) : Except (Nat × Nat × Nat) GAddr :=
  match r with
  | .ok g => if paTarget g.pa = 2 then .error (15, 4, 0) else .ok g
  | .error e => .error e

/-- A virtual address of 48 bits. -/
def va48 (a : Nat) : Nat := a % 2 ^ 48

/-- The address space of the issuing context. -/
def Device.asid (s : Device) : Nat := s.curLaunch.asid

/-- Whether a route's entry is valid (R346). -/
def Device.routeValid (s : Device) (e : Nat) : Bool := bitAt (Assoc.get 0 s.route e).toNat 63

/-- A translation of an untimed copy: the route entry of a peer's memory must be valid (R348). -/
def Device.viaRoute (s : Device) (r : Except (Nat × Nat × Nat) GAddr) : Except (Nat × Nat × Nat) GAddr :=
  match r with
  | .ok g => if paTarget g.pa = 2 ∧ s.routeValid (bitField g.pa 38 6) = false then .error (15, 6, 0) else .ok g
  | .error e => .error e

/-- An access at issue by the issuing core's copy engine (R243, R337): the translation, or its event; `peers` when the
access may reach a peer's memory. -/
def translateAt (peers : Bool) (va : Nat) (x : Rights) (s : Device) : Except Ev (GAddr × Device) :=
  let r := s.translate s.issue.core s.asid va x
  match (if peers then s.viaRoute r else notPeer r) with
  | .ok g => .ok (g, s.touchTlb s.issue.core s.asid va)
  | .error (c, r, l) => .error (s.ev c r va (if c = 17 then 0 else l) 0 0)

/-- The accesses of some virtual addresses, one after another. -/
def translateAll (peers : Bool) (x : Rights) : List Nat → Device → Except Ev (List (Nat × GAddr) × Device)
  | [], s => .ok ([], s)
  | a :: t, s => do
    let (g, s) ← translateAt peers a x s
    let (l, s) ← translateAll peers x t s
    .ok ((a, g) :: l, s)

/-! ## In-flight requests and installs (R303, R340) -/

/-- The address space of a context by its key. -/
def Device.keyAsid (s : Device) (key : Nat) : Nat := (s.launch (key / 640)).asid

/-- The pages, as triples of a core, an address space and a number of 64 KiB pages, that the buffered effects and timed
copies of some contexts use. -/
def Device.reamPages (s : Device) (mine : Nat → Bool) : List (Nat × Nat × Nat) :=
  ((s.ctxs.filter (fun p => mine p.1)).map (fun p =>
      (p.2.live.store.map (fun b => b.pages.map (fun g => (p.1 % 640, s.keyAsid p.1, g)))).flatten)).flatten ++
    (s.copies.map (fun p => match p.2 with
      | none => []
      | some c => if mine c.key = true ∧ (s.launch (c.key / 640)).tick ≤ c.until_ then
          c.pages.map (fun g => (c.key % 640, s.keyAsid c.key, g)) else [])).flatten

/-- The pages that requests in flight use, the effects of commits whose entries still wait for their queues among them. -/
def Device.busyPages (s : Device) : List (Nat × Nat × Nat) :=
  s.reamPages (fun _ => true) ++
    (s.ucopies.map (fun p => match p.2 with
      | none => []
      | some c => if c.started then
          ((c.srcPages ++ c.dstPages).map (fun q => (c.key % 640, c.asid, q.1 / 65536))) else [])).flatten ++
    (s.commits.filter (fun c => !c.pending.isEmpty)).flatMap (fun c => c.pages)

/-- Whether an entry of a core's TLB translates one of some pages. -/
def TlbEntry.serves (e : TlbEntry) (core : Nat) (l : List (Nat × Nat × Nat)) : Bool :=
  l.any (fun p => p.1 == core && p.2.1 == e.asid && p.2.2 * 65536 / 2 ^ e.bits == e.page)

/-- Whether a request in flight uses an entry of a core's TLB. -/
def Device.entryBusy (s : Device) (core : Nat) (e : TlbEntry) : Bool := e.serves core s.busyPages

/-- The least recently used entry of a list that satisfies a test. -/
def leastUsed (free : TlbEntry → Bool) : List TlbEntry → Option TlbEntry
  | [] => none
  | e :: t =>
    match leastUsed free t with
    | none => if free e then some e else none
    | some f => if free e && decide (e.used ≤ f.used) then some e else some f

/-- Whether an entry lies within a scope (R341, R397). -/
def TlbEntry.within (e : TlbEntry) (sc : Scope) (asid page : Nat) : Bool :=
  match sc with
  | .page => e.asid == asid && e.page == page * 65536 / 2 ^ e.bits
  | .space => e.asid == asid
  | .all => true

/-- A TLB without the dying entries that no request uses. -/
def Device.reapTlb (s : Device) (core : Nat) : Device :=
  { s with tlbs := Assoc.set [] s.tlbs core ((s.tlb core).filter (fun e => !e.dying || s.entryBusy core e)) }

/-- The entries of a core's TLB within a scope removed; those in use serve only the requests that use them until the last
of these ends (R397, R303). -/
def invalidate (core : Nat) (sc : Scope) (asid page : Nat) (s : Device) : Device :=
  let l := (s.tlb core).map (fun e => if e.within sc asid page then { e with dying := true } else e)
  ({ s with tlbs := Assoc.set [] s.tlbs core l } : Device).reapTlb core

/-- Whether two pages of one address space overlap. -/
def TlbEntry.overlaps (e g : TlbEntry) : Bool :=
  g.asid == e.asid && (g.page * 2 ^ g.bits / 2 ^ e.bits == e.page || e.page * 2 ^ e.bits / 2 ^ g.bits == g.page)

/-- A translation installed in a core's TLB (R340); none while every entry carries a request. A walk that finds no resident leaf
installs nothing (R417). What overlaps the new page is removed; an entry that carries a request stays for it until it ends. -/
def tlbInstall (core asid va : Nat) (s : Device) : Option Device :=
  match s.walk asid va with
  | .error _ => some s
  | .ok f =>
    if leafRes f.word0.toNat = false then some s
    else
      let e : TlbEntry := { asid := asid, page := va / 2 ^ f.bits, bits := f.bits, word0 := f.word0, used := s.mill, dying := false }
      let rest := ((s.tlb core).map (fun g => if e.overlaps g then { g with dying := true } else g)).filter (fun g =>
        !g.dying || s.entryBusy core g)
      if rest.length < 256 then some { s with tlbs := Assoc.set [] s.tlbs core (rest ++ [e]) }
      else
        (leastUsed (fun g => !s.entryBusy core g) rest).map (fun g =>
          { s with tlbs := Assoc.set [] s.tlbs core (rest.filter (fun h => h != g) ++ [e]) })

/-! ## Memory behind a physical address (R333) -/

/-- A physical address `n` bytes further. -/
def GAddr.plus (g : GAddr) (n : Nat) : GAddr := { g with pa := g.pa + n }

/-- Bytes within one line of device or host memory at a translated address. -/
def Device.lineAt (s : Device) (g : GAddr) (n : Nat) : List Byte :=
  if paTarget g.pa = 0 then ((lineBytes (s.lineOr (dramMap g.pa g.im g.sw))).drop (g.pa % 64)).take n
  else Memory.readBytes s.hostMem (g.pa % 2 ^ 44) n

/-- Bytes of device or host memory at a translated address. -/
def Device.physBytes (s : Device) (g : GAddr) (n : Nat) : List Byte :=
  if paTarget g.pa = 0 then s.devBytes g.pa g.im g.sw n else Memory.readBytes s.hostMem (g.pa % 2 ^ 44) n

end Sys2Proof.Machine
end

