-- ==== Sys2Proof/Machine/Fetch.lean ====
section
/-! DEFINITION. The fetch path (R304, R338): the words of a bundle, translated under the issuing context's address
space by its core's copy engine. -/

namespace Sys2Proof.Machine

/-- A fetch event: its address, and the event's code, reason and level (R338). -/
structure FetchEv where
  va : Nat
  code : Nat
  reason : Nat
  level : Nat
deriving DecidableEq, Repr

/-- The word at a virtual address. An address beyond 48 bits is unmapped. -/
def Device.fetchWord (s : Device) (core asid va : Nat) : Except FetchEv Nat :=
  if va ≥ 2 ^ 48 then .error { va := va, code := 15, reason := 2, level := 3 }
  else
    match notPeer (s.translate core asid va rightsX) with
    | .error (c, r, l) => .error { va := va, code := c, reason := r, level := l }
    | .ok g => .ok (ofBytes (if g.pa % 64 ≤ 60 then s.lineAt g 4 else s.physBytes g 4))

/-- The bundle at an address as DecodeBundle finds it (R55). -/
def Device.fetchBundle (s : Device) (core asid pc : Nat) : Except FetchEv Scan :=
  scanBundle (fun i => s.fetchWord core asid (pc + 4 * i))

/-- A fetch event as an event of the slot being issued. -/
def Device.fetchFault (s : Device) (f : FetchEv) : Ev := s.ev f.code f.reason f.va (if f.code = 17 then 0 else f.level) 0 0

end Sys2Proof.Machine
end

