-- ==== Sys2Proof/Machine/Log.lean ====
section
/-! DEFINITION. Error records and the error log (R378 to R381). -/

namespace Sys2Proof.Machine

/-- Where an event stands: its context, bundle address and sheet tick (R378). -/
structure Where where
  pc : Nat
  tick : Nat
  asid : Nat
  lslot : Nat
  core : Nat
deriving DecidableEq, Repr

/-- Where a device event stands (R378). -/
def Where.device : Where := { pc := 0, tick := 0, asid := 0, lslot := 0x1FF, core := 0x3FF }

/-- What is known of an event's outcome at detection: its class, and whether the launch ends or the ream aborts. -/
structure Verdict where
  cls : Nat
  ends : Bool
  replay : Bool
deriving DecidableEq, Repr

/-- A class without further outcome. -/
def Verdict.note (cls : Nat) : Verdict := { cls := cls, ends := false, replay := false }

/-- A 64-byte error record (R378). -/
def recordOf (e : Ev) (w : Where) (v : Verdict) (mill : Nat) (lost : Bool) : BitVec 512 :=
  BitVec.ofNat 512
    (e.aux % 256 * 2 ^ 2 + e.slot % 8 * 2 ^ 10 + w.core % 1024 * 2 ^ 13 + w.lslot % 512 * 2 ^ 23 + w.asid % 256 * 2 ^ 32 +
      bitOf lost * 2 ^ 41 + bitOf v.replay * 2 ^ 42 + bitOf v.ends * 2 ^ 43 + e.reason % 256 * 2 ^ 44 +
      v.cls % 16 * 2 ^ 52 + e.code % 256 * 2 ^ 56 + mill % 2 ^ 64 * 2 ^ 64 + w.tick % 2 ^ 64 * 2 ^ 128 +
      w.pc % 2 ^ 64 * 2 ^ 192 + e.i0 % 2 ^ 64 * 2 ^ 256 + e.i1 % 2 ^ 64 * 2 ^ 320 + e.i2 % 2 ^ 64 * 2 ^ 384 +
      e.i3 % 2 ^ 64 * 2 ^ 448)

/-- A field of a record. -/
def recField (r : BitVec 512) (lo n : Nat) : Nat := bitField r.toNat lo n

/-- The log with a record at its place: after every record but those of the same mill tick with a greater CORE (R381). -/
def insertRecord (r : BitVec 512) : List (BitVec 512) → List (BitVec 512)
  | [] => [r]
  | h :: t =>
    if recField h 64 64 = recField r 64 64 ∧ recField h 13 10 > recField r 13 10 then r :: h :: t
    else h :: insertRecord r t

/-- An event's record written, and the record; a full log drops it (R381). -/
def Device.record (s : Device) (e : Ev) (w : Where) (v : Verdict) : Device × BitVec 512 :=
  let r := recordOf e w v s.mill s.lostNow
  if s.log.length ≥ 1024 then ({ s with logLost := s.logLost + 1, lostNow := true }, r)
  else ({ s with log := insertRecord r s.log, lostNow := false }, r)

/-- An event without a slot. -/
def evOf (code reason i0 i1 i2 i3 : Nat) : Ev :=
  { code := code, reason := reason, i0 := i0, i1 := i1, i2 := i2, i3 := i3, aux := 0, slot := 0 }

/-- A record without further outcome. -/
def Device.note (s : Device) (cls : Nat) (w : Where) (e : Ev) : Device := (s.record e w (Verdict.note cls)).1

/-- A device event of class 6 (R377). -/
def Device.deviceEvent (s : Device) (e : Ev) : Device := s.note 6 Where.device e

/-- The issuing bundle's place. -/
def Device.here (s : Device) : Where :=
  { pc := s.issue.pc, tick := s.issue.tick, asid := s.curLaunch.asid, lslot := s.issue.l, core := s.issue.core }

/-- A record with HANDLED set (R393). -/
def setHandled (r : BitVec 512) : BitVec 512 := r ||| BitVec.ofNat 512 (2 ^ 40)

/-- A record with END or REPLAY set as its event has turned out. -/
def setVerdict (r : BitVec 512) (v : Verdict) : BitVec 512 := r ||| BitVec.ofNat 512 (bitOf v.replay * 2 ^ 42 + bitOf v.ends * 2 ^ 43)

/-- The record of an event that was detected before, with what its outcome has turned out to be. -/
def Device.amend (s : Device) (r : BitVec 512) (v : Verdict) : Device × BitVec 512 :=
  if v.ends || v.replay then ({ s with log := s.log.map (fun x => if x = r then setVerdict r v else x) }, setVerdict r v) else (s, r)

/-- How an event comes to its record once its outcome is known. -/
abbrev Recorder := Verdict → Device → Device × BitVec 512

/-- The record of an event that is detected now is written. -/
def recordNow (e : Ev) (w : Where) : Recorder := fun v s => s.record e w v

/-- The record of an event that has waited since its detection is there already (R381). -/
def recordKept (r : BitVec 512) : Recorder := fun v s => s.amend r v

/-- HANDLED set in a record that is still in the log. -/
def Device.markHandled (s : Device) (r : BitVec 512) : Device :=
  { s with log := s.log.map (fun x => if x = r then setHandled x else x) }

/-- The log without its oldest record. -/
def Device.popLog (s : Device) : Device :=
  match s.log with
  | [] => s
  | _ :: t => { s with log := t, logHead := (s.logHead + 1) % 1024 }

end Sys2Proof.Machine
end

