-- ==== Sys2Proof/Machine/Scalar.lean ====
section
/-! DEFINITION. The scalar instructions (R119 to R121): sources read at issue, one result at issue + 1, 3 or 18
(R114). None sets a flag. -/

namespace Sys2Proof.Machine

/-! ## Operations on values -/

/-- A 64-bit left rotation. -/
def rol64 (a : Dbl) (n : Nat) : Dbl := (a <<< n) ||| (a >>> (64 - n))

/-- The number of zero bits above the highest one bit. -/
def clz64 (a : Dbl) : Nat := if a = 0 then 64 else 63 - Nat.log2 a.toNat

/-- The number of zero bits below the lowest one bit, from bit `i` on. -/
def ctzFrom (a : Nat) (i : Nat) : Nat → Nat
  | 0 => i
  | n + 1 => if bitAt a i then i else ctzFrom a (i + 1) n

/-- The number of zero bits below the lowest one bit, 64 for zero. -/
def ctz64 (a : Dbl) : Nat := ctzFrom a.toNat 0 64

/-- The width an `ExtW` names. -/
def extBits : ExtW → Nat
  | .b8 => 8
  | .b16 => 16
  | .b32 => 32

/-- DivRem, unsigned (R119): quotient and remainder. -/
def divRemN (a b : Dbl) : Dbl × Dbl := if b = 0 then (BitVec.allOnes 64, a) else (a / b, a % b)

/-- DivRem, signed (R119): the quotient rounds toward zero and the remainder follows the dividend. -/
def divRemI (a b : Dbl) : Dbl × Dbl :=
  if b = 0 then (BitVec.allOnes 64, a)
  else (BitVec.ofInt 64 (Int.tdiv a.toInt b.toInt), BitVec.ofInt 64 (Int.tmod a.toInt b.toInt))

/-- A condition of CMP (R45). -/
def condHolds (c : Cond) (a b : Dbl) : Bool :=
  match c with
  | .eq => a == b
  | .ne => a != b
  | .lt => a.slt b
  | .ge => !a.slt b
  | .ltn => a.ult b
  | .gen => !a.ult b

/-- The value of an I-format immediate, sign-extended (R46, R47). -/
def immSext : Imm → Dbl
  | .short v => v.signExtend 64
  | .long v => v.signExtend 64

/-- The value of an I-format immediate, zero-extended (R46, R47). -/
def immZext : Imm → Dbl
  | .short v => v.setWidth 64
  | .long v => v.setWidth 64

/-- The value of a U-format immediate: shifted left by 12 and sign-extended from 32 bits (R120). -/
def upperImm (u : BitVec 20) : Dbl := (u.setWidth 32 <<< 12).signExtend 64

/-! ## Shapes -/

/-- A scalar instruction of two sources. -/
def slotBin (n : Nat) (f : Dbl → Dbl → Dbl) (d a b : SReg) (s : Device) : Except Ev Device := do
  let x ← s.srcS a
  let y ← s.srcS b
  landS n d (f x y) s

/-- A scalar instruction of one source. -/
def slotUn (n : Nat) (f : Dbl → Dbl) (d a : SReg) (s : Device) : Except Ev Device := do
  let x ← s.srcS a
  landS n d (f x) s

/-! ## Instructions -/

/-- ADD (R119). -/
def slotAdd (d a b : SReg) : Device → Except Ev Device := slotBin 1 (fun x y => x + y) d a b
/-- SUB (R119). -/
def slotSub (d a b : SReg) : Device → Except Ev Device := slotBin 1 (fun x y => x - y) d a b
/-- AND (R119). -/
def slotAnd (d a b : SReg) : Device → Except Ev Device := slotBin 1 (fun x y => x &&& y) d a b
/-- OR (R119). -/
def slotOr (d a b : SReg) : Device → Except Ev Device := slotBin 1 (fun x y => x ||| y) d a b
/-- XOR (R119). -/
def slotXor (d a b : SReg) : Device → Except Ev Device := slotBin 1 (fun x y => x ^^^ y) d a b
/-- ANDN: A AND NOT B (R119). -/
def slotAndn (d a b : SReg) : Device → Except Ev Device := slotBin 1 (fun x y => x &&& ~~~y) d a b
/-- SHL (R119). -/
def slotShl (d a b : SReg) : Device → Except Ev Device := slotBin 1 (fun x y => x <<< (y.toNat % 64)) d a b
/-- SHR (R119). -/
def slotShr (d a b : SReg) : Device → Except Ev Device := slotBin 1 (fun x y => x >>> (y.toNat % 64)) d a b
/-- SRA (R119). -/
def slotSra (d a b : SReg) : Device → Except Ev Device := slotBin 1 (fun x y => x.sshiftRight (y.toNat % 64)) d a b
/-- ROL (R119). -/
def slotRol (d a b : SReg) : Device → Except Ev Device := slotBin 1 (fun x y => rol64 x (y.toNat % 64)) d a b
/-- MIN, signed (R119). -/
def slotMin (d a b : SReg) : Device → Except Ev Device := slotBin 1 (fun x y => if x.slt y then x else y) d a b
/-- MAX, signed (R119). -/
def slotMax (d a b : SReg) : Device → Except Ev Device := slotBin 1 (fun x y => if x.slt y then y else x) d a b
/-- MINN, unsigned (R119). -/
def slotMinn (d a b : SReg) : Device → Except Ev Device := slotBin 1 (fun x y => if x.ult y then x else y) d a b
/-- MAXN, unsigned (R119). -/
def slotMaxn (d a b : SReg) : Device → Except Ev Device := slotBin 1 (fun x y => if x.ult y then y else x) d a b
/-- CLZ (R119). -/
def slotClz (d a : SReg) : Device → Except Ev Device := slotUn 1 (fun x => dbl (clz64 x)) d a
/-- CTZ (R119). -/
def slotCtz (d a : SReg) : Device → Except Ev Device := slotUn 1 (fun x => dbl (ctz64 x)) d a
/-- POPC (R119). -/
def slotPopc (d a : SReg) : Device → Except Ev Device := slotUn 1 (fun x => dbl (popCount x.toNat 64)) d a
/-- SEXT (R119). -/
def slotSext (d a : SReg) (w : ExtW) : Device → Except Ev Device :=
  slotUn 1 (fun x => dblOfInt (signedOf (extBits w) x.toNat)) d a
/-- ZEXT (R119). -/
def slotZext (d a : SReg) (w : ExtW) : Device → Except Ev Device := slotUn 1 (fun x => dbl (x.toNat % 2 ^ (extBits w))) d a
/-- CMP (R121). -/
def slotCmp (c : Cond) (p : PNum) (a b : SReg) (s : Device) : Except Ev Device := do
  let x ← s.srcS a
  let y ← s.srcS b
  landP 1 p (condHolds c x y) s
/-- PAND (R121). -/
def slotPand (d a b : PNum) (s : Device) : Except Ev Device := landP 1 d (s.srcP a && s.srcP b) s
/-- POR (R121). -/
def slotPor (d a b : PNum) (s : Device) : Except Ev Device := landP 1 d (s.srcP a || s.srcP b) s
/-- PNOT (R121). -/
def slotPnot (d a : PNum) (s : Device) : Except Ev Device := landP 1 d (!s.srcP a) s
/-- SEL (R119). -/
def slotSel (d a b : SReg) (q : PNum) (s : Device) : Except Ev Device :=
  slotBin 1 (fun x y => if s.srcP q then x else y) d a b s
/-- NOP (R120). -/
def slotNop (s : Device) : Except Ev Device := .ok s
/-- MUL (R119). -/
def slotMul (d a b : SReg) : Device → Except Ev Device := slotBin 3 (fun x y => x * y) d a b
/-- MULH (R119). -/
def slotMulh (d a b : SReg) : Device → Except Ev Device :=
  slotBin 3 (fun x y => BitVec.ofInt 64 ((x.toInt * y.toInt) / 2 ^ 64)) d a b
/-- MULHN (R119). -/
def slotMulhn (d a b : SReg) : Device → Except Ev Device := slotBin 3 (fun x y => dbl (x.toNat * y.toNat / 2 ^ 64)) d a b
/-- DIV (R119). -/
def slotDiv (d a b : SReg) : Device → Except Ev Device := slotBin 18 (fun x y => (divRemI x y).1) d a b
/-- DIVN (R119). -/
def slotDivn (d a b : SReg) : Device → Except Ev Device := slotBin 18 (fun x y => (divRemN x y).1) d a b
/-- REM (R119). -/
def slotRem (d a b : SReg) : Device → Except Ev Device := slotBin 18 (fun x y => (divRemI x y).2) d a b
/-- REMN (R119). -/
def slotRemn (d a b : SReg) : Device → Except Ev Device := slotBin 18 (fun x y => (divRemN x y).2) d a b
/-- ADDI (R120). -/
def slotAddi (d a : SReg) (i : Imm) : Device → Except Ev Device := slotUn 1 (fun x => x + (immSext i)) d a
/-- ANDI (R120). -/
def slotAndi (d a : SReg) (i : Imm) : Device → Except Ev Device := slotUn 1 (fun x => x &&& (immZext i)) d a
/-- ORI (R120). -/
def slotOri (d a : SReg) (i : Imm) : Device → Except Ev Device := slotUn 1 (fun x => x ||| (immZext i)) d a
/-- XORI (R120). -/
def slotXori (d a : SReg) (i : Imm) : Device → Except Ev Device := slotUn 1 (fun x => x ^^^ (immZext i)) d a
/-- SHLI (R120). -/
def slotShli (d a : SReg) (n : BitVec 6) : Device → Except Ev Device := slotUn 1 (fun x => x <<< n.toNat) d a
/-- SHRI (R120). -/
def slotShri (d a : SReg) (n : BitVec 6) : Device → Except Ev Device := slotUn 1 (fun x => x >>> n.toNat) d a
/-- SRAI (R120). -/
def slotSrai (d a : SReg) (n : BitVec 6) : Device → Except Ev Device := slotUn 1 (fun x => x.sshiftRight n.toNat) d a
/-- CMPI (R121). -/
def slotCmpi (c : Cond) (p : PNum) (a : SReg) (i : Imm) (s : Device) : Except Ev Device := do
  let x ← s.srcS a
  landP 1 p (condHolds c x (immSext i)) s
/-- MOVI (R120). -/
def slotMovi (d : SReg) (i : Imm) : Device → Except Ev Device := landS 1 d (immSext i)
/-- LUI (R120). -/
def slotLui (d : SReg) (u : BitVec 20) : Device → Except Ev Device := landS 1 d (upperImm u)
/-- ADDPC (R120). -/
def slotAddpc (d : SReg) (u : BitVec 20) (s : Device) : Except Ev Device := landS 1 d (dbl s.issue.pc + upperImm u) s

end Sys2Proof.Machine
end

