-- ==== Sys2Proof/Machine/Address.lean ====
section
/-! DEFINITION. The address instructions (R123, R124), each writing one field at issue + 1. -/

namespace Sys2Proof.Machine

/-- Step (R123): `a` moved by `d` within the window of `w` bytes that holds it. -/
def stepAddr (a : Word) (d : Int) (w : Word) : Word :=
  if w = 0 then BitVec.ofInt 32 ((a.toNat : Int) + d)
  else
    let m := a.toNat % w.toNat
    word (a.toNat - m + (((m : Int) + d) % (w.toNat : Int)).toNat)

/-- The signed 32-bit reading of a double's low word. -/
def lowSigned (x : Dbl) : Int := signedOf 32 x.toNat

/-- AMOV (R124). -/
def slotAmov (d : ANum) (a : SReg) (s : Device) : Except Ev Device := do
  let x ← s.srcS a
  land 1 [.aAddr d (x.setWidth 32)] 0 none s
/-- AADD (R124): the destination's WRAP as it stands at issue. -/
def slotAadd (d a : ANum) (b : SReg) (s : Device) : Except Ev Device := do
  let x ← s.srcS b
  land 1 [.aAddr d (stepAddr (s.srcA a).addr (lowSigned x) (s.srcA d).wrap)] 0 none s
/-- AINC (R124). -/
def slotAinc (d : ANum) (a : SReg) (s : Device) : Except Ev Device := do
  let x ← s.srcS a
  land 1 [.aInc d (x.setWidth 32)] 0 none s
/-- AMOD (R124). -/
def slotAmod (d : ANum) (a : SReg) (s : Device) : Except Ev Device := do
  let x ← s.srcS a
  land 1 [.aWrap d (x.setWidth 32)] 0 none s
/-- AGET (R124). -/
def slotAget (d : SReg) (a : ANum) (f : AField) (s : Device) : Except Ev Device :=
  landS 1 d
    ((match f with
      | .addr => (s.srcA a).addr
      | .inc => (s.srcA a).inc
      | .wrap => (s.srcA a).wrap).setWidth 64) s
/-- AADDI (R124). -/
def slotAaddi (d a : ANum) (i : Imm) (s : Device) : Except Ev Device :=
  land 1 [.aAddr d (stepAddr (s.srcA a).addr (lowSigned (immSext i)) (s.srcA d).wrap)] 0 none s

end Sys2Proof.Machine
end

