-- ==== Sys2Proof/Machine/Operands.lean ====
section
/-! DEFINITION. The operand forms of vector instructions: the modifier word's modes and mask (R50, R92, R116), register
groups in their interleave (R115), and element-wise results. -/

namespace Sys2Proof.Machine

/-! ## Modes -/

/-- The rounding mode: 0 .rne, 1 .rz, 2 .rsr (R92, R93). -/
def rndOf (fctl : Word) : RndSel → Nat
  | .fctl => bitField fctl.toNat 0 2
  | .rne => 0
  | .rz => 1
  | .rsr => 2

/-- The saturation mode (R92, R93). -/
def satOf (fctl : Word) : SatSel → Bool
  | .fctl => bitAt fctl.toNat 2
  | .sat => true
  | .nsat => false

/-- The modes of an instruction, read at issue; stochastic rounding draws with HKEY (R102). -/
def Device.modes (s : Device) (r : RndSel) (t : SatSel) : Modes :=
  let f := s.regs.fctl
  { rnd := rndOf f r, sat := satOf f t, srb := bitField f.toNat 4 2, fz := bitAt f.toNat 3, key := s.regs.hkey }

/-- The modes of a vector instruction. -/
def Device.vmodes (s : Device) (m : VMod) : Modes := s.modes m.rnd m.sat

/-! ## Masks -/

/-- A mask read at issue: its bits, and whether inactive elements are written as zero (R116). -/
abbrev Mask := Option (Nat × Bool)

/-- The mask of a modifier word. -/
def Device.vmask (s : Device) (m : VMod) : Mask :=
  match m.mask with
  | none => none
  | some (r, z) => some ((s.srcM r).toNat, z)

/-- Whether element `i` is active. -/
def Mask.active (m : Mask) (i : Nat) : Bool :=
  match m with
  | none => true
  | some (b, _) => bitAt b i

/-- An element under a mask: its new code and flags when active; zero, or its old code, when not. -/
def maskElem (m : Mask) (i : Nat) (old : Nat) (new : Nat × Flags) : Nat × Flags :=
  match m with
  | none => new
  | some (b, z) => if bitAt b i then new else (if z then 0 else old, 0)

/-- The elements 0 to `n - 1` of a result under a mask. -/
def mapElems (m : Mask) (n : Nat) (old : Nat → Nat) (f : Nat → Nat × Flags) : List (Nat × Flags) :=
  (rangeFrom 0 n).map (fun i => maskElem m i (old i) (f i))

/-- The codes of a list of results. -/
def codesOf (l : List (Nat × Flags)) : List Nat := l.map (fun p => p.1)

/-- The flags of a list of results. -/
def flagsOf (l : List (Nat × Flags)) : Flags := orFlags (l.map (fun p => p.2))

/-! ## Register groups (R115) -/

/-- Element `i` of the logical vector of the `g` registers from `base`, at width `w`. -/
def Device.grpElem (s : Device) (base g w i : Nat) : Nat := velem w (s.srcVn (base + i % g)) (i / g)

/-- The registers of a group, in the interleave, from the elements of its logical vector. -/
def splitGroup (w g : Nat) (l : List Nat) : List VData :=
  let x := ofElems w l
  (rangeFrom 0 g).map (fun r => vdata w ((rangeFrom 0 (4096 / w)).map (fun j => elemAt w x (g * j + r))))

/-- The registers of a group in plain order. -/
def splitPlain (w g : Nat) (l : List Nat) : List VData :=
  (rangeFrom 0 g).map (fun r => vdata w ((l.drop (r * (4096 / w))).take (4096 / w)))

/-- The result of an instruction that writes one register of `w`-bit elements, landing at issue + `n`. -/
def landElems (n w : Nat) (d : VNum) (m : Mask) (f : Nat → Nat × Flags) (s : Device) : Except Ev Device :=
  let r := mapElems m (4096 / w) (fun i => velem w (s.srcV d) i) f
  landV n d (vdata w (codesOf r)) (flagsOf r) s

/-- The result of an instruction that writes a group of `g` registers of `w`-bit elements; one register when `g` is 1. -/
def landGroupElems (n w g : Nat) (d : VNum) (m : Mask) (f : Nat → Nat × Flags) (s : Device) : Except Ev Device :=
  let r := mapElems m (g * (4096 / w)) (fun i => s.grpElem d.val g w i) f
  landGroup n d (splitGroup w g (codesOf r)) (flagsOf r) s

/-- A result that sets no flag. -/
def plain (x : Nat) : Nat × Flags := (x, 0)

/-- The code of an exactly representable value. -/
def exactCode (f : FloatFmt) (x : Exact) : Nat := (deliver modesRne 0 (.fl f) x).1

end Sys2Proof.Machine
end

