-- ==== Sys2Proof/Machine/Vector.lean ====
section
/-! DEFINITION. The vector floating-point instructions but for the special functions (R126, R127, R129, R130). -/

namespace Sys2Proof.Machine

/-! ## Operations on elements -/

/-- An operation's result, and whether it is one of the invalid cases: a NaN that no operand brought. -/
def invalidOf (ops : List Exact) (x : Exact) : Flags := if x = .nan ∧ ¬ ops.contains .nan then fNV else 0

/-- An arithmetic element (R126). -/
def arithElem (md : Modes) (f : FloatFmt) (ctr : Nat) (ops : List Exact) (x : Exact) : Nat × Flags :=
  let (c, fl) := deliverFz md ctr f x
  (c, fl ||| invalidOf ops x)

/-- The order of VMIN and VMAX: −0 below +0 (R126). -/
def ltZero (x y : Exact) : Bool := decide (x.cmp y < 0) || (decide (x.cmp y = 0) && x.isNeg && !y.isNeg)

/-- The lesser of two values, NaN if either is. -/
def minExact (x y : Exact) : Exact := if x = .nan ∨ y = .nan then .nan else if ltZero y x then y else x

/-- The greater of two values, NaN if either is. -/
def maxExact (x y : Exact) : Exact := if x = .nan ∨ y = .nan then .nan else if ltZero x y then y else x

/-- A condition of VCMP on two values (R127). -/
def vcondHolds (c : VCond) (x y : Exact) : Bool :=
  let u := decide (x = .nan) || decide (y = .nan)
  match c with
  | .eq => !u && decide (x.cmp y = 0)
  | .ne => u || decide (x.cmp y ≠ 0)
  | .lt => !u && decide (x.cmp y < 0)
  | .le => !u && decide (x.cmp y ≤ 0)
  | .gt => !u && decide (x.cmp y > 0)
  | .ge => !u && decide (x.cmp y ≥ 0)
  | .un => u
  | .ord => !u

/-- Whether a condition of VCMP is invalid on a NaN operand (R127). -/
def VCond.signals : VCond → Bool
  | .lt => true
  | .le => true
  | .gt => true
  | .ge => true
  | _ => false

/-- VRND of a value: rounded to an integral value, with NX where it differs (R126). -/
def rndElem (md : Modes) (f : FloatFmt) (ctr : Nat) (x : Exact) : Nat × Flags :=
  match x with
  | .fin s n e k =>
    let (q, inexact) := roundAt md ctr n e k 0
    (exactCode f (if q = 0 then .zero s else .fin s q 0 false), if inexact then fNX else 0)
  | y => plain (exactCode f y)

/-- The exact sum of values, with NV for opposite infinities (R129); `none` before the first participant. -/
def sumAll : Option Exact → List Exact → Option Exact
  | acc, [] => acc
  | none, x :: t => sumAll (some x) t
  | some a, x :: t => sumAll (some (a.add x)) t

/-- VREDSUM of the participants: the exact value and its invalid flag (R129); a NaN comes before opposite infinities, and
then sets no flag (DESIGN CHOICE, log 148). -/
def reduceSum (l : List Exact) : Exact × Flags :=
  if l.contains .nan then (.nan, 0)
  else
    match sumAll none l with
    | none => (.zero false, 0)
    | some x => (x, if x = .nan then fNV else 0)

/-- VREDMAX or VREDMIN of the participants (R129). -/
def reduceBy (pick : Exact → Exact → Exact) (none_ : Exact) : List Exact → Exact
  | [] => none_
  | [x] => x
  | x :: t => pick x (reduceBy pick none_ t)

/-! ## Shapes -/

/-- The width of a floating-point element. -/
def fpWidth (e : FpFmt) : Nat := (fmtInfo (fpFloat e)).w

/-- A source element passed through Read (R117). -/
def Device.readElem (s : Device) (md : Modes) (e : FpFmt) (v : VNum) (i : Nat) : Exact :=
  readFz md.fz (fpFloat e) (velem (fpWidth e) (s.srcV v) i)

/-- An arithmetic instruction of two sources and the old destination (R126). -/
def slotArith (op : Exact → Exact → Exact → Exact) (fused : Bool) (e : FpFmt) (d a b : VNum) (m : VMod) (roff : BitVec 16)
    (s : Device) : Except Ev Device :=
  let md := s.vmodes m
  landElems 4 (fpWidth e) d (s.vmask m) (fun i =>
    let x := s.readElem md e a i
    let y := s.readElem md e b i
    let z := s.readElem md e d i
    arithElem md (fpFloat e) (i + roff.toNat * 1024) (if fused then [x, y, z] else [x, y]) (op x y z)) s

/-- An instruction of one source that sets no flag: the exact result's code (R126). -/
def slotSimple (op : Exact → Exact) (e : FpFmt) (d a : VNum) (m : VMod) (s : Device) : Except Ev Device :=
  let md := s.vmodes m
  landElems 4 (fpWidth e) d (s.vmask m) (fun i => plain (exactCode (fpFloat e) (op (s.readElem md e a i)))) s

/-- An instruction of two sources that sets no flag (R126). -/
def slotPick (op : Exact → Exact → Exact) (e : FpFmt) (d a b : VNum) (m : VMod) (s : Device) : Except Ev Device :=
  let md := s.vmodes m
  landElems 4 (fpWidth e) d (s.vmask m) (fun i =>
    plain (exactCode (fpFloat e) (op (s.readElem md e a i) (s.readElem md e b i)))) s

/-- The participants of a reduction: the active elements, and element 0 of the destination with ACC (R129). -/
def Device.participants (s : Device) (md : Modes) (e : FpFmt) (d a : VNum) (m : VMod) (acc : Bool) : List Exact :=
  (if acc then [s.readElem md e d 0] else []) ++
    ((rangeFrom 0 (4096 / fpWidth e)).filter (fun i => (s.vmask m).active i)).map (fun i => s.readElem md e a i)

/-! ## Instructions -/

/-- VADD (R126). -/
def slotVadd (e : FpFmt) (d a b : VNum) (m : VMod) (roff : BitVec 16) : Device → Except Ev Device :=
  slotArith (fun x y _ => x.add y) false e d a b m roff
/-- VSUB (R126). -/
def slotVsub (e : FpFmt) (d a b : VNum) (m : VMod) (roff : BitVec 16) : Device → Except Ev Device :=
  slotArith (fun x y _ => x.sub y) false e d a b m roff
/-- VMUL (R126). -/
def slotVmul (e : FpFmt) (d a b : VNum) (m : VMod) (roff : BitVec 16) : Device → Except Ev Device :=
  slotArith (fun x y _ => x.mul y) false e d a b m roff
/-- VFMA (R126). -/
def slotVfma (e : FpFmt) (d a b : VNum) (m : VMod) (roff : BitVec 16) : Device → Except Ev Device :=
  slotArith (fun x y z => (x.mul y).add z) true e d a b m roff
/-- VFMS (R126). -/
def slotVfms (e : FpFmt) (d a b : VNum) (m : VMod) (roff : BitVec 16) : Device → Except Ev Device :=
  slotArith (fun x y z => (x.mul y).sub z) true e d a b m roff
/-- VMIN (R126). -/
def slotVmin (e : FpFmt) (d a b : VNum) (m : VMod) : Device → Except Ev Device := slotPick minExact e d a b m
/-- VMAX (R126). -/
def slotVmax (e : FpFmt) (d a b : VNum) (m : VMod) : Device → Except Ev Device := slotPick maxExact e d a b m
/-- VCMP (R127): bits at and above the element count are written zero. -/
def slotVcmp (e : FpFmt) (c : VCond) (d : MNum) (a b : VNum) (m : VMod) (s : Device) : Except Ev Device :=
  let md := s.vmodes m
  let r := mapElems (s.vmask m) (4096 / fpWidth e) (fun i => bitField (s.srcM d).toNat i 1) (fun i =>
    let x := s.readElem md e a i
    let y := s.readElem md e b i
    (bitOf (vcondHolds c x y), if VCond.signals c ∧ (x = .nan ∨ y = .nan) then fNV else 0))
  landM 4 d (BitVec.ofNat 1024 (ofElems 1 (codesOf r))) (flagsOf r) s
/-- VABS (R126). -/
def slotVabs (e : FpFmt) (d a : VNum) (m : VMod) : Device → Except Ev Device := slotSimple Exact.abs e d a m
/-- VNEG (R126). -/
def slotVneg (e : FpFmt) (d a : VNum) (m : VMod) : Device → Except Ev Device := slotSimple Exact.neg e d a m
/-- VSEL: bits, without Read (R126). -/
def slotVsel (e : FpFmt) (d a b : VNum) (m : VMod) (selm : MNum) (s : Device) : Except Ev Device :=
  landElems 4 (fpWidth e) d (s.vmask m) (fun i =>
    plain (velem (fpWidth e) (if bitAt (s.srcM selm).toNat i then s.srcV a else s.srcV b) i)) s
/-- VRND (R126). -/
def slotVrnd (e : FpFmt) (d a : VNum) (n : SReg) (m : VMod) (s : Device) : Except Ev Device := do
  let off ← s.srcS n
  let md := s.vmodes m
  landElems 4 (fpWidth e) d (s.vmask m) (fun i => rndElem md (fpFloat e) (i + off.toNat) (s.readElem md e a i)) s
/-- VREDSUM (R129): element 0 draws the counter of element 0 plus the offset. -/
def slotVredsum (e : FpFmt) (d a : VNum) (n : SReg) (m : VMod) (acc : Bool) (s : Device) : Except Ev Device := do
  let off ← s.srcS n
  let md := s.vmodes m
  let (x, nv) := reduceSum (s.participants md e d a m acc)
  let (c, fl) := deliverFz md off.toNat (fpFloat e) x
  landV 6 d (BitVec.ofNat 4096 c) (fl ||| nv) s
/-- VREDMAX (R129). -/
def slotVredmax (e : FpFmt) (d a : VNum) (m : VMod) (acc : Bool) (s : Device) : Except Ev Device :=
  let md := s.vmodes m
  landV 6 d (BitVec.ofNat 4096 (exactCode (fpFloat e) (reduceBy maxExact (.inf true) (s.participants md e d a m acc)))) 0 s
/-- VREDMIN (R129). -/
def slotVredmin (e : FpFmt) (d a : VNum) (m : VMod) (acc : Bool) (s : Device) : Except Ev Device :=
  let md := s.vmodes m
  landV 6 d (BitVec.ofNat 4096 (exactCode (fpFloat e) (reduceBy minExact (.inf false) (s.participants md e d a m acc)))) 0 s

/-! ## Conversions (R130) -/

/-- Whether FZ acts on a format (R100). -/
def fzFormat : FloatFmt → Bool
  | .fp32 => true
  | .bf16 => true
  | .fp16 => true
  | _ => false

/-- The width an element of a format takes in a vector register (R32). -/
def heldFloat (f : FloatFmt) : Nat := if (fmtInfo f).w = 6 then 8 else (fmtInfo f).w

/-- The registers of a group whose elements are `w` bits wide when the narrower side's are `v`. -/
def ratio (w v : Nat) : Nat := if w > v then w / v else 1

/-- A conversion of the logical vectors of two widths, `f` converting a code at an element number (R130). -/
def slotConvert (dw sw : Nat) (f : Nat → Nat → Nat × Flags) (d a : VNum) (m : VMod) (s : Device) : Except Ev Device :=
  landGroupElems 4 dw (ratio dw sw) d (s.vmask m) (fun i => f i (s.grpElem a.val (ratio sw dw) sw i)) s

/-- VCVT between floating-point formats (R130); a result that is subnormal in an FZ format is flushed by R100 under FZ = 1,
also from E5M2 to FP16, which R99 lists as exact (DESIGN CHOICE, log 151). -/
def slotVcvtFp (df sf : FloatFmt) (d a : VNum) (n : SReg) (m : VMod) (s : Device) : Except Ev Device := do
  let off ← s.srcS n
  let md := (s.vmodes m).forPair sf df
  slotConvert (heldFloat df) (heldFloat sf) (fun i c =>
    let x := readFz (md.fz && fzFormat sf) sf c
    if fzFormat df then deliverFz md (i + off.toNat) df x else deliver md (i + off.toNat) (.fl df) x) d a m s

/-- VCVT between integers and floating point (R130). -/
def slotVcvtInt (dir : CvtDir) (i : IntFmt) (f : FpFmt) (d a : VNum) (n : SReg) (m : VMod) (s : Device) : Except Ev Device := do
  let off ← s.srcS n
  let md := s.vmodes m
  match dir with
  | .intToFp =>
    slotConvert (fpWidth f) i.bits (fun k c =>
      deliverFz md (k + off.toNat) (fpFloat f) (exactOfInt (if i.signed then signedOf i.bits c else (c : Int)))) d a m s
  | .fpToInt =>
    slotConvert i.bits (fpWidth f) (fun k c =>
      deliver md (k + off.toNat) (intDest i) (readFz md.fz (fpFloat f) c)) d a m s

end Sys2Proof.Machine
end

