-- ==== Sys2Proof/Machine/VectorInt.lean ====
section
/-! DEFINITION. The vector integer instructions (R131, R132, R134), data movement (R133) and masks (R135). -/

namespace Sys2Proof.Machine

/-- The value of an integer code. -/
def intVal (e : IntFmt) (c : Nat) : Int := if e.signed then signedOf e.bits c else (c : Int)

/-- The least value of an integer format of a width. -/
def intMin (w : Nat) (sg : Bool) : Int := if sg then -(2 ^ (w - 1) : Nat) else 0

/-- The greatest value of an integer format of a width. -/
def intMax (w : Nat) (sg : Bool) : Int := if sg then (2 ^ (w - 1) : Nat) - 1 else (2 ^ w : Nat) - 1

/-- An exact value fitted to a width: clamped with ST, or wrapped (R131). -/
def fitInt (w : Nat) (sg sat : Bool) (x : Int) : Nat × Flags :=
  if sat && decide (x < intMin w sg) then (codeOfInt w (intMin w sg), fST)
  else if sat && decide (intMax w sg < x) then (codeOfInt w (intMax w sg), fST)
  else (codeOfInt w x, 0)

/-- An integer instruction of two sources (R131). -/
def slotInt (f : Int → Int → Nat × Flags) (e : IntFmt) (d a b : VNum) (m : VMod) (s : Device) : Except Ev Device :=
  landElems 2 e.bits d (s.vmask m) (fun i =>
    f (intVal e (velem e.bits (s.srcV a) i)) (intVal e (velem e.bits (s.srcV b) i))) s

/-- A bitwise instruction of two sources. -/
def slotBits (f : Nat → Nat → Nat) (e : IntFmt) (d a b : VNum) (m : VMod) (s : Device) : Except Ev Device :=
  landElems 2 e.bits d (s.vmask m) (fun i => plain (f (velem e.bits (s.srcV a) i) (velem e.bits (s.srcV b) i))) s

/-- A shift: the amount is AMT with IMM, else the element of `b` read as unsigned (R131). -/
def slotShift (f : Nat → Nat → Nat → Nat) (e : IntFmt) (d a b : VNum) (m : VMod) (imm : Bool) (amt : BitVec 6) (s : Device) :
    Except Ev Device :=
  landElems 2 e.bits d (s.vmask m) (fun i =>
    plain (f e.bits (velem e.bits (s.srcV a) i) (if imm then amt.toNat else velem e.bits (s.srcV b) i))) s

/-- A left shift within `w` bits. -/
def shlElem (w a n : Nat) : Nat := if n ≥ w then 0 else a * 2 ^ n % 2 ^ w

/-- A logical right shift within `w` bits. -/
def shrElem (w a n : Nat) : Nat := if n ≥ w then 0 else a / 2 ^ n

/-- An arithmetic right shift within `w` bits. -/
def sraElem (w a n : Nat) : Nat := codeOfInt w (signedOf w a / (2 ^ (if n ≥ w then w else n) : Nat))

/-! ## Instructions -/

/-- VIADD (R131). -/
def slotViadd (e : IntFmt) (d a b : VNum) (m : VMod) (s : Device) : Except Ev Device :=
  slotInt (fun x y => fitInt e.bits e.signed (s.vmodes m).sat (x + y)) e d a b m s
/-- VISUB (R131). -/
def slotVisub (e : IntFmt) (d a b : VNum) (m : VMod) (s : Device) : Except Ev Device :=
  slotInt (fun x y => fitInt e.bits e.signed (s.vmodes m).sat (x - y)) e d a b m s
/-- VIMUL (R131). -/
def slotVimul (e : IntFmt) (d a b : VNum) (m : VMod) (s : Device) : Except Ev Device :=
  slotInt (fun x y => fitInt e.bits e.signed (s.vmodes m).sat (x * y)) e d a b m s
/-- VIMIN (R131). -/
def slotVimin (e : IntFmt) (d a b : VNum) (m : VMod) : Device → Except Ev Device :=
  slotInt (fun x y => plain (codeOfInt e.bits (if y < x then y else x))) e d a b m
/-- VIMAX (R131). -/
def slotVimax (e : IntFmt) (d a b : VNum) (m : VMod) : Device → Except Ev Device :=
  slotInt (fun x y => plain (codeOfInt e.bits (if x < y then y else x))) e d a b m
/-- VSHL (R131). -/
def slotVshl (e : IntFmt) (d a b : VNum) (m : VMod) (imm : Bool) (amt : BitVec 6) : Device → Except Ev Device :=
  slotShift shlElem e d a b m imm amt
/-- VSHR (R131). -/
def slotVshr (e : IntFmt) (d a b : VNum) (m : VMod) (imm : Bool) (amt : BitVec 6) : Device → Except Ev Device :=
  slotShift shrElem e d a b m imm amt
/-- VSRA (R131). -/
def slotVsra (e : IntFmt) (d a b : VNum) (m : VMod) (imm : Bool) (amt : BitVec 6) : Device → Except Ev Device :=
  slotShift sraElem e d a b m imm amt
/-- VAND (R131). -/
def slotVand (e : IntFmt) (d a b : VNum) (m : VMod) : Device → Except Ev Device := slotBits (fun x y => x &&& y) e d a b m
/-- VOR (R131). -/
def slotVor (e : IntFmt) (d a b : VNum) (m : VMod) : Device → Except Ev Device := slotBits (fun x y => x ||| y) e d a b m
/-- VXOR (R131). -/
def slotVxor (e : IntFmt) (d a b : VNum) (m : VMod) : Device → Except Ev Device := slotBits (fun x y => x ^^^ y) e d a b m

/-- The sum of the products of the elements of a lane (R132). -/
def dotSum (e : IntFmt) (a b : VData) : List Nat → Int
  | [] => 0
  | i :: t => intVal e (velem e.bits a i) * intVal e (velem e.bits b i) + dotSum e a b t

/-- VIDOT (R111, R132): 128 lanes, each narrowed once. -/
def slotVidot (e : IntFmt) (d a b : VNum) (m : VMod) (s : Device) : Except Ev Device :=
  let g := 32 / e.bits
  landElems 4 32 d (s.vmask m) (fun j =>
    let acc := velem 32 (s.srcV d) j
    fitInt 32 e.signed true ((if e.signed then signedOf 32 acc else (acc : Int)) +
      dotSum e (s.srcV a) (s.srcV b) (rangeFrom (g * j) g))) s

/-- VWIDEN by a factor (R134). -/
def slotWiden (k : Nat) (e : IntFmt) (d a : VNum) (m : VMod) (s : Device) : Except Ev Device :=
  landGroupElems 2 (k * e.bits) k d (s.vmask m) (fun i =>
    plain (codeOfInt (k * e.bits) (intVal e (velem e.bits (s.srcV a) i)))) s

/-- VNARROW by a factor (R134). -/
def slotNarrow (k : Nat) (e : IntFmt) (d a : VNum) (m : VMod) (s : Device) : Except Ev Device :=
  landElems 2 (e.bits / k) d (s.vmask m) (fun i =>
    fitInt (e.bits / k) e.signed (s.vmodes m).sat (intVal e (s.grpElem a.val k e.bits i))) s

/-- VWIDEN_X2 (R134). -/
def slotVwidenX2 (e : IntFmt) (d a : VNum) (m : VMod) : Device → Except Ev Device := slotWiden 2 e d a m
/-- VWIDEN_X4 (R134). -/
def slotVwidenX4 (e : IntFmt) (d a : VNum) (m : VMod) : Device → Except Ev Device := slotWiden 4 e d a m
/-- VNARROW_D2 (R134). -/
def slotVnarrowD2 (e : IntFmt) (d a : VNum) (m : VMod) : Device → Except Ev Device := slotNarrow 2 e d a m
/-- VNARROW_D4 (R134). -/
def slotVnarrowD4 (e : IntFmt) (d a : VNum) (m : VMod) : Device → Except Ev Device := slotNarrow 4 e d a m

/-! ## Data movement (R133) -/

/-- A movement that writes one register at issue + 3. -/
def slotMove (e : EWidth) (d : VNum) (m : VMod) (f : Nat → Nat) (s : Device) : Except Ev Device :=
  landElems 3 e.bits d (s.vmask m) (fun i => plain (f i)) s

/-- The elements of two vectors one after the other. -/
def catElem (w : Nat) (a b : VData) (i : Nat) : Nat :=
  let n := 4096 / w
  if i < n then velem w a i else if i < 2 * n then velem w b (i - n) else 0

/-- A movement that writes a pair in plain order at issue + 3; at width 4 the mask repeats over the pair (R116). -/
def slotPair (e : EWidth) (d : VNum) (m : VMod) (f : Nat → Nat) (s : Device) : Except Ev Device :=
  let w := e.bits
  let n := 4096 / w
  let r := (rangeFrom 0 (2 * n)).map (fun i =>
    maskElem (s.vmask m) (i % 1024) (catElem w (s.srcV d) (s.srcVn (d.val + 1)) i) (plain (f i)))
  landGroup 3 d (splitPlain w 2 (codesOf r)) 0 s

/-- The index of VPERM for element `i` (R133). -/
def permIndex (s : Device) (e : EWidth) (b : VNum) (i : Nat) : Nat :=
  match e with
  | .w4 => s.grpElem b.val 4 16 i
  | .w8 => s.grpElem b.val 2 16 i
  | .w16 => velem 16 (s.srcV b) i
  | .w32 => velem 32 (s.srcV b) i

/-- VPERM (R133). -/
def slotVperm (e : EWidth) (d a b : VNum) (m : VMod) (s : Device) : Except Ev Device :=
  slotMove e d m (fun i =>
    let x := permIndex s e b i
    if x < 4096 / e.bits then velem e.bits (s.srcV a) x else 0) s
/-- VBCAST (R133): with SCL the source field names a scalar. -/
def slotVbcast (e : EWidth) (d a : VNum) (m : VMod) (scl : Bool) (idx : BitVec 10) (s : Device) : Except Ev Device := do
  if scl then
    let x ← s.srcS a
    slotMove e d m (fun _ => x.toNat % 2 ^ e.bits) s
  else slotMove e d m (fun _ => velem e.bits (s.srcV a) idx.toNat) s
/-- VZIP (R133). -/
def slotVzip (e : EWidth) (d a b : VNum) (m : VMod) (s : Device) : Except Ev Device :=
  slotPair e d m (fun i => velem e.bits (if i % 2 = 0 then s.srcV a else s.srcV b) (i / 2)) s
/-- VUNZIP (R133). -/
def slotVunzip (e : EWidth) (d a b : VNum) (m : VMod) (s : Device) : Except Ev Device :=
  let n := 4096 / e.bits
  slotPair e d m (fun i =>
    catElem e.bits (s.srcV a) (s.srcV b) (if i < n then 2 * i else 2 * (i - n) + 1)) s
/-- VSLIDE (R133). -/
def slotVslide (e : EWidth) (d a b : VNum) (m : VMod) (sh : BitVec 11) (s : Device) : Except Ev Device :=
  slotMove e d m (fun i => catElem e.bits (s.srcV a) (s.srcV b) (i + sh.toNat)) s
/-- VIOTA (R133). -/
def slotViota (e : EWidth) (d : VNum) (a : SReg) (m : VMod) (s : Device) : Except Ev Device := do
  let x ← s.srcS a
  slotMove e d m (fun i => (x.toNat + i) % 2 ^ e.bits) s
/-- VEXT (R133). -/
def slotVext (e : EWidth) (d : SReg) (a : VNum) (b : SReg) (_m : VMod) (sgn : Bool) (s : Device) : Except Ev Device := do
  let i ← s.srcS b
  let c := if i.toNat < 4096 / e.bits then velem e.bits (s.srcV a) i.toNat else 0
  landS 3 d (if sgn then dblOfInt (signedOf e.bits c) else dbl c) s
/-- VINS (R133). -/
def slotVins (e : EWidth) (d : VNum) (a b : SReg) (_m : VMod) (s : Device) : Except Ev Device := do
  let x ← s.srcS a
  let i ← s.srcS b
  landV 3 d
    (if i.toNat < 4096 / e.bits then
      BitVec.ofNat 4096 (setField (s.srcV d).toNat (e.bits * i.toNat) e.bits x.toNat)
    else s.srcV d) 0 s

/-! ## Masks (R135) -/

/-- MAND (R135). -/
def slotMand (d a b : MNum) (_m : VMod) (s : Device) : Except Ev Device := landM 2 d (s.srcM a &&& s.srcM b) 0 s
/-- MOR (R135). -/
def slotMor (d a b : MNum) (_m : VMod) (s : Device) : Except Ev Device := landM 2 d (s.srcM a ||| s.srcM b) 0 s
/-- MNOT (R135). -/
def slotMnot (d a : MNum) (_m : VMod) (s : Device) : Except Ev Device := landM 2 d (~~~s.srcM a) 0 s
/-- MPOP (R135). -/
def slotMpop (d : SReg) (a : MNum) (_m : VMod) (s : Device) : Except Ev Device :=
  landS 2 d (dbl (popCount (s.srcM a).toNat 1024)) s

end Sys2Proof.Machine
end

