-- ==== Sys2Proof/Machine/VectorMisc.lean ====
section
/-! DEFINITION. VHUSK, VPACK, VUNPACK, VLAID and VQNT (R136 to R141), packed blocks (R83 to R86) and laid window
registers (R77 to R82). -/

namespace Sys2Proof.Machine

/-! ## Husk (R136) -/

/-- The key of VHUSK. -/
def huskKey (hk : Bool) (a : SReg) (s : Device) : Except Ev Dbl := if hk then .ok s.regs.hkey else s.srcS a

/-- VHUSK (R136): husk outputs, or a dropout mask with MSK. -/
def slotVhusk (d : BitVec 6) (a b : SReg) (m : VMod) (hk msk : Bool) (wc : EWidth) (p : BitVec 16) (s : Device) :
    Except Ev Device := do
  let k ← huskKey hk a s
  let o ← s.srcS b
  if msk then
    let md : MNum := Fin.ofNat 8 d.toNat
    let r := mapElems (s.vmask m) (4096 / wc.bits) (fun i => bitField (s.srcM md).toNat i 1) (fun i =>
      plain (bitOf (decide (husk k.toNat (o.toNat + i) / 65536 ≥ p.toNat))))
    landM 6 md (BitVec.ofNat 1024 (ofElems 1 (codesOf r))) 0 s
  else landElems 6 32 (vnum d.toNat) (s.vmask m) (fun i => plain (husk k.toNat (o.toNat + i))) s

/-! ## Packed blocks (R83 to R86) -/

/-- PLEN of a block (R84). -/
def packLen (elen nnz w : Nat) : Nat := 1 + ceilDiv elen 64 + ceilDiv (nnz * w) 64

/-- The header of a block (R84). -/
def packHeader (fmt elen nnz w : Nat) : Nat := elen + nnz * 2 ^ 16 + fmt * 2 ^ 32 + packLen elen nnz w * 2 ^ 48

/-- A packed block of codes as one value: header, mask, kept elements (R83). -/
def packBlock (fmt w : Nat) (codes : List Nat) : Nat :=
  let kept := codes.filter (fun c => c != 0)
  let maskBytes := 8 * ceilDiv codes.length 64
  packHeader fmt codes.length kept.length w + ofElems 1 (codes.map (fun c => bitOf (c != 0))) * 2 ^ 64 +
    ofElems w kept * 2 ^ (64 + 8 * maskBytes)

/-- The length in bytes of the block of some codes. -/
def packBytes (w : Nat) (codes : List Nat) : Nat :=
  8 * packLen codes.length (codes.filter (fun c => c != 0)).length w

/-- The index of the lowest set bit of a mask at or above `i`, among `n` bits. -/
def lowestSet (x i : Nat) : Nat → Option Nat
  | 0 => none
  | n + 1 => if bitAt x i then some i else lowestSet x (i + 1) n

/-- The checks of R86 on a block whose first bytes are `x`, against a declared count: the cause and its two numbers. -/
def unpackCheck (x declared : Nat) : Option (Nat × Nat × Nat) :=
  let elen := bitField x 0 16
  let nnz := bitField x 16 16
  let fmt := bitField x 32 5
  let w := fmtWidth fmt
  let plen := bitField x 48 16
  let mbits := 64 * ceilDiv elen 64
  let mask := bitField x 64 mbits
  if ¬ (w = 8 ∨ w = 16 ∨ w = 32) ∨ bitField x 37 11 ≠ 0 ∨ elen = 0 ∨ elen > 8192 ∨ nnz > elen then some (1, fmt, elen)
  else if elen ≠ declared then some (2, elen, declared)
  else if plen ≠ packLen elen nnz w then some (3, plen, packLen elen nnz w)
  else
    match lowestSet mask elen (mbits - elen) with
    | some i => some (4, elen, i)
    | none => if popCount mask elen ≠ nnz then some (5, nnz, popCount mask elen) else none

/-- The elements of a block: the kept values placed at the set bits of the mask from bit `i`, the others zero. -/
def unpackFrom (mask vals w i k : Nat) : Nat → List Nat
  | 0 => []
  | n + 1 => if bitAt mask i then elemAt w vals k :: unpackFrom mask vals w (i + 1) (k + 1) n else 0 :: unpackFrom mask vals w (i + 1) k n

/-- The expanded elements of a checked block (R83). -/
def unpackBlock (x : Nat) : List Nat :=
  let elen := bitField x 0 16
  let mbits := 64 * ceilDiv elen 64
  unpackFrom (bitField x 64 mbits) (x / 2 ^ (64 + mbits)) (fmtWidth (bitField x 32 5)) 0 0 elen

/-- VPACK (R137): an overrun is raised at issue + 6 and the pair keeps its old value. One that will be raised counts as no
result due to land (R35; DESIGN CHOICE, log 123). -/
def slotVpack (d a : VNum) (m : VMod) (pfmt : BitVec 5) (res : BitVec 8) (s : Device) : Except Ev Device :=
  let w := fmtWidth pfmt.toNat
  let codes := (rangeFrom 0 (4096 / w)).map (fun i => if (s.vmask m).active i then velem w (s.srcV a) i else 0)
  let need := packBytes w codes
  if need > 8 * res.toNat then addFlight 6 (.raise (s.ev 8 0 need (8 * res.toNat) 0 0)) s
  else
    let x := packBlock pfmt.toNat w codes
    landGroup 6 d [BitVec.ofNat 4096 x, BitVec.ofNat 4096 (x / 2 ^ 4096)] 0 s

/-- VUNPACK (R138): a failed check is raised at issue + 6 and the destination keeps its old value. One that will be raised
counts as no result due to land (R35; DESIGN CHOICE, log 123). -/
def slotVunpack (d a : VNum) (m : VMod) (s : Device) : Except Ev Device :=
  let x := (s.srcV a).toNat + (s.srcVn (a.val + 1)).toNat * 2 ^ 4096
  let w := fmtWidth (bitField x 32 5)
  match unpackCheck x (if w = 0 then 0 else 4096 / w) with
  | some (c, p, q) => addFlight 6 (.raise (s.ev 9 c p q 0 0)) s
  | none =>
    let v := ofElems w (unpackBlock x)
    landElems 6 w d (s.vmask m) (fun i => plain (elemAt w v i)) s

/-! ## Laid windows (R77 to R82) -/

/-- A field of a laid window register (R81). -/
def lwField (w : BitVec 192) (lo n : Nat) : Nat := bitField w.toNat lo n
/-- MIXC. -/
def lwMixc (w : BitVec 192) : Nat := lwField w 160 32
/-- MIXM. -/
def lwMixm (w : BitVec 192) : Nat := lwField w 128 32
/-- GSPTR. -/
def lwGsptr (w : BitVec 192) : Nat := lwField w 96 32
/-- SPTR. -/
def lwSptr (w : BitVec 192) : Nat := lwField w 64 32
/-- NGRP. -/
def lwNgrp (w : BitVec 192) : Nat := lwField w 46 18
/-- WL. -/
def lwWl (w : BitVec 192) : Nat := lwField w 40 5
/-- KW. -/
def lwKw (w : BitVec 192) : Nat := lwField w 38 2
/-- BOFF. -/
def lwBoff (w : BitVec 192) : Nat := lwField w 0 26
/-- The number of weights. -/
def lwN (w : BitVec 192) : Nat := 64 * lwNgrp w
/-- The bits of the segment. -/
def lwBits (w : BitVec 192) : Nat := lwN w * lwKw w

/-- The register with another BOFF. -/
def lwWithBoff (w : BitVec 192) (b : Nat) : BitVec 192 := BitVec.ofNat 192 (setField w.toNat 0 26 b)

/-- The first condition of R82 that a laid window register breaks, in a partition of `size` bytes. -/
def lwFails (w : BitVec 192) (size : Nat) : Option Nat :=
  if lwMixm w % 2 = 0 ∨ lwSptr w % 8 ≠ 0 ∨ lwNgrp w = 0 ∨ lwWl w < 8 ∨ lwWl w > 16 ∨ lwKw w = 0 ∨
      lwField w 45 1 ≠ 0 ∨ lwField w 26 12 ≠ 0 ∨ lwBoff w % lwKw w ≠ 0 ∨ lwBoff w ≥ lwBits w then some 1
  else if lwWl w > lwBits w then some 2
  else if lwSptr w + lwBits w / 8 > size then some 3
  else if lwGsptr w + lwNgrp w > size then some 4
  else none

/-- The laid window named by an instruction, or the laid-window fault (R82, R140). -/
def Device.laidWindow (s : Device) (q : LwNum) : Except Ev (BitVec 192) :=
  let w := s.regs.lw[q]
  match lwFails w s.curLaunch.spSize with
  | some c => .error (s.ev 10 c q.val 0 0 0)
  | none => .ok w

/-- The window of the weight whose first bit is `pos`, `n` bits of it, through a reader of the segment's bytes (R78). -/
def windowBits (rd : Nat → Byte) (total pos : Nat) : Nat → Nat
  | 0 => 0
  | n + 1 =>
    let p := pos % total
    bitField (rd (p / 8)).toNat (p % 8) 1 + 2 * windowBits rd total (pos + 1) n

/-- The value of weight `idx` of a segment, through readers of its bytes and scales (R78 to R80). -/
def laidExact (w : BitVec 192) (rd sc : Nat → Byte) (idx : Nat) : Exact :=
  let v := laidValue (windowBits rd (lwBits w) (idx * lwKw w) (lwWl w)) (lwMixm w) (lwMixc w)
  laidWeight v (sc (idx / 64)).toNat

/-- The bytes of the segment that the window of weight `idx` lies in. -/
def windowBytes (w : BitVec 192) (idx : Nat) : List Nat :=
  (rangeFrom 0 (lwWl w)).map (fun j => (idx * lwKw w + j) % lwBits w / 8)

/-- A list without repeats, later entries kept out; the lists of lines it serves are short. -/
def distinct : List Nat → List Nat → List Nat
  | acc, [] => acc.reverse
  | acc, x :: t => if acc.contains x then distinct acc t else distinct (x :: acc) t

/-- The physical addresses of the distinct lines that hold some physical byte addresses. -/
def linesOf (l : List Nat) : List Nat := distinct [] (l.map (fun a => a / 64 * 64))

/-- Scratchpad lines read at issue + `n` by the in-flight entry numbered `target`. -/
def captureLines (n target : Nat) (lines : List Nat) (s : Device) : Except Ev Device :=
  addFlight n (.capture target (lines.map (fun a => (spKey s.issue.core a, 64)))) s

/-- The weights of a laid window from the one at BOFF on. -/
def laidIndices (w : BitVec 192) (n : Nat) : List Nat := (rangeFrom 0 n).map (fun e => (lwBoff w / lwKw w + e) % lwN w)

/-- VLAID (R140): the stream lines are read at issue + 1 and the scale lines at issue + 2, by the scratchpad's deckle
station. -/
def slotVlaid (d : VNum) (q : LwNum) (n : SReg) (m : VMod) (adv w32 : Bool) (s : Device) : Except Ev Device := do
  let off ← s.srcS n
  let w ← s.laidWindow q
  let c := if w32 then 128 else 256
  let mk := s.vmask m
  let idx := ((rangeFrom 0 c).zip (laidIndices w c)).filter (fun p => mk.active p.1) |>.map (fun p => p.2)
  let base := s.curLaunch.spPhys s.issue.core 0
  let segL := linesOf ((idx.map (windowBytes w)).flatten.map (fun b => base + lwSptr w + b))
  let scL := linesOf (idx.map (fun i => base + lwGsptr w + i / 64))
  let t := s.seq
  let s ← addFlight 5 (.finish (.laid d w w32 (if adv then some q else none) (s.vmodes m) mk (s.srcV d) off)) s
  let s ← captureLines 1 t segL s
  let s ← captureLines 2 t scL s
  .ok (useLines s.issue.core 2 2 scL (useLines s.issue.core 1 2 segL s))

/-! ## VQNT (R141) -/

/-- The output of VQNT. -/
def qntFmt (fout : BitVec 3) (cb : BitVec 256) : ScaleFmt :=
  match fout.toNat with
  | 0 => .flt .e4m3
  | 1 => .flt .e5m2
  | 2 => .flt .e2m3
  | 3 => .flt .e3m2
  | 4 => .flt .e2m1
  | _ => .cb4 cb

/-- VQNT (R141). -/
def slotVqnt (d a : VNum) (n : SReg) (m : VMod) (fout : BitVec 3) (sin : Bool) (cbx : CbNum) (kreg : KNum) (sb : BitVec 6)
    (s : Device) : Except Ev Device := do
  let off ← s.srcS n
  let md := s.vmodes m
  let f := qntFmt fout s.regs.cb[cbx]
  let e : FpFmt := if sin then .bf16 else .fp32
  let blocks := if sin then 8 else 4
  let r := (rangeFrom 0 blocks).map (fun b =>
    scaleSearch f md (fun j => off.toNat + 32 * b + j) ((rangeFrom (32 * b) 32).map (fun i => s.readElem md e a i)))
  let w := if fout.toNat < 4 then 8 else 4
  let codes := (r.map (fun x => x.codes)).flatten
  land 10
    [.v d 0 512 (vdata w codes),
     .k kreg sb.toNat blocks (BitVec.ofNat 512 (ofElems 8 (r.map (fun x => x.x)) * 2 ^ (8 * sb.toNat)))]
    (orFlags (r.map (fun x => orFlags x.flags))) (some d) s

end Sys2Proof.Machine
end

