-- ==== Sys2Proof/Machine/Tile.lean ====
section
/-! DEFINITION. Type words, dimension variables, unification and tile storage (R88 to R91, R143 to R148), and the
tile-register instructions of major 0x28 (R149 to R157). -/

namespace Sys2Proof.Machine

/-! ## Type words (R88 to R91) -/

/-- RANK of a type word. -/
def tRank (w : Nat) : Nat := bitField w 0 2
/-- Extent field `i`. -/
def tExt (w i : Nat) : Nat := bitField w (2 + 10 * i) 10
/-- FMT. -/
def tFmt (w : Nat) : Nat := bitField w 32 5
/-- LAYOUT: 0 rowm, 1 colm, 2 sp24, 3 pack. -/
def tLayout (w : Nat) : Nat := bitField w 37 3
/-- SBLK. -/
def tSblk (w : Nat) : Nat := bitField w 40 3
/-- SAXIS. -/
def tSaxis (w : Nat) : Nat := bitField w 43 1
/-- SFMT: 0 none, 1 E8M0, 2 FP32. -/
def tSfmt (w : Nat) : Nat := bitField w 44 2
/-- CBX. -/
def tCbx (w : Nat) : Nat := bitField w 46 2

/-- The scale-block length of a code 1 to 5 (R90). -/
def blockLen (sblk : Nat) : Nat := 4 * 2 ^ sblk

/-- An extent field that names a dimension variable (R89). -/
def symbolic (x : Nat) : Bool := bitAt x 9

/-- The field of a malformed extent (R91, check 1). -/
def extCheck (w i : Nat) : Option Nat :=
  let x := tExt w i
  if tRank w ≤ i then (if x = 0 then none else some (2 + i))
  else if symbolic x then (if bitField x 4 5 = 0 then none else some (2 + i))
  else if x = 0 then some (2 + i) else none

/-- The field of the first check of R91 that a type word fails. The rule names no field for an extent that is no multiple
of its block, nor for a laid type that breaks its check: the model reports SAXIS and FMT (DESIGN CHOICE, log 121). -/
def typeCheck (w : Nat) : Option Nat :=
  if tRank w = 0 then (if w = 0 then none else some 1)
  else
    match extCheck w 0, extCheck w 1, extCheck w 2 with
    | some f, _, _ => some f
    | _, some f, _ => some f
    | _, _, some f => some f
    | none, none, none =>
      let x0 := tExt w 0
      let xs := tExt w (tSaxis w)
      if tFmt w > 18 then some 5
      else if tLayout w > 3 ∨ (tLayout w = 1 ∧ tRank w < 2) ∨
          (tLayout w = 2 ∧ (tFmt w = 9 ∨ tFmt w = 10 ∨ (symbolic x0 = false ∧ x0 % 4 ≠ 0))) ∨
          (tLayout w = 3 ∧ ¬ (fmtWidth (tFmt w) = 8 ∨ fmtWidth (tFmt w) = 16 ∨ fmtWidth (tFmt w) = 32)) then some 6
      else if tSblk w > 5 ∨ ((tSblk w = 0) ≠ (tSfmt w = 0)) then some 7
      else if tSaxis w = 1 ∧ (tSblk w = 0 ∨ tRank w < 2) then some 8
      else if tSblk w ≠ 0 ∧ symbolic xs = false ∧ xs % blockLen (tSblk w) ≠ 0 then some 8
      else if tSfmt w = 3 then some 9
      else if tCbx w ≠ 0 ∧ tFmt w ≠ 8 then some 10
      else if tFmt w = 9 ∧ (tRank w > 2 ∨ tLayout w ≠ 0 ∨ tSblk w ≠ 4 ∨ tSaxis w ≠ 0 ∨ tSfmt w ≠ 1) then some 5
      else if bitField w 48 16 ≠ 0 then some 11
      else none

/-- A type word with another field. -/
def setType (w lo n v : Nat) : Nat := setField w lo n v

/-! ## Shape faults (R148) -/

/-- What a failed typing rule reports: the operand and field codes and the two values. -/
structure Shape where
  operand : Nat
  field : Nat
  v1 : Nat
  v2 : Nat
deriving DecidableEq, Repr

/-- The number of an unbound root as a shape fault reports it (R380). -/
def rootValue (r : Nat) : Nat := 2 ^ 63 + r

/-- A failed rule. -/
def shapeErr {α : Type} (operand field v1 v2 : Nat) : Except Shape α :=
  .error { operand := operand, field := field, v1 := v1, v2 := v2 }

/-- A typing rule's result as a slot's: the shape fault carries the major and minor code `mm` (R148, R380). -/
def Device.typed {α : Type} (s : Device) (mm : Nat) : Except Shape α → Except Ev α
  | .ok x => .ok x
  | .error e => .error (s.ev 4 e.field (mm + e.operand) e.v1 e.v2 0)

/-- A major and minor code as INFO0 of a shape fault holds them. -/
def shapeOp (major minor : Nat) : Nat := major * 65536 + minor * 256

/-! ## Dimension variables and unification (R143 to R145) -/

/-- The dimension variables of a context. -/
abbrev Dims := Vector DimVar 16

/-- Resolve (R144), along at most `n` aliases. -/
def resolve (dv : Dims) : Nat → DNum → DNum
  | 0, d => d
  | n + 1, d =>
    match dv[d] with
    | .aliased e => resolve dv n e
    | _ => d

/-- The root of a variable. -/
def rootOf (dv : Dims) (d : DNum) : DNum := resolve dv 16 d

/-- What an extent is (R144): a value, or an unbound root. -/
inductive Term where
  | value (n : Nat)
  | var (r : DNum)
deriving DecidableEq, Repr

/-- Term of a variable. -/
def termVar (dv : Dims) (d : DNum) : Term :=
  let r := rootOf dv d
  match dv[r] with
  | .bound v => .value v.toNat
  | _ => .var r

/-- Term of an extent field (R144). -/
def term (dv : Dims) (x : Nat) : Term := if symbolic x then termVar dv (Fin.ofNat 16 x) else .value (bitField x 0 9)

/-- Whether an extent field resolves to a root. -/
def extRoot (dv : Dims) (x : Nat) (r : DNum) : Bool := symbolic x && decide (rootOf dv (Fin.ofNat 16 x) = r)

/-- CheckScaleAxes on the type words of a list (R145). -/
def scaleAxes (dv : Dims) (r : DNum) (v operand : Nat) : List Nat → Except Shape Unit
  | [] => .ok ()
  | w :: t =>
    if tRank w = 0 then scaleAxes dv r v operand t
    else if tSblk w ≠ 0 ∧ extRoot dv (tExt w (tSaxis w)) r = true ∧ v % blockLen (tSblk w) ≠ 0 then
      shapeErr operand 7 v (blockLen (tSblk w))
    else if tLayout w = 2 ∧ extRoot dv (tExt w 0) r = true ∧ v % 4 ≠ 0 then shapeErr operand 6 v 4
    else scaleAxes dv r v operand t

/-- Unify (R145), with the type words that CheckScaleAxes examines. -/
def unify (types : List Nat) (dv : Dims) (x y : Term) (operand field : Nat) : Except Shape Dims :=
  let bind (v : Nat) (r : DNum) : Except Shape Dims :=
    if v < 1 ∨ v > 65535 then shapeErr operand field v (rootValue r)
    else
      let dv' := dv.set r (.bound (BitVec.ofNat 16 v))
      match scaleAxes dv' r v operand types with
      | .ok _ => .ok dv'
      | .error e => .error e
  match x, y with
  | .value a, .value b => if a ≠ b then shapeErr operand field a b else .ok dv
  | .var a, .var b => if a = b then .ok dv else if a < b then .ok (dv.set b (.aliased a)) else .ok (dv.set a (.aliased b))
  | .value a, .var r => bind a r
  | .var r, .value b => bind b r

/-- The extents `i`, `i + 1`, …, of two types through Unify, `n` of them. -/
def unifyExts (types : List Nat) (a b operand i : Nat) : Nat → Dims → Except Shape Dims
  | 0, dv => .ok dv
  | n + 1, dv => do
    let dv' ← unify types dv (term dv (tExt a i)) (term dv (tExt b i)) operand (2 + i)
    unifyExts types a b operand (i + 1) n dv'

/-- A field of two types that must agree. -/
def sameField (operand field x y : Nat) : Except Shape Unit := if x = y then .ok () else shapeErr operand field x y

/-- Two types unified: the ranks, the extents, then every other field for equality (R145). -/
def unifyTypes (types : List Nat) (dv : Dims) (a b operand : Nat) : Except Shape Dims := do
  sameField operand 1 (tRank a) (tRank b)
  let dv' ← unifyExts (types ++ [a, b]) a b operand 0 (tRank a) dv
  sameField operand 5 (tFmt a) (tFmt b)
  sameField operand 6 (tLayout a) (tLayout b)
  sameField operand 7 (tSblk a) (tSblk b)
  sameField operand 8 (tSaxis a) (tSaxis b)
  sameField operand 9 (tSfmt a) (tSfmt b)
  sameField operand 10 (tCbx a) (tCbx b)
  .ok dv'

/-! ## Resolved types and tile storage (R147, R158) -/

/-- A resolved extent: 1 at and above RANK. -/
def extent (dv : Dims) (w i operand : Nat) : Except Shape Nat :=
  if tRank w ≤ i then .ok 1
  else
    match term dv (tExt w i) with
    | .value v => .ok v
    | .var r => shapeErr operand 13 (rootValue r) 0

/-- The three extents of a type, which must be resolved. -/
def extents (dv : Dims) (w operand : Nat) : Except Shape (Nat × Nat × Nat) :=
  if tRank w = 0 then shapeErr operand 1 0 0
  else do
    let a ← extent dv w 0 operand
    let b ← extent dv w 1 operand
    let c ← extent dv w 2 operand
    .ok (a, b, c)

/-- Where a type's elements lie: the storage rows, their length in bytes, the storage width of an element, and whether
a row spans a register pair. -/
structure Storage where
  rows : Nat
  len : Nat
  sw : Nat
  pair : Bool
  e0 : Nat
  e1 : Nat
  e2 : Nat
deriving DecidableEq, Repr

/-- The storage of a resolved type at a storage width, before any capacity check. A pack type has one row, the block. -/
def storageAt (w sw : Nat) (e : Nat × Nat × Nat) : Storage :=
  let (e0, e1, e2) := e
  let (rows, len) :=
    match tLayout w with
    | 1 => (e0 * e2, ceilDiv (e1 * sw) 8)
    | 2 => (e1 * e2, ceilDiv (e0 * sw) 16)
    | 3 => (1, 8192)
    | _ => (e1 * e2, ceilDiv (e0 * sw) 8)
  { rows := rows, len := len, sw := sw, pair := tLayout w != 3 && decide (256 < len), e0 := e0, e1 := e1, e2 := e2 }

/-- The storage of a type in a tile register (R147); `r` is the register, which a pair type needs even. -/
def tileStorage (dv : Dims) (w : Nat) (r : Nat) (operand : Nat) : Except Shape Storage := do
  let e ← extents dv w operand
  if tFmt w = 9 then shapeErr operand 5 9 0
  else
    let st := storageAt w (heldWidth (tFmt w)) e
    if tLayout w = 3 then .ok st
    else if st.rows > 32 then shapeErr operand 12 st.rows 32
    else if st.len > 512 then shapeErr operand 12 st.len 512
    else if st.pair = true ∧ r % 2 = 1 then shapeErr operand 12 st.len 256
    else .ok st

/-- The elements of the type. -/
def Storage.count (st : Storage) : Nat := st.e0 * st.e1 * st.e2

/-- The storage row and the place in it of the element at a logical linear index (R89, R147); a type of layout sp24 is
indexed by its value array. -/
def Storage.place (st : Storage) (layout i : Nat) : Nat × Nat :=
  if layout = 1 then
    let i0 := i % st.e0
    let i1 := i / st.e0 % st.e1
    let i2 := i / (st.e0 * st.e1)
    (i0 + st.e0 * i2, i1)
  else
    let per := if layout = 2 then ceilDiv st.e0 2 else st.e0
    (i / per, i % per)

/-- The stored elements: the value array of a type of layout sp24 holds half of them. -/
def Storage.stored (st : Storage) (layout : Nat) : Nat := if layout = 2 then st.rows * ceilDiv st.e0 2 else st.count

/-- A tile register's data, or the pair's, as rows: row `j` has 4,096 bits. -/
def tileRow (lo hi : TData) (j : Nat) : Nat := elemAt 2048 lo.toNat j + elemAt 2048 hi.toNat j * 2 ^ 2048

/-- The element codes of a tile in ascending index. -/
def tileCodes (st : Storage) (w : Nat) (rows : Nat → Nat) : List Nat :=
  (rangeFrom 0 (st.stored (tLayout w))).map (fun i =>
    let p := st.place (tLayout w) i
    elemAt st.sw (rows p.1) p.2 % 2 ^ fmtWidth (tFmt w))

/-- The index of the element at a place of a storage row: the inverse of `Storage.place`. -/
def Storage.index (st : Storage) (layout j k : Nat) : Nat :=
  if layout = 1 then j % st.e0 + st.e0 * (k + st.e1 * (j / st.e0))
  else (if layout = 2 then ceilDiv st.e0 2 else st.e0) * j + k

/-- The elements in one storage row. -/
def Storage.perRow (st : Storage) (layout : Nat) : Nat :=
  if layout = 1 then st.e1 else if layout = 2 then ceilDiv st.e0 2 else st.e0

/-- The storage rows of a tile's codes. -/
def tileRows (st : Storage) (w : Nat) (codes : List Nat) : List Nat :=
  let arr := codes.toArray
  (rangeFrom 0 st.rows).map (fun j =>
    ofElems st.sw ((rangeFrom 0 (st.perRow (tLayout w))).map (fun k => arr.getD (st.index (tLayout w) j k) 0)))

/-- The data of the register, or of the pair, that hold some storage rows: bytes outside the rows are zero. -/
def tileData (pair : Bool) (rows : List Nat) : List TData :=
  BitVec.ofNat 65536 (ofElems 2048 rows) ::
    (if pair then [BitVec.ofNat 65536 (ofElems 2048 (rows.map (fun r => r / 2 ^ 2048)))] else [])

/-! ## Type state of the issuing context -/

/-- The type words that CheckScaleAxes examines: those of the tile registers and those the bundle is installing, of its
lower slots and of all that the issue names (R145). -/
def Device.typeWords (s : Device) : List Nat :=
  s.regs.t.toList.map (fun t => t.typ.toNat) ++ s.issue.types ++
    ((s.live.flights.filter (fun f => f.issued == s.issue.tick)).map (fun f =>
      match f.op with
      | .regs ws _ _ => ws.filterMap (fun x => match x with | .ttype _ w _ => some w.toNat | _ => none)
      | _ => [])).flatten

/-- The result at issue + 1 of a dimension variable's write (R146). -/
def markDims (dv : Dims) : List DNum → Device → Except Ev Device
  | [], s => .ok s
  | r :: t, s => do
    let s ← if s.regs.dv[r] = dv[r] then .ok s else addFlight 1 (.regs [.dv r] 0 none) s
    markDims dv t s

/-- The bindings of a rule, seen by the rules of the higher slots (R146). -/
def Device.bindDims (s : Device) (dv : Dims) : Except Ev Device := do
  let s ← markDims dv (List.finRange 16) s
  .ok (s.setRegs { s.regs with dv := dv })

/-- The register, or the pair from it. -/
def pairRegs (r : TNum) (pair : Bool) : List TNum := if pair then [r, tnum (r.val + 1)] else [r]

/-- A type word and tag to a register or pair, at issue + 1. -/
def landType (d : TNum) (pair : Bool) (w : Nat) (tag : Byte) (s : Device) : Except Ev Device :=
  land 1 ((pairRegs d pair).map (fun r => .ttype r (dbl w) (some tag))) 0 none s

/-- A tile's type word and tag at issue + 1 and its data at issue + `n`, to a register or pair (R147, R150). -/
def landTile (n : Nat) (d : TNum) (w : Nat) (tag : Byte) (data : List TData) (flags : Flags) (s : Device) :
    Except Ev Device := do
  let pair := decide (data.length = 2)
  let s ← landType d pair w tag s
  land n (((pairRegs d pair).zip data).map (fun p => .tdata p.1 p.2)) flags none s

/-- A source tile: its type word and the rows of its register or pair. -/
structure Tile where
  typ : Nat
  tag : Byte
  lo : TData
  hi : TData
  st : Storage
deriving DecidableEq, Repr

/-- The source tile in a register, which must be resolved and fit (R147). -/
def Device.tile (s : Device) (r : TNum) (operand : Nat) : Except Shape Tile := do
  let t := s.srcT r
  let st ← tileStorage s.regs.dv t.typ.toNat r.val operand
  .ok { typ := t.typ.toNat, tag := t.tag, lo := t.data,
        hi := if st.pair then (s.srcT (tnum (r.val + 1))).data else 0, st := st }

/-- The bytes that a tile's type stores, in its register or pair, and zeros elsewhere (R147); of a packed block its
PLEN × 8 bytes. -/
def Tile.image (t : Tile) : List TData :=
  if tLayout t.typ = 3 then [BitVec.ofNat 65536 (t.lo.toNat % 2 ^ (64 * bitField t.lo.toNat 48 16))]
  else tileData t.st.pair ((rangeFrom 0 t.st.rows).map (fun j => tileRow t.lo t.hi j % 2 ^ (8 * t.st.len)))

/-- The element codes of a tile. -/
def Tile.codes (t : Tile) : List Nat := tileCodes t.st t.typ (tileRow t.lo t.hi)

/-- The check of R91 on a result's type word. -/
def resultType (w : Nat) : Except Shape Unit :=
  match typeCheck w with
  | some f => shapeErr 0 f w 0
  | none => .ok ()

/-! ## Instructions -/

/-- TTYPE (R151). -/
def slotTtype (t : TNum) (a : SReg) (s : Device) : Except Ev Device := do
  let x ← s.srcS a
  match typeCheck x.toNat with
  | some f => .error (s.ev 4 f (shapeOp 0x28 0 + 6) x.toNat 0 0)
  | none => land 1 [.ttype t x none] 0 none s

/-- A type word with the extents that resolve to at most 511 as constants (R151). -/
def constExts (dv : Dims) (w i : Nat) : Nat → Nat
  | 0 => w
  | n + 1 =>
    match term dv (tExt w i) with
    | .value v => constExts dv (if symbolic (tExt w i) = true ∧ v ≤ 511 then setType w (2 + 10 * i) 10 v else w) (i + 1) n
    | .var _ => constExts dv w (i + 1) n

/-- TGETT (R151). -/
def slotTgett (d : SReg) (t : TNum) (r : Bool) (s : Device) : Except Ev Device :=
  let w := (s.srcT t).typ.toNat
  landS 1 d (dbl (if r then constExts s.regs.dv w 0 (tRank w) else w)) s

/-- TBIND (R152). -/
def slotTbind (v : DNum) (a : SReg) (s : Device) : Except Ev Device := do
  let x ← s.srcS a
  let dv ← s.typed (shapeOp 0x28 2) (unify s.typeWords s.regs.dv (termVar s.regs.dv v) (.value x.toNat) 7 14)
  s.bindDims dv

/-- TBIND.u (R152). -/
def slotTbindU (v u : DNum) (s : Device) : Except Ev Device := do
  let dv ← s.typed (shapeOp 0x28 2) (unify s.typeWords s.regs.dv (termVar s.regs.dv v) (termVar s.regs.dv u) 7 14)
  s.bindDims dv

/-- TFREE (R152). -/
def slotTfree (t : TNum) (s : Device) : Except Ev Device := land 1 [.ttype t 0 (some 0)] 0 none s

/-- TFREE.dv (R152). -/
def slotTfreeDv (v : DNum) (s : Device) : Except Ev Device := do
  let s ← addFlight 1 (.regs [.dv v] 0 none) s
  .ok (s.setRegs { s.regs with dv := s.regs.dv.set v .unbound })

/-- The one unbound root among a type's extents, where exactly one extent resolves to one. -/
def freeExt (dv : Dims) (w : Nat) : Option DNum :=
  match (rangeFrom 0 (tRank w)).filterMap (fun i => match term dv (tExt w i) with | .var r => some r | .value _ => none) with
  | [r] => some r
  | _ => none

/-- The product of a type's resolved extents. -/
def knownCount (dv : Dims) (w : Nat) : Nat :=
  (rangeFrom 0 (tRank w)).foldl (fun n i => match term dv (tExt w i) with | .value v => n * v | .var _ => n) 1

/-- The binding of a reshape's one unbound extent (R153). -/
def reshapeBind (types : List Nat) (dv : Dims) (w count : Nat) : Except Shape Dims :=
  match freeExt dv w with
  | none => .ok dv
  | some r =>
    let n := knownCount dv w
    if n ≠ 0 ∧ count % n = 0 ∧ 1 ≤ count / n ∧ count / n ≤ 65535 then unify types dv (.var r) (.value (count / n)) 6 15
    else .ok dv

/-- A layout that moves elements one by one: rowm or colm. -/
def plainLayout (operand w : Nat) : Except Shape Unit := if tLayout w ≤ 1 then .ok () else shapeErr operand 6 (tLayout w) 0

/-- The typing rule of TRESH (R153): the new bindings and the storage of the result. -/
def reshapeRule (types : List Nat) (dv : Dims) (src : Tile) (w : Nat) (d : TNum) : Except Shape (Dims × Storage) := do
  match typeCheck w with
  | some f => shapeErr 6 f w 0
  | none =>
    sameField 6 5 (tFmt w) (tFmt src.typ)
    sameField 6 9 (tSfmt w) (tSfmt src.typ)
    sameField 6 7 (tSblk w) (tSblk src.typ)
    sameField 6 8 (tSaxis w) (tSaxis src.typ)
    sameField 6 10 (tCbx w) (tCbx src.typ)
    plainLayout 6 w
    plainLayout 1 src.typ
    let dv' ← reshapeBind (types ++ [w]) dv w src.st.count
    let e ← extents dv' w 6
    if e.1 * e.2.1 * e.2.2 ≠ src.st.count then shapeErr 6 15 (e.1 * e.2.1 * e.2.2) src.st.count
    else
      let st ← tileStorage dv' w d.val 0
      .ok (dv', st)

/-- TRESH (R150, R153). -/
def slotTresh (d a : TNum) (b : SReg) (s : Device) : Except Ev Device := do
  let x ← s.srcS b
  let mm := shapeOp 0x28 4
  let src ← s.typed mm (s.tile a 1)
  let (dv, st) ← s.typed mm (reshapeRule s.typeWords s.regs.dv src x.toNat d)
  let s ← s.bindDims dv
  if tLayout x.toNat = 0 ∧ tLayout src.typ = 0 ∧ st.e0 = src.st.e0 then
    if d = a then landType d st.pair x.toNat src.tag s else landTile 4 d x.toNat src.tag src.image 0 s
  else landTile 8 d x.toNat src.tag (tileData st.pair (tileRows st x.toNat src.codes)) 0 s

/-- The elements of a transposed tile: element (j0, j1) is source element (j1, j0) (R154). -/
def transposed (st : Storage) (codes : List Nat) : List Nat :=
  let arr := codes.toArray
  (rangeFrom 0 st.count).map (fun i => arr.getD (i / st.e1 + st.e0 * (i % st.e1)) 0)

/-- The type word of a transposed tile (R154). -/
def transposeType (w : Nat) (lt : Bool) : Except Shape Nat := do
  if tRank w ≠ 2 then shapeErr 1 1 (tRank w) 2
  else
    plainLayout 1 w
    if tSfmt w ≠ 0 then shapeErr 1 9 (tSfmt w) 0
    else
      let x := setType (setType w 2 10 (tExt w 1)) 12 10 (tExt w 0)
      .ok (if lt then setType x 37 3 (1 - tLayout w) else x)

/-- The typing rule of TTRANS (R154): the result's type word and storage. -/
def transposeRule (dv : Dims) (src : Tile) (d : TNum) (lt : Bool) : Except Shape (Nat × Storage) := do
  let w ← transposeType src.typ lt
  let st ← tileStorage dv w d.val 0
  .ok (w, st)

/-- Whether a type word has an extent that is not resolved: a type-only form, which moves no data, takes it as it stands
(R147). -/
def openType (dv : Dims) (w : Nat) : Bool :=
  (rangeFrom 0 (tRank w)).any (fun i => match term dv (tExt w i) with
    | .value _ => false
    | .var _ => true)

/-- TTRANS (R150, R154). -/
def slotTtrans (d a : TNum) (lt : Bool) (s : Device) : Except Ev Device := do
  let mm := shapeOp 0x28 5
  let own := s.srcT a
  if lt = true ∧ d = a ∧ openType s.regs.dv own.typ.toNat = true then
    let w ← s.typed mm (transposeType own.typ.toNat true)
    landType d false w own.tag s
  else
  let src ← s.typed mm (s.tile a 1)
  let (w, st) ← s.typed mm (transposeRule s.regs.dv src d lt)
  if lt then
    if d = a then landType d st.pair w src.tag s else landTile 4 d w src.tag src.image 0 s
  else landTile 8 d w src.tag (tileData st.pair (tileRows st w (transposed src.st src.codes))) 0 s

/-- A floating-point format code among FP32, BF16 and FP16. -/
def wideFloat (f : Nat) : Bool := decide (f ≤ 2)

/-- Whether TCAST converts from one format code to another (R155): a VCVT pair of R49, or an integer to or from FP32,
BF16 or FP16. -/
def castPair (src dst : Nat) : Bool :=
  (decide (src ≤ 7) && decide (dst ≤ 7) && src != dst && (wideFloat src || wideFloat dst)) ||
    (fmtInt src && wideFloat dst) || (wideFloat src && fmtInt dst)

/-- The type word of a tile whose bits TCAST keeps (R155). -/
def recastType (w f : Nat) : Except Shape Nat := do
  let g := tFmt w
  let x := setType w 32 5 f
  if g = 9 ∨ f = 9 ∨ heldWidth f ≠ heldWidth g then shapeErr 1 5 g f
  else
    let x := if f = 8 then x else setType x 46 2 0
    resultType x
    .ok x

/-- The typing rule of TCAST (R155): the result's type word and storage. -/
def castRule (dv : Dims) (src : Tile) (d : TNum) (f : Nat) (re : Bool) : Except Shape (Nat × Storage) := do
  let g := tFmt src.typ
  let w := setType src.typ 32 5 f
  if re then do
    let w ← recastType src.typ f
    let st ← tileStorage dv w d.val 0
    .ok (w, st)
  else if tSfmt src.typ ≠ 0 then shapeErr 1 9 (tSfmt src.typ) 0
  else if castPair g f = false then shapeErr 1 5 g f
  else
    resultType w
    let st ← tileStorage dv w d.val 0
    .ok (w, st)

/-- The codes of a tile's elements; those of a packed block after the checks of R86, against the product of the
extents: the cause of a failed check and its two numbers, or the codes. A block longer than the register reads as zeros
past its end, and one whose header names another format than the type word is expanded at the header's (DESIGN CHOICE,
log 122). -/
def Tile.elements (t : Tile) : Except (Nat × Nat × Nat) (List Nat) :=
  if tLayout t.typ = 3 then
    match unpackCheck t.lo.toNat t.st.count with
    | some c => .error c
    | none => .ok (unpackBlock t.lo.toNat)
  else .ok t.codes

/-- TCAST (R150, R155). The elements of a packed tile are those of its block, and the result is packed again; a block that
fails R86 raises the unpack fault at issue + 8, and a result that does not fit the capacity fault (DESIGN CHOICE, log 11).
Stochastic rounding of a sparse tile counts by the index in the value array (R102; DESIGN CHOICE, log 144), and RE = 1
ignores the fields RND and SAT (R155; DESIGN CHOICE, log 154). -/
def slotTcast (d a : TNum) (f : BitVec 5) (rnd sat : BitVec 2) (re : Bool) (off : BitVec 31) (s : Device) :
    Except Ev Device := do
  let mm := shapeOp 0x28 6
  let own := s.srcT a
  if re = true ∧ d = a ∧ openType s.regs.dv own.typ.toNat = true then
    let w ← s.typed mm (recastType own.typ.toNat f.toNat)
    landType d false w own.tag s
  else
  let src ← s.typed mm (s.tile a 1)
  let (w, st) ← s.typed mm (castRule s.regs.dv src d f.toNat re)
  if re then
    if d = a then landType d st.pair w src.tag s else landTile 4 d w src.tag src.image 0 s
  else
    match src.elements with
    | .error (c, p, q) => addFlight 8 (.raise (s.ev 9 c p q 0 0)) s
    | .ok codes =>
      let md := s.modes (match rnd.toNat with | 0 => .fctl | 1 => .rne | 2 => .rz | _ => .rsr)
        (match sat.toNat with | 0 => .fctl | 1 => .sat | _ => .nsat)
      let g := tFmt src.typ
      let md := md.forCodes g f.toNat
      let r := (codes.zip (rangeFrom 0 codes.length)).map (fun p =>
        deliver md (p.2 + off.toNat) (destOfCode f.toNat) (decodeElem g 0 p.1))
      let out := r.map (fun p => p.1)
      let fl := orFlags (r.map (fun p => p.2))
      if tLayout w = 3 then
        if packBytes (fmtWidth f.toNat) out > 8192 then
          .error (s.ev 4 12 mm (packBytes (fmtWidth f.toNat) out) 8192 0)
        else landTile 8 d w src.tag [BitVec.ofNat 65536 (packBlock f.toNat (fmtWidth f.toNat) out)] fl s
      else landTile 8 d w src.tag (tileData st.pair (tileRows st w out)) fl s

/-- TZERO (R157). -/
def slotTzero (d : TNum) (s : Device) : Except Ev Device := land 2 [.tdata d 0] 0 none s

/-! ## Scale arrays (R90, R156) -/

/-- Bytes of a scale. -/
def scaleBytes (sfmt : Nat) : Nat := if sfmt = 1 then 1 else 4

/-- The number of scales of a type with its extents. -/
def scaleCount (w : Nat) (st : Storage) : Nat :=
  let n := blockLen (tSblk w)
  if tSaxis w = 1 then st.e0 * (st.e1 / n) * st.e2 else st.e0 / n * st.e1 * st.e2

/-- The index in the scale array of the scale of element `i` (R90). -/
def scaleIndex (w : Nat) (st : Storage) (i : Nat) : Nat :=
  let n := blockLen (tSblk w)
  let i0 := i % st.e0
  let i1 := i / st.e0 % st.e1
  let i2 := i / (st.e0 * st.e1)
  if tSaxis w = 1 then i0 + st.e0 * (i1 / n + st.e1 / n * i2) else i0 / n + st.e0 / n * (i1 + st.e1 * i2)

/-- The smallest group of scale registers that holds some bytes. -/
def groupOf (bytes : Nat) : Nat := if bytes ≤ 64 then 1 else if bytes ≤ 128 then 2 else if bytes ≤ 256 then 4 else 8

/-- The bytes of the scale group from `k` that holds an array of `bytes` bytes, or the fault of R156. -/
def scaleGroup (ks : Vector Line 8) (k : KNum) (bytes operand : Nat) : Except Shape (List Byte) :=
  if bytes > 512 then shapeErr operand 12 bytes 512
  else if k.val % groupOf bytes ≠ 0 then shapeErr operand 9 k.val (groupOf bytes)
  else .ok (((List.finRange 8).filter (fun i => k ≤ i && i.val < k.val + groupOf bytes)).map (fun i => lineBytes ks[i])).flatten

/-- The scale numbered `i` of an array of bytes. -/
def scaleAt (sfmt : Nat) (arr : List Byte) (i : Nat) : Nat :=
  if sfmt = 1 then (arr.getD i 0).toNat else ofBytes ((arr.drop (4 * i)).take 4)

/-- An element's value times its scale, and whether the product is a NaN of zero times infinity. -/
def scaledValue (sfmt : Nat) (x : Exact) (sc : Nat) : Exact × Bool :=
  if sfmt = 0 then (x, false)
  else if sfmt = 1 then (mxScale sc x, false)
  else pressProduct x (decodeFloat .fp32 sc)

/-- TEXP's expansion of a scaled or codebook tile (R156). -/
def expandElem (md : Modes) (f : FloatFmt) (w : Nat) (st : Storage) (cb : BitVec 256) (arr : List Byte) (i c : Nat) :
    Nat × Flags :=
  let (x, nv) := scaledValue (tSfmt w) (decodeElem (tFmt w) cb c) (scaleAt (tSfmt w) arr (scaleIndex w st i))
  let (r, fl) := deliver md 0 (.fl f) x
  (r, if nv then fl ||| fNV else fl)

/-- The typing rule of TEXP (R156): the result's type word and storage, and the bytes of the scale group. -/
def expandRule (dv : Dims) (ks : Vector Line 8) (src : Tile) (d : TNum) (k : KNum) (out : Bool) :
    Except Shape (Nat × Storage × List Byte) := do
  let w := src.typ
  if tLayout w = 3 then
    if tSfmt w ≠ 0 then shapeErr 1 9 (tSfmt w) 0
    else if out then shapeErr 1 6 3 1
    else
      let r := setType w 37 3 0
      let st ← tileStorage dv r d.val 0
      .ok (r, st, [])
  else
    plainLayout 1 w
    if tSfmt w = 0 ∧ tFmt w ≠ 8 then shapeErr 1 9 0 0
    else
      let r := setType (setType (setType w 40 8 0) 32 5 (if out then 0 else 1)) 37 3 (tLayout w)
      let arr ← if tSfmt w = 0 then .ok [] else scaleGroup ks k (scaleCount w src.st * scaleBytes (tSfmt w)) 1
      let st ← tileStorage dv r d.val 0
      .ok (r, st, arr)

/-- TEXP (R150, R156). -/
def slotTexp (d a : TNum) (k : KNum) (out : Bool) (s : Device) : Except Ev Device := do
  let mm := shapeOp 0x28 8
  let src ← s.typed mm (s.tile a 1)
  let (w, st, arr) ← s.typed mm (expandRule s.regs.dv s.regs.k src d k out)
  match src.elements with
  | .error (c, p, q) => addFlight 12 (.raise (s.ev 9 c p q 0 0)) s
  | .ok codes =>
    if tLayout src.typ = 3 then landTile 12 d w src.tag (tileData st.pair (tileRows st w codes)) 0 s
    else
      let md := s.modes .rne .fctl
      let cb := s.regs.cb[Fin.ofNat 4 (tCbx src.typ)]
      let r := (codes.zip (rangeFrom 0 codes.length)).map (fun p =>
        expandElem md (if out then .fp32 else .bf16) src.typ src.st cb arr p.2 p.1)
      landTile 12 d w src.tag (tileData st.pair (tileRows st w (r.map (fun p => p.1)))) (orFlags (r.map (fun p => p.2))) s

/-- TMOV (R157): a pair type is copied as a pair; an empty tile is copied as it stands. -/
def slotTmov (d a : TNum) (s : Device) : Except Ev Device := do
  let t := s.srcT a
  if t.typ = 0 then landTile 4 d 0 t.tag [t.data] 0 s
  else
    let mm := shapeOp 0x28 9
    let src ← s.typed mm (s.tile a 1)
    if src.st.pair = true ∧ d.val % 2 = 1 then .error (s.ev 4 12 mm d.val 0 0)
    else landTile 4 d src.typ src.tag src.image 0 s

end Sys2Proof.Machine
end

