-- ==== Sys2Proof/Machine/Region.lean ====
section
/-! DEFINITION. Region headers and the tag promise table (R158, R159, R198, R199), accumulator slots (R17, R330) and the
lease as a press command uses it (R160, R162). -/

namespace Sys2Proof.Machine

/-! ## Region headers (R158) -/

/-- A region header as read: its key and program address, TYPE, TAG, PITCH and DATA. -/
structure Header where
  at_ : Nat
  prog : Nat
  typ : Nat
  tag : Byte
  pitch : Nat
  data : Nat
deriving DecidableEq, Repr

/-- The header in some bytes. -/
def headerOf (at_ prog : Nat) (bytes : List Byte) : Header :=
  let x := ofBytes bytes
  { at_ := at_, prog := prog, typ := bitField x 0 64, tag := BitVec.ofNat 8 (bitField x 64 8), pitch := bitField x 72 12,
    data := bitField x 96 32 }

/-- A header read at issue by requester `who`. -/
def readHeader (a who : Nat) (s : Device) : Except Ev (Header × Device) := do
  let pa ← s.spAddr a 16 16
  .ok (headerOf (spKey s.issue.core pa) a (s.spRead s.issue.core pa 16), useLine s.issue.core pa 0 who s)

/-- A type word read from a header must be well formed (R91). -/
def headerType (w : Nat) : Except Shape Unit :=
  match typeCheck w with
  | some f => shapeErr 5 f w 0
  | none => .ok ()

/-- The tag check of R199 at a header read. -/
def checkTag (h : Header) (s : Device) : Except Ev Device :=
  match s.cur.promises.find? (fun p => p.at_ == h.at_) with
  | none => .ok s
  | some p =>
    match p.tag with
    | some g =>
      if p.tick ≤ s.issue.tick ∧ g = h.tag then
        .ok (s.setCur { s.cur with promises := s.cur.promises.filter (fun q => q.at_ != h.at_) })
      else .error (s.ev 6 3 h.prog p.tick g.toNat h.tag.toNat)
    | none => .error (s.ev 6 3 h.prog p.tick 0 h.tag.toNat)

/-- A promise that a header will be written `n` sheet ticks after issue (R198). -/
def promise (h : Header) (n : Nat) (s : Device) : Except Ev Device :=
  let others := s.cur.promises.filter (fun q => q.at_ != h.at_)
  if others.length ≥ 64 then .error (s.schedule 11 h.prog s.issue.tick)
  else .ok (s.setCur { s.cur with promises := others ++ [{ at_ := h.at_, tick := s.issue.tick + n, tag := none }] })

/-- The limit of 256 on each extent of a logical tile (R158); beyond it a shape fault on the extent's field (DESIGN CHOICE,
log 152). -/
def logicalExtents (operand : Nat) (e : Nat × Nat × Nat) : Except Shape Unit :=
  if e.1 > 256 then shapeErr operand 2 e.1 256
  else if e.2.1 > 256 then shapeErr operand 3 e.2.1 256
  else if e.2.2 > 256 then shapeErr operand 4 e.2.2 256
  else .ok ()

/-- The storage of a resolved type in a region, with six-bit elements packed (R158). -/
def regionStorage (dv : Dims) (w operand : Nat) : Except Shape Storage := do
  let e ← extents dv w operand
  logicalExtents operand e
  if tFmt w = 9 then shapeErr operand 5 9 0 else .ok (storageAt w (fmtWidth (tFmt w)) e)

/-- The lines of a range of physical scratchpad bytes. -/
def spanLines (a n : Nat) : List Nat := if n = 0 then [] else (rangeFrom (a / 64) ((a + n - 1) / 64 - a / 64 + 1)).map (fun l => 64 * l)

/-- The distinct lines of some ranges. -/
def rangesLines (l : List (Nat × Nat)) : List Nat := distinct [] (l.map (fun p => spanLines p.1 p.2)).flatten

/-- Checked ranges of the issuing sheet's partition (R229, R331): the physical addresses. -/
def spRanges (s : Device) (n align : Nat) : List Nat → Except Ev (List Nat)
  | [] => .ok []
  | a :: t => do
    let pa ← s.spAddr a n align
    let r ← spRanges s n align t
    .ok (pa :: r)

/-- Scratchpad ranges read at issue + `n` by the in-flight entry numbered `target`. -/
def captureRanges (n target : Nat) (l : List (Nat × Nat)) (s : Device) : Except Ev Device :=
  addFlight n (.capture target (l.map (fun p => (spKey s.issue.core p.1, p.2)))) s

/-! ## Accumulator slots -/

/-- The key of an accumulator slot of a core by its physical number. -/
def accKey (core slot : Nat) : Nat := core * 128 + slot

/-- The slot of the issuing sheet's partition, or the bounds fault of R331. -/
def Device.accSlot (s : Device) (c : Nat) : Except Ev Nat :=
  if c < s.curLaunch.accn then .ok (accKey s.issue.core ((s.curLaunch.seat s.issue.core).accBase + c))
  else .error (s.ev 13 2 c s.curLaunch.accn 0 0)

/-- An element of an accumulator slot, as an FP32 code. -/
def Device.accRead (s : Device) (slot r n : Nat) : Nat := (Assoc.get 0 s.acc (slot * 8192 + r * 256 + n)).toNat

/-- The type word of a slot; zero when empty. -/
def Device.accTyp (s : Device) (slot : Nat) : Nat := (Assoc.get 0 s.accType slot).toNat

/-- The type fp32 [N, M] rowm of a result (R167). -/
def resultWord (n m : Nat) : Nat := 2 + n * 2 ^ 2 + m * 2 ^ 12

/-! ## Press commands and the lease (R160, R162) -/

/-- Whether the core with a place in its sheaf holds the lease at a sheet tick. -/
def Lease.held (x : Lease) (cis : Fin 4) (t : Nat) : Bool := decide (x.holder = some cis) && decide (t ≤ x.limit)

/-- The lease with `n` commands counted, the last of them at tick `u`; its 64th command ends it (R162). -/
def Lease.spend (x : Lease) (n u : Nat) : Lease :=
  if x.cmds = n then { x with cmds := 0, limit := u, free := u + 2 } else { x with cmds := x.cmds - n }

/-- The lease ended by its holder at tick `t` (R162). -/
def Lease.release (x : Lease) (t : Nat) : Lease := { x with limit := t, free := t + 2 }

/-- The issuing core's place in its sheaf. -/
def Device.place (s : Device) : Fin 4 := Fin.ofNat 4 s.issue.core

/-- The issuing core's sheaf with another lease. -/
def Device.setLease (s : Device) (x : Lease) : Device := s.setSheaf (s.issue.core / 4) { s.curSheaf with lease := x }

/-- `n` press commands counted against the lease, the last of them issuing `m` ticks after issue (R162, R176). -/
def pressCommand (n m : Nat) (s : Device) : Except Ev Device :=
  let x := s.curSheaf.lease
  if x.held s.place s.issue.tick = false ∨ n > x.cmds ∨ s.issue.tick + m > x.limit then .error (s.schedule 3 0 s.issue.tick)
  else .ok (s.setLease (x.spend n (s.issue.tick + m)))

/-- Press resources occupied one by one from issue + `lo` to issue + `hi`. -/
def usePresses (writer : Bool) (lo hi : Nat) : List Nat → Device → Except Ev Device
  | [], s => .ok s
  | r :: t, s => do
    let s ← usePress r writer lo hi s
    usePresses writer lo hi t s

/-- The resource that is buffer `b`. -/
def bufRes (b : Bool) : Nat := if b then 6 else 5

/-- Buffer `b` of a sheaf. -/
def Sheaf.buf (x : Sheaf) (b : Bool) : PressBuf := if b then x.buf1 else x.buf0

/-- The sheaf with buffer `b` replaced. -/
def Sheaf.setBuf (x : Sheaf) (b : Bool) (v : PressBuf) : Sheaf := if b then { x with buf1 := v } else { x with buf0 := v }

end Sys2Proof.Machine
end

