-- ==== Sys2Proof/Machine/Press.lean ====
section
/-! DEFINITION. The press (R160 to R171): stationary loads, streams, and drains. What their in-flight entries do at
their ticks stands in Machine/Landing.lean; the arithmetic both use stands here. -/

namespace Sys2Proof.Machine

/-! ## The lease (R162) -/

/-- LACQ: the request of this tick; the answer comes with the flight of the predicate. -/
def slotLacq (p : PNum) (s : Device) : Except Ev Device := do
  let s ← addFlight 1 (.lacq p) s
  .ok (s.setSheaf (s.issue.core / 4) { s.curSheaf with requests := s.curSheaf.requests ++ [s.place] })

/-- LREL (R162): no effect when the core does not hold the lease. -/
def slotLrel (s : Device) : Except Ev Device :=
  let x := s.curSheaf.lease
  .ok (if x.held s.place s.issue.tick then s.setLease (x.release s.issue.tick) else s)

/-! ## Press operands (R163) -/

/-- The typing rule every press operand meets: rank 2, a press format, the layout named, and scales of 32 along extent 0. -/
def pressType (w operand layout : Nat) : Except Shape Unit :=
  if tRank w ≠ 2 then shapeErr operand 1 (tRank w) 2
  else if tFmt w < 1 ∨ tFmt w > 8 then shapeErr operand 5 (tFmt w) 0
  else if tLayout w ≠ layout then shapeErr operand 6 (tLayout w) layout
  else if tSfmt w ≠ 0 ∧ tSblk w ≠ 3 then shapeErr operand 7 (tSblk w) 3
  else if tSaxis w ≠ 0 then shapeErr operand 8 1 0
  else .ok ()

/-- The scales of an operand of `n` rows of K `k` from the scale group at `kq`, as many bytes as there are (R156). -/
def operandScales (ks : Vector Line 8) (kq : KNum) (w k n operand : Nat) : Except Shape (List Byte) :=
  if tSfmt w = 0 then .ok []
  else do
    let bytes := k / 32 * n * scaleBytes (tSfmt w)
    let arr ← scaleGroup ks kq bytes operand
    .ok (arr.take bytes)

/-! ## Stationary loads (R164 to R166) -/

/-- Ticks of a load of `n` columns. -/
def loadTicks (n : Nat) : Nat := ceilDiv n 4

/-- The load path and buffer `b` occupied by a load. -/
def loadPaths (b : Bool) (n : Nat) (s : Device) : Except Ev Device := usePresses true 0 (loadTicks n - 1) [1, bufRes b] s

/-- The rule of NOFF ≥ 1 (R164): the buffer's fields, K and N against the tile's; CBX must agree as well (DESIGN CHOICE,
log 124). -/
def extendRule (types : List Nat) (dv : Dims) (buf : PressBuf) (w noff : Nat) : Except Shape Dims := do
  let bw := buf.typ.toNat
  if bw = 0 then shapeErr 3 1 0 0
  else
    sameField 3 5 (tFmt bw) (tFmt w)
    sameField 3 6 (tLayout bw) (tLayout w)
    sameField 3 7 (tSblk bw) (tSblk w)
    sameField 3 8 (tSaxis bw) (tSaxis w)
    sameField 3 9 (tSfmt bw) (tSfmt w)
    sameField 3 10 (tCbx bw) (tCbx w)
    let dv ← unify types dv (.value buf.k) (term dv (tExt w 0)) 3 2
    sameField 3 3 buf.n (32 * noff)
    .ok dv

/-- The rule of the metadata tile of modes 1 and 2 on its fields and columns (R164). -/
def metaRule (types : List Nat) (dv : Dims) (w xw : Nat) : Except Shape Dims := do
  sameField 1 9 (tSfmt w) 0
  sameField 2 1 (tRank xw) 2
  sameField 2 5 (tFmt xw) 15
  sameField 2 6 (tLayout xw) 0
  sameField 2 9 (tSfmt xw) 0
  unify types dv (term dv (tExt xw 1)) (term dv (tExt w 1)) 2 3

/-- What a load from tiles needs: the bindings, the tile, its metadata tile, and the scales. -/
structure TileLoad where
  dv : Dims
  src : Tile
  mt : Option Tile
  scales : List Byte

/-- A tile of the context under other bindings. -/
def Device.tileWith (s : Device) (dv : Dims) (r : TNum) (operand : Nat) : Except Shape Tile :=
  (s.setRegs { s.regs with dv := dv }).tile r operand

/-- A tile that fills one register: pairs are for streams against a 2:4 buffer (R167). -/
def singleTile (operand : Nat) (t : Tile) : Except Shape Unit := if t.st.pair then shapeErr operand 12 t.st.len 256 else .ok ()

/-- The typing rule of PLDB from a tile (R164). A dense tile is one of layout rowm, and the metadata of a K that is no
multiple of 4 has Ceil(K / 4) nibbles in a row (DESIGN CHOICE, log 125). -/
def loadRule (s : Device) (t : TNum) (mode : Nat) (x : TNum) (noff : Nat) (k : KNum) (buf : PressBuf) : Except Shape TileLoad := do
  let w := (s.srcT t).typ.toNat
  let xw := (s.srcT x).typ.toNat
  let types := s.typeWords
  pressType w 1 (if mode = 1 then 2 else 0)
  let dv ← if noff = 0 then .ok s.regs.dv else extendRule types s.regs.dv buf w noff
  let dv ← if mode = 0 then .ok dv else metaRule types dv w xw
  let src ← s.tileWith dv t 1
  singleTile 1 src
  let scales ← operandScales s.regs.k k w src.st.e0 src.st.e1 1
  if mode = 0 then .ok { dv := dv, src := src, mt := none, scales := scales }
  else
    let dv ← unify types dv (term dv (tExt xw 0)) (.value (ceilDiv src.st.e0 4)) 2 2
    let mt ← s.tileWith dv x 2
    singleTile 2 mt
    .ok { dv := dv, src := src, mt := some mt, scales := scales }

/-- Row `j` of a tile's one register. -/
def Tile.row (t : Tile) (j : Nat) : BitVec 2048 := BitVec.ofNat 2048 (elemAt 2048 t.lo.toNat j)

/-- The first malformed nibble of some metadata rows of `groups` groups (R165): its row and group. -/
def badNibble (rows : List (BitVec 2048)) (groups : Nat) : Option (Nat × Nat) :=
  ((rangeFrom 0 (rows.length * groups)).find? (fun i =>
    let nb := elemAt 4 (rows.getD (i / groups) 0).toNat (i % groups)
    decide (bitField nb 0 2 ≥ bitField nb 2 2))).map (fun i => (i / groups, i % groups))

/-- The first `n` entries of a list, with `d` after those it has. -/
def firstOr {α : Type} (d : α) (n : Nat) (l : List α) : List α := (l ++ List.replicate n d).take n

/-- A buffer after a load of columns that follow those it holds when the load completes, or that begin it (R164, R183). -/
def PressBuf.extend (old new : PressBuf) : PressBuf :=
  let k := new.n - new.cols.length
  { new with
    cols := firstOr 0 k old.cols ++ new.cols
    scales := firstOr 0 (k * (new.scales.length / new.cols.length)) old.scales ++ new.scales
    metas := firstOr none k old.metas ++ new.metas }

/-- PLDB from a tile (R164, R165). -/
def slotPldb (t : TNum) (mode : BitVec 2) (b : Bool) (x : TNum) (noff : BitVec 3) (k : KNum) (s : Device) : Except Ev Device := do
  let mm := shapeOp 0x29 2
  let s ← pressCommand 1 0 s
  let old := s.curSheaf.buf b
  let ld ← s.typed mm (loadRule s t mode.toNat x noff.toNat k old)
  let n := ld.src.st.e1
  let s ← s.bindDims ld.dv
  let s ← loadPaths b n s
  let cols := (rangeFrom 0 n).map ld.src.row
  let metas := match ld.mt with
    | some m => (rangeFrom 0 n).map m.row
    | none => []
  let buf : PressBuf :=
    { typ := dbl (setType ld.src.typ 12 10 (32 * noff.toNat + n)), k := ld.src.st.e0, n := 32 * noff.toNat + n, tag := ld.src.tag, cols := cols,
      scales := ld.scales, metas := if mode = 0 then cols.map (fun _ => none) else metas.map some }
  match badNibble metas (ceilDiv ld.src.st.e0 4) with
  | some (r, g) => addFlight (loadTicks n) (.bufFail b (s.ev 11 0 x.val r g 0)) s
  | none => addFlight (loadTicks n) (.bufTile b buf) s

/-- The ranges of the rows and scales that are read `d` ticks into a load: those of columns 4d to 4d + 3. -/
def loadRanges (rows : List Nat) (len : Nat) (scales : List Nat) (slen d : Nat) : List (Nat × Nat) :=
  ((rows.drop (4 * d)).take 4).map (fun a => (a, len)) ++ ((scales.drop (4 * d)).take 4).map (fun a => (a, slen))

/-- The captures of a load from scratchpad from issue + `start`, one tick after another. -/
def captureLoad (start target : Nat) (ranges : Nat → List (Nat × Nat)) (d : Nat) : Nat → Device → Except Ev Device
  | 0, s => .ok s
  | n + 1, s => do
    let s ← captureRanges (start + d) target (ranges d) s
    captureLoad start target ranges (d + 1) n (useLines s.issue.core (start + d) 2 (rangesLines (ranges d)) s)

/-- A load of buffer `b` from rows and scales in scratchpad, from issue + `start` on (R164, R176). -/
def loadRegion (start : Nat) (b : Bool) (w k n : Nat) (tag : Byte) (rows : List Nat) (len : Nat) (scales : List Nat)
    (slen : Nat) (s : Device) : Except Ev Device := do
  let id := s.seq
  let key := spKey s.issue.core
  let s ← addFlight (start + loadTicks n) (.finish (.bufRegion b (dbl w) k n tag (rows.map key) len (scales.map key) slen)) s
  captureLoad start id (loadRanges rows len scales slen) 0 (loadTicks n) s

/-- A region that serves as a press operand: its storage, the addresses of its rows, and those of each row's scales with
their length. -/
structure RegionOperand where
  st : Storage
  rows : List Nat
  scales : List Nat
  slen : Nat

/-- The press operand in a region (R158, R163): rank 2 rowm, resolved, with rows that fit `maxLen` bytes and the
pitch. -/
def regionOperand (h : Header) (maxLen mm : Nat) (s : Device) : Except Ev RegionOperand := do
  let st ← s.typed mm (do
    headerType h.typ
    pressType h.typ 5 0
    let st ← regionStorage s.regs.dv h.typ 5
    if st.len > Nat.min maxLen (64 * h.pitch) then shapeErr 5 12 st.len (Nat.min maxLen (64 * h.pitch)) else .ok st)
  let slen := if tSfmt h.typ = 0 then 0 else st.e0 / 32 * scaleBytes (tSfmt h.typ)
  let rows ← spRanges s st.len 64 ((rangeFrom 0 st.rows).map (fun j => h.data + 64 * h.pitch * j))
  let scales ← if slen = 0 then .ok []
    else spRanges s slen 1 ((rangeFrom 0 st.rows).map (fun j => h.data + 64 * h.pitch * st.rows + slen * j))
  .ok { st := st, rows := rows, scales := scales, slen := slen }

/-- PLDB from scratchpad (R164). -/
def slotPldbSp (a : ANum) (b : Bool) (s : Device) : Except Ev Device := do
  let s ← pressCommand 1 0 s
  let (h, s) ← readHeader (s.srcA a).addr.toNat 2 s
  let s ← checkTag h s
  let r ← regionOperand h 256 (shapeOp 0x29 2) s
  let s ← loadPaths b r.st.e1 s
  loadRegion 0 b h.typ r.st.e0 r.st.e1 h.tag r.rows r.st.len r.scales r.slen s

/-- The type word rule of PLAID (R166). -/
def laidLoadType (dv : Dims) (w : Nat) : Except Shape (Nat × Nat) := do
  match typeCheck w with
  | some f => shapeErr 6 f w 0
  | none =>
    sameField 6 1 (tRank w) 2
    sameField 6 5 (tFmt w) 1
    sameField 6 6 (tLayout w) 0
    sameField 6 9 (tSfmt w) 0
    let e ← extents dv w 6
    if e.1 > 128 then shapeErr 6 2 e.1 128
    else if e.2.1 > 256 then shapeErr 6 3 e.2.1 256
    else .ok (e.1, e.2.1)

/-- The index of the weight at row `kk` of column `n` of a laid load. -/
def laidIndex (w : BitVec 192) (k n kk : Nat) : Nat := (lwBoff w / lwKw w + kk + k * n) % lwN w

/-- The scratchpad ranges of the weights of columns `n0` to `n0 + c - 1` of a laid load, byte by byte and line by line. -/
def laidLines (w : BitVec 192) (base k n0 c : Nat) : List Nat :=
  let idx := ((rangeFrom n0 c).map (fun n => (rangeFrom 0 k).map (laidIndex w k n))).flatten
  linesOf ((idx.map (windowBytes w)).flatten.map (fun b => base + lwSptr w + b) ++ idx.map (fun i => base + lwGsptr w + i / 64))

/-- The captures of a laid load, four columns a tick; `flagsTo` also sends them to the entry that raises the flags of the
columns decoded at that tick. -/
def captureLaid (target : Nat) (b : Bool) (w : BitVec 192) (k n : Nat) (sat : Bool) (d : Nat) : Nat → Device → Except Ev Device
  | 0, s => .ok s
  | m + 1, s => do
    let c := Nat.min 4 (n - 4 * d)
    let lines := laidLines w (s.curLaunch.spPhys s.issue.core 0) k (4 * d) c
    let s ← captureLines d target lines s
    let id := s.seq
    let s ← addFlight d (.finish (.laidFlags w k (4 * d) c sat)) s
    let s ← captureLines d id lines s
    captureLaid target b w k n sat (d + 1) m (useLines s.issue.core d 2 lines s)

/-- PLAID (R166). -/
def slotPlaid (q : LwNum) (b : Bool) (t : SReg) (adv : Bool) (s : Device) : Except Ev Device := do
  let s ← pressCommand 1 0 s
  let w ← s.laidWindow q
  let x ← s.srcS t
  let (k, n) ← s.typed (shapeOp 0x29 3) (laidLoadType s.regs.dv x.toNat)
  let s ← loadPaths b n s
  let sat := satOf s.regs.fctl .fctl
  let id := s.seq
  let s ← addFlight (loadTicks n) (.finish (.bufLaid b x k n w (if adv then some q else none) sat)) s
  captureLaid id b w k n sat 0 (loadTicks n) s

/-! ## Streams (R167, R106) -/

/-- The code of column `n` of a buffer at K index `kk`; none at the absent positions of a 2:4 or masked operand. -/
def PressBuf.code (x : PressBuf) (n kk : Nat) : Option Nat :=
  let w := x.typ.toNat
  let sw := heldWidth (tFmt w)
  let col := (x.cols.getD n 0).toNat
  let low := fun c => c % 2 ^ fmtWidth (tFmt w)
  match x.metas.getD n none with
  | none => some (low (elemAt sw col kk))
  | some md =>
    let nb := elemAt 4 md.toNat (kk / 4)
    let p := bitField nb 0 2
    let q := bitField nb 2 2
    if tLayout w = 2 then
      (if kk % 4 = p then some (low (elemAt sw col (2 * (kk / 4)))) else
        if kk % 4 = q then some (low (elemAt sw col (2 * (kk / 4) + 1))) else none)
    else if kk % 4 = p ∨ kk % 4 = q then some (low (elemAt sw col kk)) else none

/-- Val(B, kk, n) (R106): an element of a buffer with its scale; exact zero where absent. -/
def PressBuf.value (x : PressBuf) (cb : BitVec 256) (n kk : Nat) : Exact × Bool :=
  match x.code n kk with
  | none => (.zero false, false)
  | some c =>
    let w := x.typ.toNat
    scaledValue (tSfmt w) (decodeElem (tFmt w) cb c) (scaleAt (tSfmt w) x.scales (kk / 32 + x.k / 32 * n))

/-- Whether a position of a buffer is absent. -/
def PressBuf.absent (x : PressBuf) (n kk : Nat) : Bool := (x.code n kk).isNone

/-- Val(A, m, kk) (R106). -/
def ARow.value (a : ARow) (cb : BitVec 256) (kk : Nat) : Exact × Bool :=
  let w := a.typ.toNat
  let c := elemAt a.sw a.data.toNat kk % 2 ^ fmtWidth (tFmt w)
  scaledValue (tSfmt w) (decodeElem (tFmt w) cb c) (scaleAt (tSfmt w) a.scales (a.scale0 + kk / 32))

/-- A product of two scaled operands; a zero times infinity in it, or in either's scaling, marks it. -/
def markedProduct (x y : Exact × Bool) : Exact × Bool :=
  let p := pressProduct x.1 y.1
  (p.1, p.2 || x.2 || y.2)

/-- The products of a row of A with column `n` of a buffer, in ascending K. -/
def columnProducts (av : List (Exact × Bool)) (x : PressBuf) (cb : BitVec 256) (n : Nat) : List (Exact × Bool) :=
  (av.zip (rangeFrom 0 av.length)).map (fun p =>
    if x.absent n p.2 then (.zero false, false) else markedProduct p.1 (x.value cb n p.2))

/-- The new codes of a row of a slot, and the flags: PressAccumulate of each column from its old value, or from +0. -/
def rowResult (z : Bool) (old : Nat → Nat) (a : ARow) (x : PressBuf) (cbA cbB : BitVec 256) : List (Nat × Flags) :=
  let av := (rangeFrom 0 a.k).map (a.value cbA)
  (rangeFrom 0 x.n).map (fun n =>
    pressBlocks (ceilDiv a.k 32) (if z then 0 else old n) (columnProducts av x cbB n))

/-- Whether a pair of formats needs the product table (R163). -/
def needsTable (fa fb : Nat) : Bool := (fa == 8 || fa == 7) && (fb == 8 || fb == 7) && (fa == 8 || fb == 8)

/-- The codebook register that a format names, none for the built-in one. -/
def tableSide (f cbx : Nat) : Option CbNum := if f = 8 then some (Fin.ofNat 4 cbx) else none

/-- The codebooks of a stream, read at issue: from the product table where the pair needs it, which must be valid and
built by the issuing core from the operands' codebooks (R163). -/
def streamBooks (wa wb m : Nat) (s : Device) : Except Ev (BitVec 256 × BitVec 256 × Device) := do
  if needsTable (tFmt wa) (tFmt wb) then
    match s.curSheaf.table with
    | some t =>
      if t.core = s.issue.core ∧ t.a = tableSide (tFmt wa) (tCbx wa) ∧ t.b = tableSide (tFmt wb) (tCbx wb) then
        let s ← usePress 7 false 0 (m - 1) s
        .ok (t.cbA, t.cbB, s)
      else .error (s.schedule 4 0 s.issue.tick)
    | none => .error (s.schedule 4 0 s.issue.tick)
  else .ok (s.regs.cb[Fin.ofNat 4 (tCbx wa)], s.regs.cb[Fin.ofNat 4 (tCbx wb)], s)

/-- The rule on an accumulator slot that a stream adds to (R167). -/
def accumulateRule (types : List Nat) (dv : Dims) (w : Nat) (kopen : Bool) (n m : Nat) : Except Shape Dims := do
  if tRank w = 0 then shapeErr 4 1 0 0
  else
    let dv ← unify types dv (term dv (tExt w 0)) (.value n) 4 2
    let dv ← unify types dv (term dv (tExt w 1)) (.value m) 4 3
    if kopen then shapeErr 4 16 1 0 else .ok dv

/-- The rule on the streamed tile (R167), before the buffer is known: M at most 32. -/
def streamRule (dv : Dims) (w : Nat) : Except Shape Unit := do
  pressType w 1 0
  match term dv (tExt w 1) with
  | .value m => if m > 32 then shapeErr 1 3 m 32 else .ok ()
  | .var _ => .ok ()

/-- The rule on the streamed tile against the buffer: K agrees, and a pair only against a 2:4 buffer. -/
def streamTile (s : Device) (t : TNum) (buf : PressBuf) : Except Shape (Dims × Tile) := do
  let w := (s.srcT t).typ.toNat
  let bw := buf.typ.toNat
  if bw = 0 then shapeErr 3 1 0 0
  else
    let dv ← unify s.typeWords s.regs.dv (term s.regs.dv (tExt w 0)) (.value buf.k) 3 2
    let src ← s.tileWith dv t 1
    if src.st.pair = true ∧ tLayout bw ≠ 2 then shapeErr 1 12 src.st.len 256 else .ok (dv, src)

/-- The rows of a stream, one a tick. -/
def streamRows (b : Bool) (acc : Nat) (z : Bool) (src : TNum) (t : Tile) (scales : List Byte) (cbA cbB : BitVec 256) (r : Nat) :
    Nat → Device → Except Ev Device
  | 0, s => .ok s
  | n + 1, s => do
    let a : ARow :=
      { typ := dbl t.typ, k := t.st.e0, scale0 := t.st.e0 / 32 * r, sw := t.st.sw, data := 0, scales := scales }
    let s ← addFlight r (.streamRow b acc r z (some (src, t.st.pair, r)) a 0 0 0 0 cbA cbB) s
    streamRows b acc z src t scales cbA cbB (r + 1) n s

/-- PMMA and PMMZ: the stream of tile `t` against buffer `b` into slot `c`, from its old contents or from zero (R167). A
buffer that is still being loaded has no type yet to hold against the stream: the conflict at the issue tick comes first.
(DEDUCED, safe) -/
def stream (z : Bool) (c : AccNum) (t : TNum) (b : Bool) (k : KNum) (s : Device) : Except Ev Device := do
  let mm := shapeOp 0x29 (if z then 5 else 4)
  let s ← pressCommand 1 0 s
  let acc ← s.accSlot c.val
  s.typed mm (streamRule s.regs.dv (s.srcT t).typ.toNat)
  let buf := s.curSheaf.buf b
  let _ ← usePress (bufRes b) false 0 0 s
  let (dv, src) ← s.typed mm (streamTile s t buf)
  let m := src.st.e1
  let s ← usePress 0 true 0 (m - 1) s
  let s ← usePress (bufRes b) false 0 (m - 1) s
  let dv ← if z then .ok dv
    else s.typed mm (accumulateRule s.typeWords dv (s.accTyp acc) (Assoc.get false s.accOpen acc) buf.n m)
  let s ← s.bindDims dv
  let (cbA, cbB, s) ← streamBooks src.typ buf.typ.toNat m s
  let scales ← s.typed mm (operandScales s.regs.k k src.typ src.st.e0 m 1)
  let s ← streamRows b acc z t src scales cbA cbB 0 m s
  addFlight 1 (.accMark acc (if z then some (dbl (resultWord buf.n m)) else none) (src.st.e0 % 32 != 0)) s

/-- PMMA (R167). -/
def slotPmma (c : AccNum) (t : TNum) (b : Bool) (k : KNum) (s : Device) : Except Ev Device := stream false c t b k s
/-- PMMZ (R167). -/
def slotPmmz (c : AccNum) (t : TNum) (b : Bool) (k : KNum) (s : Device) : Except Ev Device := stream true c t b k s

/-- PCLR (R168). -/
def slotPclr (c : AccNum) (s : Device) : Except Ev Device := do
  let acc ← s.accSlot c.val
  addFlight 2 (.clear acc) s

/-- PTSC (R169): the scale governs drains from issue + 1. -/
def slotPtsc (a : SReg) (off : Bool) (s : Device) : Except Ev Device := do
  let x ← s.srcS a
  let s ← pressCommand 1 0 s
  addFlight 1 (.tensorScale (if off then none else some (x.setWidth 32))) s

/-! ## Drains (R108, R170, R171) -/

/-- The element of a drain after the tensor scale (R108, step 1). -/
def tensorScaled (ts : Option Word) (x : Nat) : Nat × Flags :=
  match ts with
  | none => (x, 0)
  | some v =>
    let p := pressProduct (decodeFloat .fp32 x) (decodeFloat .fp32 v.toNat)
    let (c, f) := toFp32 p.1
    (c, if p.2 then f ||| fNV else f)

/-- The conversion of one element of a drain without block scales; the formats that R108's table gives only with block
scales are delivered element by element as well (DESIGN CHOICE, log 126). -/
def drainElem (ofmt : Nat) (md : Modes) (cb : BitVec 256) (ctr x : Nat) : Nat × Flags :=
  if ofmt = 0 then (x, 0)
  else if ofmt = 8 then toCb4 cb (decodeFloat .fp32 x)
  else deliver md ctr (.fl (floatOfCode ofmt)) (decodeFloat .fp32 x)

/-- A converted row: the element codes, the scales of its blocks, and the flags of each element. -/
structure DrainRow where
  codes : List Nat
  scales : List Nat
  flags : List Flags

/-- A scaled block's flags, one for each of its `n` elements; the NV of a block with a NaN or infinity stands at its first
element, and so in that element's line (R112; DESIGN CHOICE, log 143). -/
def blockFlags (n : Nat) (fl : List Flags) : List Flags := (fl ++ List.replicate n 0).take n

/-- The output of a block-scaled drain. -/
def scaleFmtOf (ofmt : Nat) (cb : BitVec 256) : ScaleFmt := if ofmt = 8 then .cb4 cb else .flt (floatOfCode ofmt)

/-- A row of a drain: element `i` has counter `ctr + i` (R108, R110, R170). -/
def drainRow (ofmt : Nat) (md : Modes) (mx : Bool) (cb : BitVec 256) (ts : Option Word) (ctr : Nat) (xs : List Nat) : DrainRow :=
  let ys := xs.map (tensorScaled ts)
  let codes := ys.map (fun p => p.1)
  let (out, scales, fl) :=
    if mx then
      let blocks := (rangeFrom 0 (xs.length / 32)).map (fun b =>
        scaleSearch (scaleFmtOf ofmt cb) md (fun j => ctr + 32 * b + j)
          (((codes.drop (32 * b)).take 32).map (decodeFloat .fp32)))
      ((blocks.map (fun x => x.codes)).flatten, blocks.map (fun x => x.x), (blocks.map (fun x => blockFlags 32 x.flags)).flatten)
    else
      let r := (codes.zip (rangeFrom 0 codes.length)).map (fun p => drainElem ofmt md cb (ctr + p.2) p.1)
      (r.map (fun p => p.1), [], r.map (fun p => p.2))
  { codes := out, scales := scales, flags := (ys.zip fl).map (fun p => p.1.2 ||| p.2) }

/-- The flags of the elements whose first bit lies in line `i` of a row: a six-bit element that spans two lines counts to
the first of them (R112; DESIGN CHOICE, log 143). -/
def lineFlags (w : Nat) (fl : List Flags) (i : Nat) : Flags :=
  orFlags (((fl.zip (rangeFrom 0 fl.length)).filter (fun p => p.2 * w / 512 == i)).map (fun p => p.1))

/-- Row `r` of the drain of slot `acc` with `n` columns. -/
def Device.drainRow (s : Device) (d : DrainSpec) (acc n r : Nat) : DrainRow :=
  Machine.drainRow d.ofmt d.md d.mx d.cb d.ts (d.ctr + n * r) ((rangeFrom 0 n).map (s.accRead acc r))

/-- Lines of one row of a drain (R170). -/
def DrainSpec.rowLines (d : DrainSpec) (n : Nat) : Nat := ceilDiv (n * fmtWidth d.ofmt) 512

/-- Lines of scales of a drain of [n, m]. -/
def DrainSpec.scaleLines (d : DrainSpec) (n m : Nat) : Nat := if d.mx then ceilDiv (m * n) 2048 else 0

/-- The 64 bytes of line `i` of some bits. -/
def lineOfBits (x i : Nat) : List Byte := bytesOf 64 (elemAt 512 x i)

/-- The output lines of a drain's rows, each with its flags, row by row. -/
def DrainSpec.lines (d : DrainSpec) (n : Nat) (rows : List DrainRow) : List (List Byte × Flags) :=
  (rows.map (fun r =>
    let x := ofElems (fmtWidth d.ofmt) r.codes
    (rangeFrom 0 (d.rowLines n)).map (fun i => (lineOfBits x i, lineFlags (fmtWidth d.ofmt) r.flags i)))).flatten

/-- The lines of a drain's scales. -/
def DrainSpec.scaleData (d : DrainSpec) (n : Nat) (rows : List DrainRow) : List (List Byte × Flags) :=
  let x := ofElems 8 (rows.map (fun r => r.scales)).flatten
  (rangeFrom 0 (d.scaleLines n rows.length)).map (fun i => (lineOfBits x i, 0))

/-- The output type word of a drain of [n, m] (R170). -/
def DrainSpec.word (d : DrainSpec) (n m layout : Nat) : Nat :=
  resultWord n m + d.ofmt * 2 ^ 32 + layout * 2 ^ 37 + (if d.mx then 3 * 2 ^ 40 + 2 ^ 44 else 0) +
    (if d.ofmt = 8 then d.cbx * 2 ^ 46 else 0)

/-- The typing rule of a drained slot (R170, R171): its extents. -/
def drainRule (dv : Dims) (w ofmt : Nat) (mx pk : Bool) : Except Shape (Nat × Nat) := do
  if tRank w = 0 then shapeErr 4 1 0 0
  else
    let e ← extents dv w 4
    if mx = true ∧ ofmt < 3 then shapeErr 0 5 ofmt 3
    else if mx = true ∧ e.1 % 32 ≠ 0 then shapeErr 4 2 e.1 32
    else if pk = true ∧ (mx = true ∨ ¬ (fmtWidth ofmt = 8 ∨ fmtWidth ofmt = 16 ∨ fmtWidth ofmt = 32)) then
      shapeErr 0 6 ofmt (bitOf mx)
    else .ok (e.1, e.2.1)

/-- Where output lines go: felt lines from a first one, or scratchpad addresses. -/
inductive DrainTo where
  | felt (line : Nat)
  | region (at_ : Nat → Nat)

/-- Output lines written from issue + `t` on, line `j` first (R170, R171): stamped in the felt, or at their addresses. -/
def writeLines (tgt : DrainTo) (t j : Nat) : List (List Byte × Flags) → Device → Except Ev Device
  | [], s => .ok s
  | (bytes, fl) :: rest, s => do
    let s ← match tgt with
      | .felt line => addFlight t (.felt ((line + j) % 4096) (lineOf bytes) fl) s
      | .region at_ => do
        let pa ← s.spAddr (at_ j) 64 64
        let s ← addFlight t (.storeFlags (spKey s.issue.core pa) bytes fl) s
        .ok (useLine s.issue.core pa t 2 s)
    writeLines tgt (t + 1) (j + 1) rest s

/-- The spec of a drain with its modifiers, read at issue. -/
def Device.drainSpec (s : Device) (ofmt : Nat) (rnd : RndSel) (sm : SatSel) (mx : Bool) (cbx : CbNum) (ctr : Nat) : DrainSpec :=
  { ofmt := ofmt, md := s.modes rnd sm, mx := mx, cb := s.regs.cb[cbx], cbx := cbx.val, ts := s.curSheaf.scale, ctr := ctr }

/-- The header of a drain's region, read and unified with the output type (R170). -/
def drainHeader (a : ANum) (out mm : Nat) (s : Device) : Except Ev (Header × Device) := do
  let (h, s) ← readHeader (s.srcA a).addr.toNat 2 s
  if h.typ = 0 then .ok (h, s)
  else
    let dv ← s.typed mm (do
      headerType h.typ
      unifyTypes s.typeWords s.regs.dv h.typ out 5)
    let s ← s.bindDims dv
    .ok (h, s)

/-- The pitch of a region must hold a row, or the lines reserved for a packed block (R158, R170, R414). -/
def drainPitch (h : Header) (lr : Nat) (pk : Bool) (res : Nat) : Except Shape Unit :=
  if pk then
    (if h.pitch > 128 then shapeErr 5 12 h.pitch 128 else if res > h.pitch then shapeErr 5 12 res h.pitch else .ok ())
  else if h.pitch < lr then shapeErr 5 12 lr h.pitch else .ok ()

/-- The output of a packed drain: its reserved lines, or the bytes it needs (R171). -/
def packedLines (ofmt : Nat) (rows : List DrainRow) (res : Nat) : Except Nat (List (List Byte × Flags)) :=
  let w := fmtWidth ofmt
  let codes := (rows.map (fun r => r.codes)).flatten
  let need := packBytes w codes
  if need > 64 * res then .error need
  else
    let x := packBlock ofmt w codes
    .ok ((rangeFrom 0 res).map (fun i => (lineOfBits x i, 0)))

/-- The lines of a drain and how many there are, by its form; a packed drain's flags are raised together. -/
def drainOutput (d : DrainSpec) (n : Nat) (rows : List DrainRow) (u : Nat) (pk : Bool) (res : Nat) (tgt : DrainTo) (s : Device) :
    Except Ev Device := do
  if pk then
    let s ← addFlight (12 + u) (.regs [] (orFlags (rows.map (fun r => orFlags r.flags))) none) s
    match packedLines d.ofmt rows res with
    | .error need => addFlight (12 + u) (.raise (s.ev 8 0 need (64 * res) 0 0)) s
    | .ok l => writeLines tgt (12 + u) 0 l s
  else
    writeLines tgt 12 0 (d.lines n rows ++ d.scaleData n rows) s

/-- PDRN (R170, R171). -/
def slotPdrn (c : AccNum) (dst : Bool) (cb : CbNum) (r : SReg) (x : DrainX) (s : Device) : Except Ev Device := do
  let mm := shapeOp 0x29 8
  let off ← s.srcS r
  let s ← pressCommand 1 0 s
  let acc ← s.accSlot c.val
  let res := x.res.toNat
  let d := s.drainSpec x.ofmt.toNat x.rnd x.sat x.mx cb off.toNat
  let (n, m) ← s.typed mm (drainRule s.regs.dv (s.accTyp acc) d.ofmt x.mx x.pk)
  let lr := d.rowLines n
  let u := m * lr
  let total := u + (if x.pk then res else d.scaleLines n m)
  let s ← usePress 2 true 0 (total - 1) s
  let rows := (rangeFrom 0 m).map (s.drainRow d acc n)
  let s := { s with issue := { s.issue with lines := total } }
  if dst then
    let out := d.word n m (if x.pk then 3 else 0)
    let (h, s) ← drainHeader (Fin.ofNat 16 (bitField x.dest.toNat 8 4)) out mm s
    s.typed mm (drainPitch h lr x.pk res)
    let s ← promise h (12 + total) s
    let tgt : DrainTo := .region (fun j =>
      if x.pk then h.data + 64 * j
      else if j < u then h.data + 64 * h.pitch * (j / lr) + 64 * (j % lr)
      else h.data + 64 * h.pitch * m + 64 * (j - u))
    let s ← drainOutput d n rows u x.pk res tgt s
    let failed := x.pk && (match packedLines d.ofmt rows res with | .error _ => true | .ok _ => false)
    if failed then .ok s
    else
      let s ← addFlight (12 + total) (.header h.at_ (dbl out)) s
      .ok (useLine s.issue.core (h.at_ - spKey s.issue.core 0) (12 + total) 2 s)
  else drainOutput d n rows u x.pk res (.felt x.dest.toNat) s

end Sys2Proof.Machine
end

