-- ==== Sys2Proof/Machine/Sequencer.lean ====
section
/-! DEFINITION. Codebooks, scales and laid windows (R172 to R174), repeats (R175), logical-tile commands (R176, R177)
and the queueing of Viterbi commands (R179). -/

namespace Sys2Proof.Machine

/-- The effective address of an operand with a scaled offset (R230): the sum as it is, read modulo 2^64. -/
def effAddr (a : AReg) (off : BitVec 10) (scale : Nat) : Nat :=
  (((a.addr.toNat : Int) + off.toInt * scale) % (2 ^ 64 : Nat)).toNat

/-! ## Codebooks, scales and laid windows -/

/-- A read of `n` bytes at issue + 1 by a memory port, that completes at issue + 4 (R161, R172 to R174). -/
def loadAux (a n : Nat) (f : Nat → Finish) (s : Device) : Except Ev Device := do
  let port ← s.port
  let pa ← s.spAddr a n n
  let id := s.seq
  let s ← addFlight 4 (.finish (f (spKey s.issue.core pa))) s
  let s ← captureRanges 1 id [(pa, n)] s
  .ok (useLine s.issue.core pa 1 port s)

/-- CBLD (R172). -/
def slotCbld (q : CbNum) (a : ANum) (o : BitVec 10) (s : Device) : Except Ev Device :=
  loadAux (effAddr (s.srcA a) o 32) 32 (fun p => .codebook q p) s

/-- KLD (R173). -/
def slotKld (k : KNum) (a : ANum) (o : BitVec 10) (s : Device) : Except Ev Device :=
  loadAux (effAddr (s.srcA a) o 64) 64 (fun p => .scale k p) s

/-- LWSET (R174). -/
def slotLwset (q : LwNum) (a : ANum) (o : BitVec 10) (s : Device) : Except Ev Device :=
  loadAux (effAddr (s.srcA a) o 32) 32 (fun p => .window q p) s

/-- LWSTEP (R174). -/
def slotLwstep (q : LwNum) (a : SReg) (ab : Bool) (s : Device) : Except Ev Device := do
  let x ← s.srcS a
  let w ← s.laidWindow q
  let v := x.toInt
  let b : Int := if ab then v % (lwN w : Int) * lwKw w else ((lwBoff w : Int) + v * lwKw w) % (lwBits w : Int)
  land 1 [.lwBoff q (BitVec.ofInt 26 b)] 0 none s

/-- CBLD.pt (R172): any table of before is gone, and the new one is valid from issue + 16. -/
def slotCbldPt (a b : CbNum) (ea eb : Bool) (s : Device) : Except Ev Device := do
  let s ← pressCommand 1 0 s
  let s ← usePresses true 0 15 [3, 7] s
  let s := s.setSheaf (s.issue.core / 4) { s.curSheaf with table := none }
  addFlight 16 (.table (if ea then none else some a) (if eb then none else some b)
    (if ea then e2m1Codebook else s.regs.cb[a]) (if eb then e2m1Codebook else s.regs.cb[b])) s

/-! ## Repeats (R175) -/

/-- Whether a command may be repeated. -/
def repeatable : Instr → Bool
  | .pldb _ _ _ _ _ _ => true
  | .pldbSp _ _ => true
  | .plaid _ _ _ _ => true
  | .pmma _ _ _ _ => true
  | .pmmz _ _ _ _ => true
  | .pclr _ => true
  | .pdrn _ _ _ _ _ => true
  | _ => false

/-- The address registers that a command names and a repeat steps. -/
def repAddrs : Instr → List ANum
  | .pldbSp a _ => [a]
  | .pdrn _ dst _ _ x => if dst then [Fin.ofNat 16 (bitField x.dest.toNat 8 4)] else []
  | _ => []

/-- Whether the last reissue keeps the accumulator field and NOFF within their limits. -/
def repFits (cmd : Instr) (cnt astep : Nat) : Bool :=
  match cmd with
  | .pldb _ _ _ _ noff _ => decide (noff.toNat + cnt ≤ 7)
  | .pmma c _ _ _ => decide (c.val + astep * cnt ≤ 127)
  | .pmmz c _ _ _ => decide (c.val + astep * cnt ≤ 127)
  | .pclr c => decide (c.val + astep * cnt ≤ 127)
  | .pdrn c _ _ _ _ => decide (c.val + astep * cnt ≤ 127)
  | _ => true

/-- A tile number stepped. -/
def stepTile (t : TNum) (n : Nat) : TNum := Fin.ofNat 16 (t.val + n)

/-- An accumulator number stepped. -/
def stepAcc (c : AccNum) (n : Nat) : AccNum := Fin.ofNat 128 (c.val + n)

/-- Reissue `j` of a repeated command, with its fields stepped. -/
def Rep.command (r : Rep) (j : Nat) : Instr :=
  match r.cmd with
  | .pldb t mode b x noff k => .pldb (stepTile t (r.tstep * j)) mode b x (BitVec.ofNat 3 (noff.toNat + j)) k
  | .pmma c t b k => .pmma (stepAcc c (r.astep * j)) (stepTile t (r.tstep * j)) b k
  | .pmmz c t b k => .pmmz (stepAcc c (r.astep * j)) (stepTile t (r.tstep * j)) b k
  | .pclr c => .pclr (stepAcc c (r.astep * j))
  | .pdrn c dst cb a x =>
    .pdrn (stepAcc c (r.astep * j)) dst cb a
      (if dst then x else { x with dest := BitVec.ofNat 12 (x.dest.toNat + r.dlines) })
  | i => i

/-- The steps of the address registers of a repeated command after an issue of it (R123, R175). -/
def stepAddrs : List ANum → Device → Except Ev Device
  | [], s => .ok s
  | a :: t, s => do
    let r := s.srcA a
    let s ← land 1 [.aAddr a (stepAddr r.addr (signedOf 32 r.inc.toNat) r.wrap)] 0 none s
    stepAddrs t s

/-- REP (R175). -/
def slotRep (cnt per : BitVec 6) (tstep astep : BitVec 3) (s : Device) : Except Ev Device :=
  match s.issue.cmd with
  | none => .error (s.schedule 5 0 s.issue.tick)
  | some (cmd, slot) =>
    if repeatable cmd = false ∨ repFits cmd cnt.toNat astep.toNat = false then .error (s.schedule 5 0 s.issue.tick)
    else do
      let r : Rep :=
        { cmd := cmd, pc := s.issue.pc, slot := slot, issued := s.issue.tick, done := 0, cnt := cnt.toNat, per := per.toNat,
          tstep := tstep.toNat, astep := astep.toNat, dlines := 0 }
      let s := s.setLive { s.live with reps := s.live.reps ++ [r] }
      stepAddrs (repAddrs cmd) s

/-! ## Logical-tile commands (R176, R177) -/

/-- The largest K of a row of 256 bytes (R163). -/
def rowK (f : Nat) : Nat := if fmtWidth f = 16 then 128 else if fmtWidth f = 4 then 512 else 256

/-- The start of each load and of its streams, after issue (R176): `l` is when the load path is free, `p1` and `p2` when
the streams before last end. -/
def ltTimes (lb m : Nat) : Nat → Nat → Nat → Nat → List (Nat × Nat)
  | 0, _, _, _ => []
  | g + 1, l, p1, p2 =>
    let ls := Nat.max l p2
    let ps := Nat.max (ls + lb) p1
    (ls, ps) :: ltTimes lb m g (ls + lb) (ps + m) p1

/-- The part of a row of K that step `g` reads: its byte offset, length, first scale's offset, and scale bytes. -/
structure KPart where
  k : Nat
  off : Nat
  len : Nat
  soff : Nat
  slen : Nat

/-- Part `g` of an operand with `kn` of K at a step. -/
def kPart (w k kn g : Nat) : KPart :=
  let kg := Nat.min kn (k - g * kn)
  let sw := fmtWidth (tFmt w)
  let sb := if tSfmt w = 0 then 0 else scaleBytes (tSfmt w)
  { k := kg, off := g * kn * sw / 8, len := ceilDiv (kg * sw) 8, soff := g * kn / 32 * sb, slen := kg / 32 * sb }

/-- The scale addresses of an operand's rows at a part: empty without scales. -/
def RegionOperand.scalesAt (r : RegionOperand) (p : KPart) : List Nat := r.scales.map (fun a => a + p.soff)

/-- The streams of part `g`: row `i` of A at `start + i` (R176). -/
def ltStreamRows (b : Bool) (slots : List Nat) (z : Bool) (w : Nat) (a : RegionOperand) (p : KPart) (cbA cbB : BitVec 256)
    (start i : Nat) : Nat → Device → Except Ev Device
  | 0, s => .ok s
  | n + 1, s => do
    let row : ARow := { typ := dbl w, k := p.k, scale0 := 0, sw := fmtWidth (tFmt w), data := 0, scales := [] }
    let rng := [(nth a.rows i + p.off, p.len)] ++ (if p.slen = 0 then [] else [(nth a.scales i + p.soff, p.slen)])
    let id := s.seq
    let key := spKey s.issue.core
    let s ← addFlight (start + i)
      (.streamRow b (nth slots (i / 32)) (i % 32) z none row (key (nth a.rows i + p.off)) p.len
        (key (nth a.scales i + p.soff)) p.slen cbA cbB) s
    let s ← captureRanges (start + i) id rng s
    ltStreamRows b slots z w a p cbA cbB start (i + 1) n (useLines s.issue.core (start + i) 2 (rangesLines rng) s)

/-- What LTMMA multiplies. -/
structure LtOperands where
  wa : Nat
  wb : Nat
  a : RegionOperand
  b : RegionOperand
  kn : Nat
  tag : Byte
  slots : List Nat
  z : Bool
  cbA : BitVec 256
  cbB : BitVec 256

/-- The steps of LTMMA in ascending K, at their times (R176). -/
def ltSteps (x : LtOperands) (g : Nat) : List (Nat × Nat) → Device → Except Ev Device
  | [], s => .ok s
  | (ls, ps) :: t, s => do
    let pb := kPart x.wb x.b.st.e0 x.kn g
    let pa := kPart x.wa x.a.st.e0 x.kn g
    let b := decide (g % 2 = 1)
    let s ← loadRegion ls b x.wb pb.k x.b.st.e1 x.tag (x.b.rows.map (fun a => a + pb.off)) pb.len (x.b.scalesAt pb) pb.slen s
    let s ← ltStreamRows b x.slots (x.z && g == 0) x.wa x.a pa x.cbA x.cbB ps 0 x.a.st.e1 s
    ltSteps x (g + 1) t s

/-- The slots from `c` on, `n` of them. -/
def accSlots (s : Device) (c : Nat) : Nat → Except Ev (List Nat)
  | 0 => .ok []
  | n + 1 => do
    let a ← s.accSlot c
    let r ← accSlots s (c + 1) n
    .ok (a :: r)

/-- The rules on the slots that LTMMA adds to, slot `i` holding rows 32i on (R176). -/
def ltAccRules (s : Device) (types : List Nat) (n m i : Nat) (dv : Dims) : List Nat → Except Shape Dims
  | [] => .ok dv
  | a :: t => do
    let dv ← accumulateRule types dv (s.accTyp a) (Assoc.get false s.accOpen a) n (Nat.min 32 (m - 32 * i))
    ltAccRules s types n m (i + 1) dv t

/-- The types and K-open bits of LTMMA's slots (R176). -/
def ltMarks (z : Bool) (n m k i : Nat) : List Nat → Device → Except Ev Device
  | [], s => .ok s
  | a :: t, s => do
    let s ← addFlight 1
      (.accMark a (if z then some (dbl (resultWord n (Nat.min 32 (m - 32 * i)))) else none) (k % 32 != 0)) s
    ltMarks z n m k (i + 1) t s

/-- The press's five paths and both buffers. -/
def allPaths : List Nat := [0, 1, 2, 3, 4, 5, 6]

/-- The extents of a logical operand: K unified between the two headers (R176). -/
def ltUnify (s : Device) (ha hb : Header) : Except Shape Dims := do
  headerType ha.typ
  headerType hb.typ
  pressType ha.typ 5 0
  pressType hb.typ 5 0
  unify s.typeWords s.regs.dv (term s.regs.dv (tExt ha.typ 0)) (term s.regs.dv (tExt hb.typ 0)) 5 2

/-- LTMMA (R176). -/
def slotLtmma (c : AccNum) (a b : ANum) (z : Bool) (s : Device) : Except Ev Device := do
  let mm := shapeOp 0x29 0x0D
  let (ha, s) ← readHeader (s.srcA a).addr.toNat 2 s
  let (hb, s) ← readHeader (s.srcA b).addr.toNat 2 s
  let s ← checkTag ha s
  let s ← checkTag hb s
  let dv ← s.typed mm (ltUnify s ha hb)
  let s ← s.bindDims dv
  let ra ← regionOperand ha (64 * ha.pitch) mm s
  let rb ← regionOperand hb (64 * hb.pitch) mm s
  let k := ra.st.e0
  let m := ra.st.e1
  let n := rb.st.e1
  let kn := Nat.min (rowK (tFmt ha.typ)) (rowK (tFmt hb.typ))
  let steps := ceilDiv k kn
  let times := ltTimes (loadTicks n) m steps 0 0 0
  let lastPs := match times.getLast? with
    | some p => p.2
    | none => 0
  let mb := ceilDiv m 32
  let s ← pressCommand (steps + steps * mb) (lastPs + 32 * (mb - 1)) s
  let slots ← accSlots s c.val mb
  let dv ← if z then .ok s.regs.dv else s.typed mm (ltAccRules s s.typeWords n m 0 s.regs.dv slots)
  let s ← s.bindDims dv
  let s ← usePresses true 0 (lastPs + m - 1) allPaths s
  let (cbA, cbB, s) ← streamBooks ha.typ hb.typ (lastPs + m) s
  let s ← ltSteps { wa := ha.typ, wb := hb.typ, a := ra, b := rb, kn := kn, tag := hb.tag, slots := slots, z := z,
                    cbA := cbA, cbB := cbB } 0 times s
  ltMarks z n m k 0 slots s

/-- One slot of a run that LTDRN drains: its key, the first row of the tile it holds, and its rows. -/
structure DrainSlot where
  acc : Nat
  row : Nat
  m : Nat

/-- The run of slots whose rows add up to `want`, or one slot where no count is wanted (R177). -/
def drainRun (s : Device) (c : Nat) (n0 : Option Nat) (want : Option Nat) (row mm : Nat) : Nat → Except Ev (List DrainSlot × Nat)
  | 0 => .error (s.ev 4 3 (mm + 4) row (want.getD 0) 0)
  | fuel + 1 => do
    let a ← s.accSlot c
    let (n, m) ← s.typed mm (do
      let w := s.accTyp a
      if tRank w = 0 then shapeErr 4 1 0 0
      else
        let e ← extents s.regs.dv w 4
        sameField 4 2 e.1 (n0.getD e.1)
        .ok (e.1, e.2.1))
    let total := row + m
    let last := match want with
      | none => true
      | some w => decide (total = w)
    if last then .ok ([{ acc := a, row := row, m := m }], n)
    else if total > want.getD 0 then .error (s.ev 4 3 (mm + 4) total (want.getD 0) 0)
    else if m ≠ 32 then .error (s.ev 4 3 (mm + 4) m 32 0)
    else do
      let (l, _) ← drainRun s (c + 1) (some n) want total mm fuel
      .ok ({ acc := a, row := row, m := m } :: l, n)

/-- The rows of a region's TYPE, where they are known (R177). -/
def wantedRows (dv : Dims) (w : Nat) : Except Shape (Option Nat) := do
  if w = 0 then .ok none
  else
    headerType w
    sameField 5 1 (tRank w) 2
    match term dv (tExt w 1) with
    | .value v => .ok (some v)
    | .var _ => .ok none

/-- Ranges of a partition written at one tick each from issue + `t` on, checked, with their banks: their physical
addresses. -/
def writeRanges (t : Nat) : List (Nat × Nat) → Nat → Device → Except Ev (List Nat × Device)
  | [], _, s => .ok ([], s)
  | (a, n) :: rest, align, s => do
    let pa ← s.spAddr a n align
    let (l, s) ← writeRanges (t + 1) rest align (useLines s.issue.core t 2 (spanLines pa n) s)
    .ok (pa :: l, s)

/-- `n` bytes from an address on in runs of at most 64. -/
def runsOf64 (a n : Nat) : List (Nat × Nat) := (rangeFrom 0 (ceilDiv n 64)).map (fun k => (a + 64 * k, Nat.min 64 (n - 64 * k)))

/-- The drains of a run, one after another from issue + `t`: each reads its slot and the tensor scale at its own issue
(R177). -/
def ltDrains (d : DrainSpec) (h : Header) (n m : Nat) (t : Nat) : List DrainSlot → Device → Except Ev Device
  | [], s => .ok s
  | x :: rest, s => do
    let lr := d.rowLines n
    let rows := (rangeFrom 0 (x.m * lr)).map (fun j => (h.data + 64 * h.pitch * (x.row + j / lr) + 64 * (j % lr), 64))
    let (lines, s) ← writeRanges (12 + t) rows 64 s
    let (scales, s) ← writeRanges (12 + t + x.m * lr)
      (runsOf64 (h.data + 64 * h.pitch * m + n / 32 * x.row) (if d.mx then n / 32 * x.m else 0)) 1 s
    let key := spKey s.issue.core
    let s ← addFlight t (.drain d x.acc n x.row x.m (lines.map key) (scales.map key)) s
    ltDrains d h n m (t + x.m * lr + d.scaleLines n x.m) rest s

/-- LTDRN (R177). The register sources of its drains are read at its issue, and each drain reads its slots and the tensor
scale when it starts (DESIGN CHOICE, log 153). -/
def slotLtdrn (c : AccNum) (a : ANum) (r : SReg) (x : LDrainX) (s : Device) : Except Ev Device := do
  let mm := shapeOp 0x29 0x0E
  let off ← s.srcS r
  let s ← pressCommand 1 0 s
  let (h, s) ← readHeader (s.srcA a).addr.toNat 2 s
  let s ← if h.typ = 0 then .ok s else checkTag h s
  let want ← s.typed mm (wantedRows s.regs.dv h.typ)
  let (run, n) ← drainRun s c.val none want 0 mm 128
  let m := (run.map (fun y => y.m)).foldl (· + ·) 0
  let d := s.drainSpec x.ofmt.toNat x.rnd x.sat x.mx x.cbx off.toNat
  let _ ← s.typed mm (drainRule s.regs.dv (resultWord n 1) d.ofmt x.mx false)
  s.typed mm (logicalExtents 5 (n, m, 1))
  let out := d.word n m 0
  let dv ← if h.typ = 0 then .ok s.regs.dv else s.typed mm (unifyTypes s.typeWords s.regs.dv h.typ out 5)
  let s ← s.bindDims dv
  s.typed mm (drainPitch h (d.rowLines n) false 0)
  let total := (run.map (fun y => y.m * d.rowLines n + d.scaleLines n y.m)).foldl (· + ·) 0
  let s ← usePresses true 0 (total - 1) allPaths s
  let s ← promise h (12 + total) s
  let s ← ltDrains d h n m 0 run s
  let s ← addFlight (12 + total) (.header h.at_ (dbl out)) s
  .ok (useLine s.issue.core (h.at_ - spKey s.issue.core 0) (12 + total) 2 s)

/-! ## Viterbi commands (R179) -/

/-- The quire of a core. -/
def quireOf (core : Nat) : Nat := core / 80

/-- VTENC (R179): the record is read at issue, and the command enters its quire's queue when there is room. -/
def slotVtenc (p : PNum) (q : LwNum) (a : ANum) (s : Device) : Except Ev Device := do
  let port ← s.port
  let w ← s.laidWindow q
  let pa ← s.spAddr (s.srcA a).addr.toNat 16 16
  let x := ofBytes (s.spRead s.issue.core pa 16)
  let tgt ← s.spAddr (bitField x 0 32) (4 * lwN w) 4
  let bar ← s.spAddr (bitField x 32 32) 8 8
  let out ← s.spAddr (bitField x 64 32) 8 8
  let s := useLine s.issue.core pa 0 port s
  let quire := quireOf s.issue.core
  let queue := Assoc.get [] s.vtQueues quire
  let room := decide (queue.length < 64)
  let cmd : VtCmd :=
    { key := ctxKey s.issue.l s.issue.core, lw := w, res := out, bar := bar, tgt := tgt, accepted := s.mill, got := [] }
  let s := if room then { s with vtQueues := Assoc.set [] s.vtQueues quire (queue ++ [cmd]) } else s
  landP 1 p room s

end Sys2Proof.Machine
end

