-- ==== Sys2Proof/Machine/Memory.lean ====
section
/-! DEFINITION. Scratchpad and felt loads and stores (R228 to R237), deckle taps (R238), scratchpad atomics (R249),
barriers (R252 to R254), queues (R255), fences (R251) and beaters (R259). -/

namespace Sys2Proof.Machine

/-! ## Loads and stores of major 0x30 (R230 to R234) -/

/-- A scalar load of `n` bytes (R231). -/
def loadScalar (n : Nat) (r : SReg) (a : ANum) (o : BitVec 10) (s : Device) : Except Ev Device := do
  let port ← s.port
  let pa ← s.spAddr (effAddr (s.srcA a) o n) n n
  let id := s.seq
  let s ← addFlight 3 (.finish (.scalar r (spKey s.issue.core pa) n)) s
  let s ← captureRanges 1 id [(pa, n)] s
  .ok (useLine s.issue.core pa 1 port s)

/-- A scalar store of `n` bytes (R231). -/
def storeScalar (n : Nat) (r : SReg) (a : ANum) (o : BitVec 10) (s : Device) : Except Ev Device := do
  let port ← s.port
  let pa ← s.spAddr (effAddr (s.srcA a) o n) n n
  let x ← s.srcS r
  let s ← addFlight 2 (.store (spKey s.issue.core pa) (bytesOf n x.toNat)) s
  .ok (useLine s.issue.core pa 2 port s)

/-- LDB (R231). -/
def slotLdb (r : SReg) (a : ANum) (o : BitVec 10) (s : Device) : Except Ev Device := loadScalar 1 r a o s
/-- LDH (R231). -/
def slotLdh (r : SReg) (a : ANum) (o : BitVec 10) (s : Device) : Except Ev Device := loadScalar 2 r a o s
/-- LDW (R231). -/
def slotLdw (r : SReg) (a : ANum) (o : BitVec 10) (s : Device) : Except Ev Device := loadScalar 4 r a o s
/-- LDD (R231). -/
def slotLdd (r : SReg) (a : ANum) (o : BitVec 10) (s : Device) : Except Ev Device := loadScalar 8 r a o s
/-- STB (R231). -/
def slotStb (r : SReg) (a : ANum) (o : BitVec 10) (s : Device) : Except Ev Device := storeScalar 1 r a o s
/-- STH (R231). -/
def slotSth (r : SReg) (a : ANum) (o : BitVec 10) (s : Device) : Except Ev Device := storeScalar 2 r a o s
/-- STW (R231). -/
def slotStw (r : SReg) (a : ANum) (o : BitVec 10) (s : Device) : Except Ev Device := storeScalar 4 r a o s
/-- STD (R231). -/
def slotStd (r : SReg) (a : ANum) (o : BitVec 10) (s : Device) : Except Ev Device := storeScalar 8 r a o s

/-- The load of eight lines into a vector register. -/
def loadLines (v : VNum) (port : Nat) (lines : List Nat) (s : Device) : Except Ev Device := do
  let id := s.seq
  let s ← addFlight 4 (.finish (.vector v (lines.map (spKey s.issue.core)))) s
  let s ← captureRanges 1 id (lines.map (fun a => (a, 64))) s
  .ok (useLines s.issue.core 1 port lines s)

/-- Lines of a vector register stored from line `i` on. -/
def storeLines (v : VData) (port i : Nat) : List Nat → Device → Except Ev Device
  | [], s => .ok s
  | a :: t, s => do
    let s ← addFlight 2 (.store (spKey s.issue.core a) (lineBytes (vline v i))) s
    storeLines v port (i + 1) t (useLine s.issue.core a 2 port s)

/-- The eight lines of 512 bytes from a physical address. -/
def eightLines (pa : Nat) : List Nat := (rangeFrom 0 8).map (fun q => pa + 64 * q)

/-- VLD (R231). -/
def slotVld (v : VNum) (a : ANum) (o : BitVec 10) (s : Device) : Except Ev Device := do
  let port ← s.port
  let pa ← s.spAddr (effAddr (s.srcA a) o 64) 512 64
  loadLines v port (eightLines pa) s

/-- VST (R231). -/
def slotVst (v : VNum) (a : ANum) (o : BitVec 10) (s : Device) : Except Ev Device := do
  let port ← s.port
  let pa ← s.spAddr (effAddr (s.srcA a) o 64) 512 64
  storeLines (s.srcV v) port 0 (eightLines pa) s

/-! ## Typed windows (R344, R345) -/

/-- The expected type of the lowest-indexed window of the launch that holds a header's address. -/
def Device.windowType (s : Device) (a : Nat) : Option Nat :=
  (s.curLaunch.windows.find? (fun w =>
    let base := bitField w.toNat 160 21
    decide (base ≤ a) && decide (a < base + bitField w.toNat 128 22))).map (fun w => bitField w.toNat 192 64)

/-- The unification of a header's type with the window that holds the header (R232, R345). -/
def windowRule (s : Device) (a w : Nat) (dv : Dims) : Except Shape Dims :=
  match s.windowType a with
  | some e => unifyTypes s.typeWords dv e w 5
  | none => .ok dv

/-! ## Tile loads and stores (R232, R233, R413, R414) -/

/-- The typing rule of TLD (R232): the bindings, the type word that lands (R413), and its storage. -/
def tldRule (s : Device) (h : Header) (r : TNum) : Except Shape (Dims × Nat × Storage) := do
  headerType h.typ
  let dv ← windowRule s h.prog h.typ s.regs.dv
  let own := (s.srcT r).typ.toNat
  let dv ← if own = 0 then .ok dv else unifyTypes s.typeWords dv own h.typ 0
  let w := if own = 0 then h.typ else own
  let st ← tileStorage dv w r.val 0
  .ok (dv, w, st)

/-- The rows of a type in a region: their addresses and length, of a packed block its lines (R158, R414). -/
def regionRows (h : Header) (dv : Dims) (w operand mm : Nat) (s : Device) : Except Ev (List Nat × Nat) := do
  if tLayout w = 3 then
    if h.pitch > 128 then .error (s.ev 4 12 (mm + 5) h.pitch 128 0)
    else
      s.typed mm (do
        let e ← extents dv w operand
        logicalExtents operand e)
      let l ← spRanges s 64 64 ((rangeFrom 0 h.pitch).map (fun j => h.data + 64 * j))
      .ok (l, 64)
  else
    let st ← s.typed mm (do
      let st ← regionStorage dv w operand
      if st.len > 64 * h.pitch then shapeErr 5 12 st.len (64 * h.pitch) else .ok st)
    let l ← spRanges s st.len 64 ((rangeFrom 0 st.rows).map (fun j => h.data + 64 * h.pitch * j))
    .ok (l, st.len)

/-- Rows read one a tick from issue + `t` on by the entry numbered `target`. -/
def captureRows (target port len : Nat) (t : Nat) : List Nat → Device → Except Ev Device
  | [], s => .ok s
  | a :: rest, s => do
    let s ← captureRanges t target [(a, len)] s
    captureRows target port len (t + 1) rest (useLines s.issue.core t port (spanLines a len) s)

/-- TLD (R232). -/
def slotTld (r : TNum) (a : ANum) (o : BitVec 10) (s : Device) : Except Ev Device := do
  let mm := shapeOp 0x30 0xA
  let port ← s.port
  let (h, s) ← readHeader (effAddr (s.srcA a) o 64) port s
  let s ← checkTag h s
  let (dv, w, st) ← s.typed mm (tldRule s h r)
  let (rows, len) ← regionRows h dv w 5 mm s
  let s ← s.bindDims dv
  let s ← landType r st.pair w h.tag s
  let id := s.seq
  let six := if fmtWidth (tFmt w) = 6 then st.perRow (tLayout w) else 0
  let s ← addFlight (4 + rows.length) (.finish (.tile r st.pair (rows.map (spKey s.issue.core)) len six (tLayout w == 3))) s
  captureRows id port len 1 rows s

/-- The bytes of row `j` of a tile as a region holds them: six-bit elements are packed (R68, R158). -/
def regionRow (t : Tile) (len j : Nat) : List Byte :=
  let x := tileRow t.lo t.hi j
  if fmtWidth (tFmt t.typ) = 6 then
    bytesOf len (ofElems 6 ((rangeFrom 0 (t.st.perRow (tLayout t.typ))).map (fun k => elemAt 8 x k)))
  else bytesOf len x

/-- Rows written one a tick from issue + `t` on. -/
def storeRows (port t : Nat) : List (Nat × List Byte) → Device → Except Ev Device
  | [], s => .ok s
  | (a, b) :: rest, s => do
    let s ← addFlight t (.store (spKey s.issue.core a) b) s
    storeRows port (t + 1) rest (useLines s.issue.core t port (spanLines a b.length) s)

/-- The typing rule of TST (R233); the word that the header is to receive must be well formed (R91). -/
def tstRule (s : Device) (h : Header) (r : TNum) : Except Shape (Dims × Tile) := do
  let own := (s.srcT r).typ.toNat
  let dv ← if h.typ = 0 then .ok s.regs.dv
    else do
      headerType h.typ
      unifyTypes s.typeWords s.regs.dv h.typ own 5
  let src ← s.tileWith dv r 1
  headerType (constExts dv src.typ 0 (tRank src.typ))
  .ok (dv, src)

/-- TST (R233): the header receives the word as TGETT.r would write it. -/
def slotTst (r : TNum) (a : ANum) (o : BitVec 10) (s : Device) : Except Ev Device := do
  let mm := shapeOp 0x30 0xB
  let port ← s.port
  let (h, s) ← readHeader (effAddr (s.srcA a) o 64) port s
  let (dv, src) ← s.typed mm (tstRule s h r)
  let (rows, len) ← regionRows h dv src.typ 1 mm s
  let s ← s.bindDims dv
  let data := if tLayout src.typ = 3 then (rangeFrom 0 rows.length).map (fun j => bytesOf 64 (elemAt 512 src.lo.toNat j))
    else (rangeFrom 0 rows.length).map (regionRow src len)
  let s ← storeRows port 4 (rows.zip data) s
  let s ← addFlight (4 + rows.length) (.header h.at_ (dbl (constExts dv src.typ 0 (tRank src.typ)))) s
  .ok (useLine s.issue.core (h.at_ - spKey s.issue.core 0) (4 + rows.length) port s)

/-! ## The felt (R197, R234) -/

/-- The key of a felt byte. -/
def feltKey (sheaf line : Nat) : Nat := sheaf * 262144 + 64 * line

/-- FLRD (R234): the stamp rule holds at the issue tick. -/
def slotFlrd (v : VNum) (a : ANum) (o : BitVec 10) (s : Device) : Except Ev Device := do
  let _ ← s.port
  let j := effAddr (s.srcA a) o 1 % 4096
  match Assoc.get none s.curSheaf.stamps j with
  | none => .error (s.ev 6 2 j (2 ^ 64 - 1) 0 0)
  | some u =>
    if u > s.issue.tick then .error (s.ev 6 2 j u 0 0)
    else
      let x := ofBytes (Memory.readBytes s.felt (feltKey (s.issue.core / 4) j) 64)
      land 4 [.v v (64 * (j % 8)) 64 (BitVec.ofNat 4096 (x * 2 ^ (512 * (j % 8))))] 0 none s

/-! ## Strided, gathered and scattered vectors (R236, R237) -/

/-- An address plus a signed step, modulo 2^64. -/
def stepBy (a : Nat) (d : Int) : Nat := (((a : Int) + d) % (2 ^ 64 : Nat)).toNat

/-- The lines of a strided access. A stride that is no multiple of 64 makes its first misaligned line raise the fault, before any
line is held to the bounds (R229, R236). -/
def stridedLines (a : ANum) (b : SReg) (s : Device) : Except Ev (List Nat) := do
  let x ← s.srcS b
  let base := (s.srcA a).addr.toNat
  if base % 64 = 0 ∧ x.toNat % 64 ≠ 0 then .error (s.ev 12 0 (stepBy base (lowSigned x)) 0 0 0)
  spRanges s 64 64 ((rangeFrom 0 8).map (fun (q : Nat) => stepBy base (lowSigned x * (q : Int))))

/-- VLDS (R236). -/
def slotVlds (v : VNum) (a : ANum) (b : SReg) (s : Device) : Except Ev Device := do
  let port ← s.port
  let lines ← stridedLines a b s
  loadLines v port lines s

/-- VSTS (R236). -/
def slotVsts (v : VNum) (a : ANum) (b : SReg) (s : Device) : Except Ev Device := do
  let port ← s.port
  let lines ← stridedLines a b s
  storeLines (s.srcV v) port 0 lines s

/-- The bits of an element of VGTH and VSCT. -/
def gBits : GWidth → Nat
  | .w16 => 16
  | .w32 => 32

/-- The physical address of each element of a gather or scatter, checked against the bounds element by element (R237); they
need no alignment (R229). -/
def indexedAddrs (a : ANum) (i : VNum) (w : GWidth) (s : Device) : Except Ev (List Nat) :=
  let n := gBits w
  spRanges s (n / 8) 1 ((velems n (s.srcV i)).map (fun x => (s.srcA a).addr.toNat + n / 8 * x))

/-- A rising list with a number put at its place; one already there is not repeated. -/
def insertRising (x : Nat) : List Nat → List Nat
  | [] => [x]
  | y :: t => if x < y then x :: y :: t else if x = y then y :: t else y :: insertRising x t

/-- Numbers in rising order without repeats. -/
def rising : List Nat → List Nat
  | [] => []
  | x :: t => insertRising x (rising t)

/-- The distinct lines that elements of `n` bytes at some addresses touch, in rising order, each with its number among the
lines of its bank (R228). -/
def bankTurns (n : Nat) (addrs : List Nat) : List (Nat × Nat) :=
  let lines := rising (addrs.map (fun a => spanLines a n)).flatten
  lines.map (fun l => (l, (lines.filter (fun m => bankOf m == bankOf l && decide (m < l))).length))

/-- A gather's or scatter's lines: those of the turns, or the bank conflict of a bank with more than four (R237). -/
def turnsOk (turns : List (Nat × Nat)) (port last : Nat) (s : Device) : Except Ev Unit :=
  match turns.find? (fun p => decide (p.2 ≥ 4)) with
  | none => .ok ()
  | some (l, _) =>
    let d := s.issue.tick * 65536 + port * 1024 + s.issue.core
    .error (s.ev 5 0 (bankOf l + (s.issue.tick + last) * 256) d s.issue.pc d)

/-- The bank-ticks of a gather or scatter from issue + `t` on. -/
def useTurns (port t : Nat) : List (Nat × Nat) → Device → Device
  | [], s => s
  | (l, k) :: rest, s => useTurns port t rest (useLine s.issue.core l (t + k) port s)

/-- The captures of a gather, turn by turn. -/
def captureTurns (target t : Nat) (turns : List (Nat × Nat)) (k : Nat) : Nat → Device → Except Ev Device
  | 0, s => .ok s
  | n + 1, s => do
    let now := (turns.filter (fun p => p.2 == k)).map (fun p => (p.1, 64))
    let s ← if now.isEmpty then .ok s else captureRanges (t + k) target now s
    captureTurns target t turns (k + 1) n s

/-- VGTH (R237). -/
def slotVgth (v : VNum) (a : ANum) (i : VNum) (w : GWidth) (s : Device) : Except Ev Device := do
  let port ← s.port
  let addrs ← indexedAddrs a i w s
  let turns := bankTurns (gBits w / 8) addrs
  turnsOk turns port 5 s
  let id := s.seq
  let s ← addFlight 6 (.finish (.gather v (gBits w) (addrs.map (spKey s.issue.core)))) s
  let s ← captureTurns id 1 turns 0 4 s
  .ok (useTurns port 1 turns s)

/-- The bytes of some from an address on that lie in a line, with the address of the first. -/
def partInLine (line a : Nat) (bytes : List Byte) : Nat × List Byte :=
  let lo := Nat.max line a
  (lo, (bytes.drop (lo - a)).take (line + 64 - lo))

/-- The elements of a scatter that touch a line, with their bytes in it, in ascending element index: where two name one
address the higher index is written last. -/
def scatterLine (n : Nat) (src : VData) (addrs : List Nat) (line : Nat) : List (Nat × List Byte) :=
  ((addrs.zip (rangeFrom 0 addrs.length)).filter (fun p => (spanLines p.1 (n / 8)).contains line)).map (fun p =>
    partInLine line p.1 (bytesOf (n / 8) (velem n src p.2)))

/-- The stores of some bytes at issue + `t`. -/
def storeParts (t : Nat) : List (Nat × List Byte) → Device → Except Ev Device
  | [], s => .ok s
  | (a, x) :: rest, s => do
    let s ← addFlight t (.store (spKey s.issue.core a) x) s
    storeParts t rest s

/-- The stores of a scatter, line by line. -/
def scatterTurns (n t : Nat) (src : VData) (addrs : List Nat) : List (Nat × Nat) → Device → Except Ev Device
  | [], s => .ok s
  | (l, k) :: rest, s => do
    let s ← storeParts (t + k) (scatterLine n src addrs l) s
    scatterTurns n t src addrs rest s

/-- VSCT (R237). -/
def slotVsct (v : VNum) (a : ANum) (i : VNum) (w : GWidth) (s : Device) : Except Ev Device := do
  let port ← s.port
  let addrs ← indexedAddrs a i w s
  let turns := bankTurns (gBits w / 8) addrs
  turnsOk turns port 6 s
  let s ← scatterTurns (gBits w) 2 (s.srcV v) addrs turns s
  .ok (useTurns port 2 turns s)

/-! ## The deckle (R195, R196, R238) -/

/-- Where a value placed at a station stands `n` ticks later (R195). -/
def deckleAt (lane station n : Nat) : Nat := if lane < 8 then (station + n) % 12 else (station + 12 * n - n) % 12

/-- The value of a sheaf's lane position at a sheet tick. -/
def Sheaf.laneValue (x : Sheaf) (lane station tick : Nat) : Option Line :=
  (x.deckle.find? (fun v =>
    v.lane == lane && decide (v.tick ≤ tick) && decide (tick ≤ v.tick + 11) &&
      deckleAt lane v.station (tick - v.tick) == station)).map (fun v => v.data)

/-- Whether a core plans to put a value on a position at a tick. -/
def plansPut (c : Ctx) (lane station tick : Nat) : Bool :=
  c.live.flights.any (fun f => f.due == tick &&
    (match f.op with | .put l st _ _ => l == lane && st == station | _ => false))

/-- The check of R196 on a put that taps at issue + 1. -/
def putFree (lane station : Nat) (s : Device) : Except Ev Unit :=
  let tap := s.issue.tick + 1
  let planned := (rangeFrom (s.issue.core / 4 * 4) 4).any (fun c => plansPut (s.ctx s.issue.l c) lane station tap)
  if (s.curSheaf.laneValue lane station tap).isSome || planned then .error (s.schedule 9 lane tap) else .ok ()

/-- DKPUT (R238): from a vector segment, at the core's station. -/
def slotDkput (l : BitVec 4) (v : VNum) (seg : BitVec 3) (s : Device) : Except Ev Device := do
  let _ ← s.port
  let st := 2 * s.cis + 1
  putFree l.toNat st s
  addFlight 1 (.put l.toNat st (some (vline (s.srcV v) seg.toNat)) 0) s

/-- DKPUT.sp (R238): from a scratchpad line, at the scratchpad's station. -/
def slotDkputSp (l : BitVec 4) (a : ANum) (s : Device) : Except Ev Device := do
  let _ ← s.port
  let st := 2 * s.cis
  let pa ← s.spAddr (s.srcA a).addr.toNat 64 64
  putFree l.toNat st s
  let s ← addFlight 1 (.put l.toNat st none (spKey s.issue.core pa)) s
  .ok (useLine s.issue.core pa 1 2 s)

/-- DKTAKE (R238): to a vector segment at issue + 2. -/
def slotDktake (l : BitVec 4) (v : VNum) (seg : BitVec 3) (s : Device) : Except Ev Device := do
  let _ ← s.port
  let id := s.seq
  let s ← addFlight 2 (.finish (.segment v seg.toNat)) s
  addFlight 1 (.take l.toNat (2 * s.cis + 1) id) s

/-- DKTAKE.sp (R238): to a scratchpad line at issue + 2. -/
def slotDktakeSp (l : BitVec 4) (a : ANum) (s : Device) : Except Ev Device := do
  let _ ← s.port
  let pa ← s.spAddr (s.srcA a).addr.toNat 64 64
  let s ← addFlight 1 (.takeSp l.toNat (2 * s.cis) (spKey s.issue.core pa)) s
  .ok (useLine s.issue.core pa 2 2 s)

/-! ## Buffered effects (R208, R247) -/

/-- A buffered effect enters the store buffer; its charge counts with the bundle's (R300). -/
def buffer (charge ready : Nat) (pages : List Nat) (e : Effect) (s : Device) : Device :=
  let b : Buffered :=
    { seq := s.seq, pc := s.issue.pc, issued := s.issue.tick, ready := s.issue.tick + ready, charge := charge, pages := pages, eff := e }
  let c := s.issue.charge + charge
  let n := s.issue.effects + 1
  let at_ := if s.issue.overAt.isNone && (decide (c > s.live.budget) || decide (n > s.live.effects)) then some s.issue.slot
    else s.issue.overAt
  let s := s.setLive { s.live with store := s.live.store ++ [b] }
  { s with seq := s.seq + 1, issue := { s.issue with charge := c, effects := n, overAt := at_ } }

/-! ## Other contexts (R343) -/

/-- Whether a launch's contexts are resident. -/
def Launch.resident (x : Launch) : Bool := (x.st == .active || x.st == .shadow) && x.streaming == .idle

/-- The launch slot whose context of an address space is reached on a core: the lowest SLOT (R343). -/
def Device.residentOn (s : Device) (asid core : Nat) : Option Nat :=
  ((s.launches.filter (fun p => p.2.resident && p.2.asid == asid && p.2.hasCore core)).foldl
    (fun best p => match best with
      | none => some p
      | some q => if (p.2.seat core).slotNo < (q.2.seat core).slotNo then some p else best) none).map (fun p => p.1)

/-- A checked range of a launch's partition (R331): the physical address. -/
def Launch.range (x : Launch) (s : Device) (core a size align : Nat) : Except Ev Nat :=
  if a % align ≠ 0 then .error (s.ev 12 0 a 0 0 0)
  else if a + size > x.spSize then .error (s.ev 13 1 a x.spSize 0 0)
  else .ok (x.spPhys core a)

/-! ## Atomics, barriers, queues and fences -/

/-- The bytes of a unit of an atomic. -/
def unitBytes (w : Bool) : Nat := if w then 8 else 4

/-- SATOM (R249, R343). -/
def slotSatom (a : ANum) (d : SReg) (op : AtomOp) (w : Bool) (cis : BitVec 2) (s : Device) : Except Ev Device := do
  let _ ← s.port
  let n := unitBytes w
  let core := s.issue.core / 4 * 4 + cis.toNat
  let addr := (s.srcA a).addr.toNat
  let v ← s.srcS d
  let c ← if op = .cas then s.srcS (Fin.ofNat 64 (d.val + 1)) else .ok 0
  match s.residentOn s.asid core with
  | none => .error (s.ev 15 5 addr 0 0 0)
  | some l =>
    let pa ← (s.launch l).range s core addr n n
    let id := s.seq
    let s ← addFlight 5 (.finish (.scalar d (spKey core pa) n)) s
    let s ← addFlight 3 (.satom id op (spKey core pa) n v c) s
    .ok (useLine core pa 3 2 s)

/-- FENCE (R251): the mark of its ream. -/
def slotFence (k : FenceKind) (s : Device) : Except Ev Device := do
  let _ ← s.port
  let bit := match k with
    | .dev => 1
    | .sys => 2
    | .ap => 4
  let x := s.curLaunch
  .ok (s.setLaunch s.issue.l { x with fences := x.fences ||| bit })

/-- BINIT (R252). -/
def slotBinit (a : ANum) (v : SReg) (s : Device) : Except Ev Device := do
  let port ← s.port
  let pa ← s.spAddr (s.srcA a).addr.toNat 8 8
  let x ← s.srcS v
  let s ← addFlight 2 (.store (spKey s.issue.core pa) (bytesOf 8 (x.toNat % 2 ^ 32 * 2 ^ 32))) s
  .ok (useLine s.issue.core pa 2 port s)

/-- BSIG (R253): timed on a core of the sheaf, through free bank-ticks on another of the sheet, buffered outside it; a named core
reaches the context of R343. -/
def slotBsig (a : ANum) (v sc : SReg) (c : Bool) (s : Device) : Except Ev Device := do
  let port ← s.port
  let x ← if v = 0 then .ok 1 else s.srcS v
  let core ← if c then do
      let y ← s.srcS sc
      .ok (bitField y.toNat 0 10)
    else .ok s.issue.core
  let addr := (s.srcA a).addr.toNat
  match (if c then s.residentOn s.asid core else some s.issue.l) with
  | none => .error (s.ev 15 5 addr 0 0 0)
  | some l =>
    let pa ← (s.launch l).range s core addr 8 8
    let key := spKey core pa
    if core / 4 = s.issue.core / 4 then
      let s ← addFlight 2 (.signal key x.toNat) s
      .ok (useLine core pa 2 (if core = s.issue.core then port else 2) s)
    else if s.curLaunch.hasCore core then addFlight 32 (.crossSignal (ctxKey l core) key x.toNat) s
    else .ok (buffer 0 0 [] (.signal (ctxKey l core) key x.toNat) s)

/-- BWAIT (R254): its bundle is a wait point; a round is consumed at issue + 1 unless it keeps. -/
def slotBwait (a : ANum) (bare keep : Bool) (s : Device) : Except Ev Device := do
  let port ← s.port
  if bare then .ok s
  else
    let pa ← s.spAddr (s.srcA a).addr.toNat 8 8
    if keep then .ok s
    else
      let s ← addFlight 1 (.consume (spKey s.issue.core pa)) s
      .ok (useLine s.issue.core pa 1 port s)

/-- QCNT (R255). -/
def slotQcnt (d : SReg) (q : BitVec 2) (s : Device) : Except Ev Device := do
  let _ ← s.port
  landS 1 d (dbl (s.cur.queues[Fin.ofNat 4 q.toNat].length)) s

/-! ## Beaters (R259) -/

/-- Lines a transform acts on. -/
def xfmLines (op : Xfm) (cnt : Nat) : Nat := if op = .tr16 then 32 else cnt + 1

/-- Duration of a transform in ticks. -/
def xfmTicks (op : Xfm) (cnt : Nat) : Nat :=
  match op with
  | .tr16 => 66
  | .zero => cnt + 1
  | .fill => cnt + 1
  | .scl2Fp32 => 2 * (cnt + 1)
  | .scl2Bf16 => 2 * (cnt + 1)
  | .addcFp32 => 2 * (cnt + 1)
  | .addcI32 => cnt + 1
  | .nrw => 2 * (cnt + 1)
  | .swp16 => cnt + 1

/-- BXFM (R259): the bank is occupied from issue + 2, and the lines change at the last tick. -/
def slotBxfm (a : ANum) (op : Xfm) (v : SReg) (cnt : BitVec 4) (s : Device) : Except Ev Device := do
  let _ ← s.port
  let x ← s.srcS v
  let lines ← spRanges s 64 64 ((rangeFrom 0 (xfmLines op cnt.toNat)).map (fun q => (s.srcA a).addr.toNat + 2048 * q))
  let n := xfmTicks op cnt.toNat
  let s ← addFlight (1 + n) (.beat op (lines.map (spKey s.issue.core)) x) s
  .ok (useBank s.issue.core (bankOf (s.srcA a).addr.toNat) 2 (1 + n) 4 s)

end Sys2Proof.Machine
end

