-- ==== Sys2Proof/Machine/Copy.lean ====
section
/-! DEFINITION. Copies: the record and its checks (R239 to R242, R411), the elements and scales a copy writes (R240,
R241), the binding of a timed copy to the timeline (R271, R272), and CPY, CPYU and CPYW (R244 to R247). -/

namespace Sys2Proof.Machine

/-! ## The record (R239) -/

/-- Which copy instruction a record serves. -/
inductive CopyKind where
  | timed | untimed | buffered
deriving DecidableEq, Repr

/-- A field of a copy record. -/
def CopySpec.field (c : CopySpec) (lo n : Nat) : Nat := bitField c.record.toNat lo n
/-- SK: whether the source is a scratchpad. -/
def CopySpec.fromSp (c : CopySpec) : Bool := c.field 298 2 == 1
/-- DK: whether the destination is global. -/
def CopySpec.global (c : CopySpec) : Bool := c.field 300 2 == 1
/-- DREG. -/
def CopySpec.dreg (c : CopySpec) : Bool := c.field 302 1 == 1
/-- T. -/
def CopySpec.transposes (c : CopySpec) : Bool := c.field 303 1 == 1
/-- SCM. -/
def CopySpec.scm (c : CopySpec) : Nat := c.field 304 2
/-- DFMT. -/
def CopySpec.dfmt (c : CopySpec) : Nat := c.field 310 5
/-- SFMT. -/
def CopySpec.sfmt (c : CopySpec) : Nat := c.field 315 5
/-- ARRIVE. -/
def CopySpec.arrive (c : CopySpec) : Nat := c.field 320 16
/-- WE0, columns of the window. -/
def CopySpec.we0 (c : CopySpec) : Nat := c.field 206 9
/-- WE1, rows of the window. -/
def CopySpec.we1 (c : CopySpec) : Nat := c.field 215 9
/-- D0 (R240). -/
def CopySpec.d0 (c : CopySpec) : Nat := if c.transposes then c.we1 else c.we0
/-- D1 (R240). -/
def CopySpec.d1 (c : CopySpec) : Nat := if c.transposes then c.we0 else c.we1
/-- Bytes of a source element. -/
def CopySpec.eb (c : CopySpec) : Nat := fmtWidth c.sfmt / 8
/-- Bytes of a destination row (R240, R411). -/
def CopySpec.rowBytes (c : CopySpec) : Nat := ceilDiv (c.d0 * fmtWidth c.dfmt) 8
/-- Bytes of scales (R241). -/
def CopySpec.scaleCount (c : CopySpec) : Nat := if c.scm = 1 then c.d0 / 32 * c.d1 else if c.scm = 2 then 1 else 0
/-- NR (R244). -/
def CopySpec.nr (c : CopySpec) : Nat := c.d1 + ceilDiv c.scaleCount 64
/-- The address of destination row `i`. -/
def CopySpec.rowAt (c : CopySpec) (i : Nat) : Nat := c.dataAt + 64 * c.pitch * i

/-- Whether a format code may be a source's (R239). -/
def copySource (f : Nat) : Bool := decide (f ≤ 4) || (decide (12 ≤ f) && decide (f ≤ 14)) || (decide (16 ≤ f) && decide (f ≤ 18))
/-- Whether a format code may be a destination's (R239). -/
def copyDest (f : Nat) : Bool := decide (f ≤ 7) || (decide (12 ≤ f) && decide (f ≤ 14)) || (decide (16 ≤ f) && decide (f ≤ 18))
/-- Whether a pair of formats may be copied (R240). -/
def copyPair (src dst : Nat) : Bool := src == dst || (decide (src ≤ 7) && decide (dst ≤ 7) && (wideFloat src || wideFloat dst))

/-- Whether a scratchpad address field is legal: its reserved bits and its core (R239). -/
def spField (x : Nat) (who : Nat → Bool) : Bool := x / 2 ^ 31 == 0 && decide (bitField x 21 10 < 640) && who (bitField x 21 10)

/-- The first pass of R242: each field's low bit, and whether the field is legal, in bit order. -/
def copyFields (k : CopyKind) (c : CopySpec) (me : Nat) (ofSheet : Nat → Bool) (so : Nat) : List (Nat × Bool) :=
  let f := c.field
  let eb := Nat.max c.eb 1
  let plain := k != .untimed
  let saddr := f 0 48
  let daddr := f 64 48
  let srcAt := if c.fromSp then (saddr + so) % 2 ^ 21 else (saddr + so) % 2 ^ 48
  let srcOk := if c.fromSp then
      spField saddr (fun x => if k = .buffered then x == me else if k = .timed then ofSheet x else true)
    else true
  let dstOk := if c.global then true else spField daddr (fun x => f 300 2 != 0 || x == me)
  let timedGlobal := k == .timed && !c.fromSp
  [ (0, srcOk && srcAt % eb == 0), (48, f 48 16 == 0), (64, dstOk), (112, f 112 16 == 0), (128, f 128 32 % eb == 0),
    (160, f 160 16 != 0), (176, f 176 16 != 0), (192, f 192 14 == 0), (206, decide (1 ≤ c.we0) && decide (c.we0 ≤ 256)),
    (215, decide (1 ≤ c.we1) && decide (c.we1 ≤ 256)), (256, f 256 30 == 0),
    (286, if c.dreg then f 286 12 == 0 else f 286 12 != 0),
    (298, decide (f 298 2 ≤ 1) && (k != .buffered || c.fromSp)),
    (300, decide (f 300 2 ≤ 2) && (k != .timed || f 300 2 == 0) && (k != .buffered || c.global)),
    (302, !(c.dreg && (c.global || k == .buffered))),
    (304, decide (c.scm ≤ 2) && (plain || c.scm == 0) && (c.scm == 0 || (decide (3 ≤ c.dfmt) && decide (c.dfmt ≤ 7))) &&
      (c.scm != 1 || c.d0 % 32 == 0)),
    (306, decide (f 306 2 ≤ 2) && (plain || f 306 2 == 0)), (308, plain || f 308 2 == 0),
    (310, copyDest c.dfmt && (copySource c.sfmt == false || copyPair c.sfmt c.dfmt) && (plain || c.sfmt == c.dfmt)),
    (315, copySource c.sfmt), (320, if k = .timed then c.arrive != 0 else c.arrive == 0), (336, plain || f 336 16 == 0),
    (352, plain && (c.scm == 2 || (c.scm == 1 && !c.dreg)) || f 352 32 == 0), (384, f 384 21 == 0),
    (405, timedGlobal || f 405 3 == 0), (408, k == .timed || f 408 16 == 0), (424, timedGlobal || f 424 24 == 0),
    (448, if k = .untimed then f 448 32 % 8 == 0 else f 448 32 == 0), (480, f 480 32 == 0) ]

/-- The lowest failing field of a list of checks. -/
def firstBad (l : List (Nat × Bool)) : Option Nat := (l.find? (fun p => !p.2)).map (fun p => p.1)

/-! ## Bytes read (R240) -/

/-- The bytes of the source that the window reads, row by row: the row, the first byte's address and the number of
bytes; nothing beyond the tensor's edge. -/
def CopySpec.reads (c : CopySpec) : List (Nat × Nat × Nat) :=
  let o0 := c.field 224 16
  let o1 := c.field 240 16
  let ncol := Nat.min c.we0 (c.field 160 16 - o0)
  if ncol = 0 then []
  else
    (rangeFrom 0 (Nat.min c.we1 (c.field 176 16 - o1))).map (fun a =>
      (a, c.src + (o1 + a) * c.field 128 32 + o0 * c.eb, ncol * c.eb))

/-- The distinct lines of some global ranges, in ascending address (R243, R271). -/
def globalLines (l : List (Nat × Nat)) : List Nat := rising ((l.map (fun p => spanLines p.1 p.2)).flatten.map va48)

/-! ## Elements and scales (R240, R241) -/

/-- The source code of destination element (i0, i1), none where it is zero fill (R240). -/
def CopySpec.code (c : CopySpec) (read : Nat → Byte) (i0 i1 : Nat) : Option Nat :=
  let c0 := c.field 224 16 + (if c.transposes then i1 else i0)
  let c1 := c.field 240 16 + (if c.transposes then i0 else i1)
  if c0 ≥ c.field 160 16 ∨ c1 ≥ c.field 176 16 then none
  else
    let a := c.src + c1 * c.field 128 32 + c0 * c.eb
    some (ofBytes ((rangeFrom a c.eb).map read))

/-- The counter of an element (R240). -/
def CopySpec.counter (c : CopySpec) (i : Nat) : Nat := i + c.field 336 16 * 1024

/-- The value of an element. -/
def CopySpec.value (c : CopySpec) (x : Option Nat) : Exact :=
  match x with
  | none => .zero false
  | some v => decodeElem c.sfmt 0 v

/-- An element copied without scales (R240). -/
def CopySpec.convert (c : CopySpec) (md : Modes) (i : Nat) (x : Option Nat) : Nat × Flags :=
  if c.sfmt = c.dfmt then (x.getD 0, 0)
  else deliver (md.forCodes c.sfmt c.dfmt) (c.counter i) (destOfCode c.dfmt) (c.value x)

/-- The rows, flags and scales of a copy. -/
structure CopyOut where
  rows : List (List Byte)
  flags : List Flags
  scales : List Byte
deriving DecidableEq, Repr

/-- The scaled blocks of a copy: one for each 32 elements, or one for the tile (R241). -/
def CopySpec.blocks (c : CopySpec) (md : Modes) (xs : List Exact) (n : Nat) : List Scaled :=
  (rangeFrom 0 (ceilDiv xs.length n)).map (fun b =>
    scaleSearch (.flt (floatOfCode c.dfmt)) md (fun j => c.counter (n * b + j)) ((xs.drop (n * b)).take n))

/-- What a copy writes, from a reader of its source bytes. -/
def CopySpec.output (c : CopySpec) (md : Modes) (read : Nat → Byte) : CopyOut :=
  let d0 := c.d0
  let d1 := c.d1
  let xs := ((rangeFrom 0 d1).map (fun i1 => (rangeFrom 0 d0).map (fun i0 => c.code read i0 i1))).flatten
  let (codes, flags, scales) :=
    if c.scm = 0 then
      let r := (xs.zip (rangeFrom 0 xs.length)).map (fun p => c.convert md p.2 p.1)
      (codesOf r, r.map (fun p => p.2), [])
    else
      let n := if c.scm = 1 then 32 else d0 * d1
      let bs := c.blocks md (xs.map c.value) n
      ((bs.map (fun b => b.codes)).flatten, (bs.map (fun b => blockFlags n b.flags)).flatten, bs.map (fun b => BitVec.ofNat 8 b.x))
  { rows := (rangeFrom 0 d1).map (fun i1 =>
      bytesOf c.rowBytes (ofElems (fmtWidth c.dfmt) ((codes.drop (d0 * i1)).take d0))),
    flags := (rangeFrom 0 d1).map (fun i1 => orFlags ((flags.drop (d0 * i1)).take d0)),
    scales := scales }

/-- The modes of a copy, from its record and FCTL (R239). -/
def Device.copyModes (s : Device) (c : CopySpec) : Modes :=
  let rnd := match c.field 308 2 with
    | 0 => RndSel.fctl
    | 1 => RndSel.rne
    | 2 => RndSel.rz
    | _ => RndSel.rsr
  let sm := match c.field 306 2 with
    | 0 => SatSel.fctl
    | 1 => SatSel.sat
    | _ => SatSel.nsat
  s.modes rnd sm

/-! ## The checks at issue (R242, R343) -/

/-- A copy-record fault (R242). -/
def Device.badCopy (s : Device) (a low : Nat) : Ev := s.ev 14 0 a low 0 0

/-- The launch whose context a copy reaches on a core: the one of R343 where a CPYU names the core (SK = 1, DK = 2), else the
issuing sheet's own. -/
def copyTarget (k : CopyKind) (named : Bool) (core addr : Nat) (s : Device) : Except Ev (Nat × Launch) :=
  if named = false ∨ k ≠ .untimed then .ok (s.issue.l, s.curLaunch)
  else
    match s.residentOn s.asid core with
    | some l => .ok (l, s.launch l)
    | none => .error (s.ev 15 5 addr 0 0 0)

/-- A copy's record as checked: its spec, the translations of no line yet, the core and launch slot of each scratchpad
side, and the destination header. -/
structure CopyPlan where
  spec : CopySpec
  recAt : Nat
  srcCore : Nat
  srcL : Nat
  dstCore : Nat
  dstL : Nat
  hdr : Option Header

/-- A range of a partition, as a Boolean (R331). -/
def Launch.holds (x : Launch) (a n : Nat) : Bool := decide (a + n ≤ x.spSize)

/-- The output type word of a copy (R241, R242). -/
def copyWord (c : CopySpec) : Nat :=
  resultWord c.d0 c.d1 + c.dfmt * 2 ^ 32 + (if c.scm = 1 ∧ c.dreg = true then 3 * 2 ^ 40 + 2 ^ 44 else 0)

/-- The effective addresses of a record (R239). -/
def CopySpec.srcAddr (c : CopySpec) (so : Nat) : Nat := (c.field 0 48 + so) % (if c.fromSp then 2 ^ 21 else 2 ^ 48)
/-- The effective destination address. -/
def CopySpec.dstAddr (c : CopySpec) (dof : Nat) : Nat := (c.field 64 48 + dof) % (if c.global then 2 ^ 48 else 2 ^ 21)

/-- The spec of a record with its program addresses, under the header it names. -/
def CopySpec.placed (raw : CopySpec) (srcA dstA : Nat) (hdr : Option Header) : CopySpec :=
  let dataA := match hdr with
    | some h => h.data
    | none => dstA
  let pitch := match hdr with
    | some h => h.pitch
    | none => raw.field 286 12
  let scaleA := if ((raw.dreg && raw.scm == 1) || raw.global) = true then dataA + 64 * pitch * raw.d1 else raw.field 352 32
  { raw with src := srcA, dst := dstA, dataAt := dataA, pitch := pitch, scaleAt := scaleA, typ := dbl (copyWord raw) }

/-- The second pass of R242: the limits that join several fields. -/
def copyLimits (k : CopyKind) (c : CopySpec) (sx dx : Launch) : List (Nat × Bool) :=
  let srcIn := !c.fromSp || c.reads.all (fun p => sx.holds p.2.1 p.2.2)
  let fits := decide (c.rowBytes ≤ 64 * c.pitch)
  let dstIn := c.global || ((!c.dreg || dx.holds c.dst 16) &&
    (rangeFrom 0 c.d1).all (fun i => dx.holds (c.rowAt i) c.rowBytes) &&
    (c.scaleCount == 0 || dx.holds c.scaleAt c.scaleCount))
  let arriveOk := k != .timed || (decide (c.nr + 1 ≤ c.arrive) && (!c.fromSp || decide (c.we1 + 17 + c.nr ≤ c.arrive)))
  [(0, srcIn), (64, dstIn && (!c.dreg || fits)), (286, c.dreg || fits), (320, arriveOk)]

/-- The spec with the keys of its scratchpad sides in place of their program addresses. -/
def CopySpec.keyed (c : CopySpec) (sx dx : Launch) (srcCore dstCore : Nat) : CopySpec :=
  let d := fun (v : Nat) => if c.global then v else spKey dstCore (dx.spPhys dstCore v)
  { c with
    src := if c.fromSp then spKey srcCore (sx.spPhys srcCore c.src) else c.src
    dst := d c.dst
    dataAt := d c.dataAt
    scaleAt := d c.scaleAt }

/-- The destination header of a record, read at issue (R242): misaligned, it is the fault of R229. -/
def copyHdr (c : CopySpec) (dstA dstCore port : Nat) (dx : Launch) (s : Device) : Except Ev (Option Header × Device) :=
  if c.dreg = false then .ok (none, s)
  else if dstA % 16 ≠ 0 then .error (s.ev 12 0 dstA 0 0 0)
  else
    let hpa := dx.spPhys dstCore dstA
    .ok (some (headerOf (spKey dstCore hpa) dstA (s.spRead dstCore hpa 16)), useLine dstCore hpa 0 port s)

/-- The two passes of R242 over the record at `a`. -/
def checkCopy (k : CopyKind) (a : ANum) (so dof : SReg) (s : Device) : Except Ev (CopyPlan × Device) := do
  let port ← s.port
  let recAt := (s.srcA a).addr.toNat
  let rp ← s.spAddr recAt 64 64
  let r := BitVec.ofNat 512 (ofBytes (s.spRead s.issue.core rp 64))
  let s := useLine s.issue.core rp 0 port s
  let x ← s.srcS so
  let y ← s.srcS dof
  let raw : CopySpec := { record := r, src := 0, dst := 0, dataAt := 0, pitch := 0, scaleAt := 0, typ := 0 }
  match firstBad (copyFields k raw s.issue.core s.curLaunch.hasCore x.toNat) with
  | some low => .error (s.badCopy recAt low)
  | none => do
    let srcA := raw.srcAddr x.toNat
    let dstA := raw.dstAddr y.toNat
    let srcCore := bitField (raw.field 0 48) 21 10
    let dstCore := bitField (raw.field 64 48) 21 10
    let (srcL, sx) ← if raw.fromSp = true then copyTarget k true srcCore srcA s else .ok (s.issue.l, s.curLaunch)
    let (dstL, dx) ← if raw.global = true then .ok (s.issue.l, s.curLaunch) else copyTarget k (raw.field 300 2 == 2) dstCore dstA s
    let (hdr, s) ← copyHdr raw dstA dstCore port dx s
    let spec := raw.placed srcA dstA hdr
    match firstBad (copyLimits k spec sx dx) with
    | some low => .error (s.badCopy recAt low)
    | none =>
      .ok ({ spec := spec.keyed sx dx srcCore dstCore, recAt := recAt, srcCore := srcCore, srcL := srcL,
             dstCore := dstCore, dstL := dstL, hdr := hdr }, s)

/-- The unification of the output type with the window and the header (R242, R345). -/
def copyRule (s : Device) (h : Header) (w : Nat) : Except Shape Dims := do
  let dv ← match s.windowType h.prog with
    | some e => unifyTypes s.typeWords s.regs.dv w e 5
    | none => .ok s.regs.dv
  if h.typ = 0 then .ok dv
  else do
    headerType h.typ
    unifyTypes s.typeWords dv h.typ w 5

/-- The header's part of a copy: its unification, and the bindings. -/
def copyHeader (p : CopyPlan) (minor : Nat) (s : Device) : Except Ev Device :=
  match p.hdr with
  | none => .ok s
  | some h => do
    let dv ← s.typed (shapeOp 0x31 minor) (copyRule s h p.spec.typ.toNat)
    s.bindDims dv

/-! ## The source and destination of a copy -/

/-- The bytes of the source that lie in scratchpad, read from issue + 1 on, row by row, for the entry numbered `target`
(R244, R246). -/
def captureWindow (core target : Nat) : List (Nat × Nat × Nat) → Device → Except Ev Device
  | [], s => .ok s
  | (a, k, n) :: rest, s => do
    let s ← addFlight (1 + a) (.capture target [(k, n)]) s
    captureWindow core target rest (useLines core (1 + a) 3 (spanLines (k - spKey core 0) n) s)

/-- The global ranges of a copy's destination: its rows, then its scales. -/
def CopySpec.writes (c : CopySpec) : List (Nat × Nat) :=
  (rangeFrom 0 c.d1).map (fun i => (c.rowAt i, c.rowBytes)) ++
    (if c.global && c.scaleCount != 0 then [(c.scaleAt, c.scaleCount)] else [])

/-- The pages of some translated lines. -/
def pagesOf (l : List (Nat × GAddr)) : List Nat := rising (l.map (fun p => p.1 / 65536))

/-- The charge of some translated lines: 64 bytes for each of device memory (R247). -/
def chargeOf (l : List (Nat × GAddr)) : Nat := 64 * (l.filter (fun p => paTarget p.2.pa == 0)).length

/-! ## Binding to the timeline (R271 to R273) -/

/-- P: the positions of a stack's ring. -/
def Stack.positions (x : Stack) : Nat := bitField x.tlctl.toNat 17 14 + 1
/-- RUN. -/
def Stack.running (x : Stack) : Bool := bitAt x.tlctl.toNat 0

/-- The read words of a sheaf in word-index order from `tslot` on around the ring. -/
def Stack.ownWords (x : Stack) (sheaf tslot : Nat) : List (Nat × Nat) :=
  let l := (x.words.filter (fun p => decide (p.1 < 32 * x.positions) && bitField p.2.toNat 61 3 == 1 &&
    bitField p.2.toNat 26 8 == sheaf)).map (fun p => (p.1, p.2.toNat))
  l.filter (fun p => decide (tslot ≤ p.1)) ++ l.filter (fun p => decide (p.1 < tslot))

/-- The location a word of a stack names. -/
def wordLoc (stack ix w : Nat) : Nat :=
  lineIndex stack (ix % 32) (bitField w 57 2) (bitField w 55 2) (bitField w 53 2) (bitField w 39 14) (bitField w 34 5)

/-- The crossing latency of the web (R272). -/
def crossing (core stack : Nat) : Nat :=
  let q := quireOf core
  let d := if q ≥ stack then q - stack else stack - q
  6 + 4 * Nat.min d (8 - d)

/-- The location of a translated line; none for a page that is not device memory. -/
def gaddrLoc (g : GAddr) : Option Nat := if paTarget g.pa = 0 then some (dramMap g.pa g.im g.sw) else none

/-- A line bound to a word: its virtual address, location and word index. -/
abbrev Bound := Nat × Nat × Nat

/-- A timeline fault at issue (R271, R380). -/
def Device.timelineFault (s : Device) (cause stack ix va found planned : Nat) : Ev :=
  s.ev 18 cause (stack * 2 ^ 56 + ix) va found planned

/-- The address check of each line against its word, in order. -/
def bindLines (stack : Nat) (s : Device) : List ((Nat × GAddr) × (Nat × Nat)) → Except Ev (List Bound)
  | [] => .ok []
  | ((va, g), (ix, w)) :: t =>
    let planned := wordLoc stack ix w
    match gaddrLoc g with
    | some loc =>
      if loc = planned then do
        let r ← bindLines stack s t
        .ok ((va, loc, ix) :: r)
      else .error (s.timelineFault 1 stack ix va (locationWord loc) (locationWord planned))
    | none => .error (s.timelineFault 1 stack ix va 0 (locationWord planned))

/-- The words of a stack that other copies of the issuing sheet's sheaf hold at a sheet tick. -/
def Device.heldWords (s : Device) (stack : Nat) : List Nat :=
  (s.copies.map (fun p => match p.2 with
    | some c =>
      if c.key / 640 = s.issue.l ∧ c.key % 640 / 4 = s.issue.core / 4 ∧ c.stack = stack ∧ s.issue.tick ≤ c.until_ then
        c.lines.map (fun x => x.2.2.1)
      else []
    | none => [])).flatten

/-- The binding checks of R271 in their order. -/
def bindCopy (c : CopySpec) (lines : List (Nat × GAddr)) (s : Device) : Except Ev (List Bound) := do
  let stack := c.field 405 3
  let tslot := c.field 424 24
  let x := s.stack stack
  let own := x.ownWords (s.issue.core / 4) tslot
  let va := match lines with
    | [] => 0
    | p :: _ => p.1
  if x.running = false ∨ own.length < Nat.max lines.length 1 then
    .error (s.timelineFault 6 stack tslot va lines.length own.length)
  else do
    let bound ← bindLines stack s (lines.zip own)
    let first := match own with
      | [] => (0, 0)
      | p :: _ => p
    let fault := fun (cause : Nat) (b : Bound) =>
      s.timelineFault cause stack b.2.2 b.1 (locationWord b.2.1) (locationWord b.2.1)
    match bound with
    | [] => .ok []
    | b :: _ =>
      let lastIx := match bound.getLast? with
        | some l => l.2.2
        | none => 0
      let p := x.positions
      let d := (lastIx / 32 + p - tslot / 32 % p) % p
      if c.field 408 16 ≠ bitField first.2 10 16 then .error (fault 2 b)
      else
        match bound.find? (fun y => (s.heldWords stack).contains y.2.2) with
        | some y => .error (fault 3 y)
        | none =>
          if c.arrive < 2 * crossing s.issue.core stack + ceilDiv (3 * (p + d + 1)) 5 + 40 + c.nr then .error (fault 4 b)
          else .ok bound

/-! ## CPY (R244) -/

/-- The bytes row `r` of a copy writes: a destination row, or 64 bytes of its scales (R244, R411). -/
def CopySpec.rowRange (c : CopySpec) (r : Nat) : Nat × Nat :=
  if r < c.d1 then (c.rowAt r, c.rowBytes)
  else (c.scaleAt + 64 * (r - c.d1), Nat.min 64 (c.scaleCount - 64 * (r - c.d1)))

/-- The rows of a timed copy land one a tick up to issue + ARRIVE. -/
def copyRows (id core : Nat) (c : CopySpec) (r : Nat) : Nat → Device → Except Ev Device
  | 0, s => .ok s
  | n + 1, s => do
    let t := c.arrive - c.nr + r
    let s ← addFlight t (.copyRow id r) s
    let (k, len) := c.rowRange r
    copyRows id core c (r + 1) n (useLines core t 3 (spanLines (k - spKey core 0) len) s)

/-- The requests of a copy's lines to its stack's controller, which they reach after the crossing. -/
def requestLines (stack id : Nat) (bound : List Bound) (s : Device) : Device :=
  let x := s.stack stack
  let t := s.mill + crossing s.issue.core stack
  let new := (bound.zip (rangeFrom 0 bound.length)).map (fun p =>
    { word := p.1.2.2, copy := id, line := p.2, loc := p.1.2.1, mill := t : Claim })
  s.setStack stack { x with claims := x.claims ++ new }

/-- Whether a tick lies in another ream than the issue tick. -/
def Device.crossesReam (s : Device) (n : Nat) : Bool :=
  (s.issue.tick + n) / s.curLaunch.ream != s.issue.tick / s.curLaunch.ream

/-- CPY (R244). -/
def slotCpy (a : ANum) (so dof : SReg) (s : Device) : Except Ev Device := do
  let (p, s) ← checkCopy .timed a so dof s
  let c := p.spec
  let id := s.seq
  let s ← copyHeader p 6 { s with seq := s.seq + 1 }
  if s.crossesReam c.arrive then .error (s.schedule 12 0 (s.issue.tick + c.arrive))
  else do
    let s ← match p.hdr with
      | some h => promise h c.arrive s
      | none => .ok s
    let lines := if c.fromSp then [] else globalLines (c.reads.map (fun x => (x.2.1, x.2.2)))
    let (pages, s) ← translateAll false rightsR lines s
    let bound ← if c.fromSp then .ok [] else bindCopy c pages s
    let stack := c.field 405 3
    let cp : Copy :=
      { key := ctxKey s.issue.l s.issue.core, pages := pagesOf pages, stack := stack, issued := s.issue.tick, mill := s.mill,
        until_ := s.issue.tick + c.arrive, spec := c, md := s.copyModes c,
        lines := bound.map (fun b => (b.1, b.2.1, b.2.2, none)), window := [], dstCore := p.dstCore, pc := s.issue.pc }
    let s := { s with copies := Assoc.set none s.copies id (some cp) }
    let s := if c.fromSp then s else requestLines stack id bound s
    let s ← if c.fromSp then do
        let target := s.seq
        let s ← addFlight (1 + c.we1) (.finish (.copyWindow id)) s
        captureWindow p.srcCore target c.reads s
      else .ok s
    let s ← copyRows id p.dstCore c 0 c.nr s
    let s ← addFlight c.arrive (.copyEnd id) s
    .ok (match p.hdr with
      | some h => useLine p.dstCore (h.at_ - spKey p.dstCore 0) c.arrive 3 s
      | none => s)

/-! ## CPYW (R246) -/

/-- CPYW (R246): a buffered write whose conversions are made at issue + 1 + WE1. -/
def slotCpyw (a : ANum) (so dof : SReg) (s : Device) : Except Ev Device := do
  let (p, s) ← checkCopy .buffered a so dof s
  let c := p.spec
  if s.crossesReam (1 + c.we1) then .error (s.schedule 12 0 (s.issue.tick + 1 + c.we1))
  else do
    let (lines, s) ← translateAll false rightsW (globalLines c.writes) s
    let entry := s.seq
    let s := buffer (chargeOf lines) (1 + c.we1) (pagesOf lines) (.write c (s.copyModes c) lines none) s
    let target := s.seq
    let s ← addFlight (1 + c.we1) (.convert entry) s
    captureWindow p.srcCore target c.reads s

/-! ## CPYU (R245) -/

/-- The lines of a copy's destination rows, each with its row. -/
def CopySpec.pieces (c : CopySpec) : List (Nat × Nat) :=
  ((rangeFrom 0 c.d1).map (fun i => (spanLines (c.rowAt i) c.rowBytes).map (fun l => (i, l)))).flatten

/-- The context of a scratchpad side of a copy: its key and its launch's generation. -/
def sideContext (sp : Bool) (l core : Nat) (s : Device) : Option (Nat × Nat) :=
  if sp then some (ctxKey l core, (s.launch l).gen) else none

/-- CPYU (R245): at once to a scratchpad, through the store buffer to global memory. -/
def slotCpyu (a : ANum) (so dof : SReg) (s : Device) : Except Ev Device := do
  let (p, s) ← checkCopy .untimed a so dof s
  let c := p.spec
  let bar ← s.spAddr (c.field 448 32) 8 8
  let id := s.seq
  let s ← copyHeader p 7 { s with seq := s.seq + 1 }
  let srcLines := if c.fromSp then [] else globalLines (c.reads.map (fun x => (x.2.1, x.2.2)))
  let (src, s) ← translateAll true rightsR srcLines s
  let (dst, s) ← translateAll true rightsW (if c.global then globalLines c.writes else []) s
  let (due, s) := s.later
  let u : UCopy :=
    { key := ctxKey s.issue.l s.issue.core, asid := s.asid, started := !c.global, stopped := false, issued := s.issue.tick,
      spec := c, todo := c.pieces, srcPages := src, dstPages := dst, got := [],
      srcCtx := sideContext c.fromSp p.srcL p.srcCore s, dstCtx := sideContext (!c.global) p.dstL p.dstCore s,
      bar := spKey s.issue.core bar, due := due, failed := false, gone := false, header := p.hdr.map (fun h => h.at_) }
  let s := { s with ucopies := Assoc.set none s.ucopies id (some u) }
  .ok (if c.global then buffer (chargeOf dst) 0 (pagesOf (src ++ dst)) (.copy id) s else s)

end Sys2Proof.Machine
end

