-- ==== Sys2Proof/Machine/Links.lean ====
section
/-! DEFINITION. Global atomics (R250), sends and all-reduce contributions (R256, R258) and migrations (R260), up to the
point at which they enter the store buffer or their engine; the routes of the wove (R346) and the peer groups (R349). -/

namespace Sys2Proof.Machine

/-! ## Global atomics (R250) -/

/-- A GATOM of the same ream whose result would land in the same register (R35, R215). -/
def sameReturn (d : SReg) (l : List Buffered) : Option Buffered :=
  l.find? (fun b => match b.eff with
    | .gatom _ _ _ _ _ (some r) => decide (r = d)
    | _ => false)

/-- The tick at which a result of the current ream's commit lands (R215). -/
def Device.returnTick (s : Device) : Nat := (s.issue.tick / s.curLaunch.ream + 1) * s.curLaunch.ream + 24

/-- GATOM (R250): alignment, then translation; the operands are captured at issue. -/
def slotGatom (d a : SReg) (op : AtomOp) (w rt : Bool) (s : Device) : Except Ev Device := do
  let _ ← s.port
  let x ← s.srcS a
  let va := va48 x.toNat
  let n := unitBytes w
  let v ← s.srcS d
  let c ← if op = .cas then s.srcS (Fin.ofNat 64 (d.val + 1)) else .ok 0
  if va % n ≠ 0 then .error (s.ev 12 0 va 0 0 0)
  else do
    let (g, s) ← translateAt false va rightsRw s
    let lands := rt && d != 0 && decide (d.val < 60)
    match (if lands then sameReturn d s.live.store else none) with
    | some b => .error (s.ev 3 1 d.val s.returnTick b.pc b.issued)
    | none => .ok (buffer (chargeOf [(va, g)]) 0 [va / 65536] (.gatom g n op v c (if rt then some d else none)) s)

/-! ## Routes and groups (R346, R349) -/

/-- WOVEID.ADDR. -/
def Device.woveAddr (s : Device) : Nat := bitField s.woveid.toNat 0 16

/-- Whether a link carries frames: trained, and the module has an address (R346). -/
def Device.linkUp (s : Device) (l : Nat) : Bool := bitAt (s.wovectl[Fin.ofNat 16 l]).toNat 63 && s.woveAddr != 0xFFFF

/-- The link of the route to an address: the lowest valid entry whose link is up (R346). -/
def Device.routeTo (s : Device) (d : Nat) : Option Nat :=
  ((s.route.find? (fun p => decide (p.1 < 64) && bitAt p.2.toNat 63 && bitField p.2.toNat 0 16 == d &&
    s.linkUp (bitField p.2.toNat 48 4))).map (fun p => bitField p.2.toNat 48 4))

/-- The members of a peer group, by rank: up to the first 0xFFFF or 64 (R349). -/
def Device.groupMembers (s : Device) (asid g : Nat) : List Nat :=
  ((rangeFrom 0 64).map (fun r =>
    bitField (s.tableWord ((s.asGroups asid).1 + 128 * g + r / 4 * 8)).toNat (16 * (r % 4)) 16)).takeWhile (fun m => m != 0xFFFF)

/-- Whether a group exists and holds this module exactly once (R349). -/
def Device.groupOk (s : Device) (asid g : Nat) : Bool :=
  decide (g < (s.asGroups asid).2) && ((s.groupMembers asid g).filter (fun m => m == s.woveAddr)).length == 1

/-! ## FSEND (R256) -/

/-- The rows of a tile as a frame carries them: the rows of a region, or a packed block's register. -/
def sentRows (t : Tile) : List (BitVec 4096) :=
  if tLayout t.typ = 3 then (rangeFrom 0 32).map (fun j => BitVec.ofNat 4096 (elemAt 2048 t.lo.toNat j))
  else
    let len := if fmtWidth (tFmt t.typ) = 6 then ceilDiv (6 * t.st.perRow (tLayout t.typ)) 8 else t.st.len
    (rangeFrom 0 t.st.rows).map (fun j => BitVec.ofNat 4096 (ofBytes (regionRow t len j)))

/-- The type word of a vector send: one row of at most 512 bytes (R256). -/
def vectorWord (dv : Dims) (w : Nat) : Except Shape Unit := do
  match typeCheck w with
  | some f => shapeErr 6 f w 0
  | none =>
    if tRank w = 0 then shapeErr 6 1 0 0
    else
      let st ← regionStorage dv w 6
      if st.rows ≠ 1 then shapeErr 6 3 st.rows 1
      else if st.len > 512 then shapeErr 6 12 st.len 512
      else .ok ()

/-- FSEND (R256, R347). -/
def slotFsend (v : Bool) (r : BitVec 6) (d : SReg) (s : Device) : Except Ev Device := do
  let _ ← s.port
  let mm := shapeOp 0x31 0x0F
  let desc ← s.srcS d
  let word ← if v then s.srcS (Fin.ofNat 64 (d.val + 1)) else .ok 0
  let x := desc.toNat
  if bitField x 24 40 ≠ 0 then .error (s.badCopy x 24)
  else do
    let (typ, rows) ← s.typed mm (if v then do
        vectorWord s.regs.dv word.toNat
        .ok (word.toNat, [s.srcVn r.toNat])
      else do
        let t ← s.tile (tnum r.toNat) 1
        .ok (t.typ, sentRows t))
    match s.routeTo (bitField x 0 16) with
    | none => .error (s.ev 15 6 (bitField x 0 16) 0 0 0)
    | some _ =>
      let f : WoveFrame :=
        { dest := BitVec.ofNat 16 x, src := 0, ptag := 0, hops := 0, win := BitVec.ofNat 8 (bitField x 16 8),
          typ := dbl (constExts s.regs.dv typ 0 (tRank typ)), rows := rows }
      .ok (buffer 0 0 [] (.send f) s)

/-! ## FRED (R258) -/

/-- A field of a FRED record. -/
def fredField (b : BitVec 256) (lo n : Nat) : Nat := bitField b.toNat lo n

/-- The first pass over a FRED record, in bit order. -/
def fredFields (b : BitVec 256) : List (Nat × Bool) :=
  let bytes := fredField b 96 16
  [(0, fredField b 0 32 % 64 == 0), (32, fredField b 32 32 % 64 == 0), (64, fredField b 64 32 % 8 == 0),
   (96, decide (64 ≤ bytes) && decide (bytes ≤ 4096) && bytes % 64 == 0), (120, decide (fredField b 120 3 ≤ 2)),
   (123, decide (fredField b 123 3 ≤ 3)), (126, fredField b 126 2 == 0), (136, fredField b 136 120 == 0)]

/-- The second pass: the ranges a FRED record names. -/
def fredRanges (b : BitVec 256) (x : Launch) : List (Nat × Bool) :=
  let bytes := fredField b 96 16
  [(0, x.holds (fredField b 0 32) bytes), (32, x.holds (fredField b 32 32) bytes), (64, x.holds (fredField b 64 32) 8)]

/-- The lines of a contribution, one a tick from issue + `t` on. -/
def captureLines1 (target port t : Nat) : List Nat → Device → Except Ev Device
  | [], s => .ok s
  | a :: rest, s => do
    let s ← captureRanges t target [(a, 64)] s
    captureLines1 target port (t + 1) rest (useLine s.issue.core a t port s)

/-- FRED (R258, R349). -/
def slotFred (a : ANum) (s : Device) : Except Ev Device := do
  let port ← s.port
  let recAt := (s.srcA a).addr.toNat
  let rp ← s.spAddr recAt 32 32
  let b := BitVec.ofNat 256 (ofBytes (s.spRead s.issue.core rp 32))
  let s := useLine s.issue.core rp 0 port s
  match (firstBad (fredFields b)).or (firstBad (fredRanges b s.curLaunch)) with
  | some low => .error (s.badCopy recAt low)
  | none => do
    let g := fredField b 112 8
    if s.groupOk s.asid g = false then .error (s.ev 15 7 recAt 0 0 0)
    else do
      let n := fredField b 96 16
      let src := s.curLaunch.spPhys s.issue.core (fredField b 0 32)
      let entry := s.seq
      let s := buffer 0 0 [] (.fred (spKey s.issue.core rp) b none) s
      let target := s.seq
      let s ← addFlight (1 + n / 64) (.fredData entry (spKey s.issue.core src) n) s
      captureLines1 target port 1 ((rangeFrom 0 (n / 64)).map (fun q => src + 64 * q)) s

/-! ## MIGR (R260) -/

/-- The check of each page's translation at issue: MIGR's source read needs R; the page need not be resident (R337). -/
def migrPages (va : Nat) (s : Device) : Nat → Except Ev Unit
  | 0 => .ok ()
  | n + 1 =>
    match s.walk s.asid va with
    | .error (c, l) => .error (s.ev 15 c va l 0 0)
    | .ok f =>
      if rightsR.allowed f.word0.toNat = false then .error (s.ev 15 4 va (pageLevel f.bits) 0 0)
      else migrPages (va48 (va / 2 ^ f.bits * 2 ^ f.bits + 2 ^ f.bits)) s n

/-- MIGR (R260): the migration starts at issue and is not undone by an abort. -/
def slotMigr (a : ANum) (s : Device) : Except Ev Device := do
  let port ← s.port
  let rp ← s.spAddr (s.srcA a).addr.toNat 32 32
  let b := BitVec.ofNat 256 (ofBytes (s.spRead s.issue.core rp 32))
  let s := useLine s.issue.core rp 0 port s
  let bar ← s.spAddr (fredField b 96 32) 8 8
  let va := fredField b 0 48
  migrPages va s (fredField b 80 16)
  let id := s.seq
  let (due, s) := s.later
  let m : Migr :=
    { key := ctxKey s.issue.l s.issue.core, asid := s.asid, at_ := spKey s.issue.core rp, va := va, left := fredField b 80 16,
      deadline := fredField b 128 64, bar := spKey s.issue.core bar, status := 0, due := due, stage := 0 }
  .ok { s with seq := s.seq + 1, migrs := Assoc.set none s.migrs id (some m) }

end Sys2Proof.Machine
end

