-- ==== Sys2Proof/Machine/Work.lean ====
section
/-! DEFINITION. Completion counters by handle (R281, R286), the slots of the vat, and the vat request queues (R318). -/

namespace Sys2Proof.Machine

/-- Graph slot `g`. -/
def Device.graph (s : Device) (g : Nat) : Graph := Assoc.get Graph.free s.graphs g
/-- The state with graph slot `g` replaced. -/
def Device.setGraph (s : Device) (g : Nat) (x : Graph) : Device := { s with graphs := Assoc.set Graph.free s.graphs g x }
/-- Job slot `j`. -/
def Device.job (s : Device) (j : Nat) : Job := Assoc.get Job.free s.jobs j
/-- The state with job slot `j` replaced. -/
def Device.setJob (s : Device) (j : Nat) (x : Job) : Device := { s with jobs := Assoc.set Job.free s.jobs j x }
/-- A field of a job record (R283). -/
def Job.field (x : Job) (lo n : Nat) : Nat := bitField x.record.toNat lo n
/-- NPH. -/
def Job.nph (x : Job) : Nat := x.field 403 5
/-- GCOUNT[p]. -/
def Job.gcount (x : Job) (p : Nat) : Nat := x.field (16 * p) 16

/-! ## Counters (R286) -/

/-- A completion-counter value (R286). -/
def counterBits (fin can err : Bool) (count : Nat) : Nat :=
  count % 2 ^ 32 + bitOf err * 2 ^ 61 + bitOf can * 2 ^ 62 + bitOf fin * 2 ^ 63

/-- What a stale handle reads as. -/
def staleValue : Nat := 2 ^ 63

/-- A handle of a level, slot and generation. -/
def handleOf (lvl idx gen : Nat) : Nat := lvl * 2 ^ 29 + idx % 512 * 2 ^ 20 + gen % 64 * 2 ^ 14

/-- Whether a handle names the current generation of its slot. -/
def sameGen (h gen : Nat) : Bool := bitField h 14 6 == gen % 64

/-- CAN of a launch's counter (R286): a cancel has named the launch or a unit of it. -/
def Launch.cancelled (x : Launch) : Bool := x.can || x.cancel || x.units.any (fun u => u.2.2.1)

/-- CAN of a graph's counter: until the graph has finished, its launches tell of theirs. -/
def Device.graphCancelled (s : Device) (g : Nat) : Bool :=
  let x := s.graph g
  x.can || (!x.fin && x.launches.any (fun l => (s.launch l).cancelled))

/-- CAN of the counter of a phase of a job. -/
def Device.phaseCancelled (s : Device) (j ph : Nat) (p : Phase) : Bool :=
  p.can || (!p.fin && s.graphs.any (fun y => y.2.used && y.2.job == j && y.2.phase == ph && y.1 != (s.job j).root && s.graphCancelled y.1))

/-- CAN of a job's counter. -/
def Device.jobCancelled (s : Device) (j : Nat) : Bool :=
  let x := s.job j
  x.can || (!x.fin && ((x.phases.zip (rangeFrom 0 x.phases.length)).any (fun p => s.phaseCancelled j p.2 p.1) ||
    (!x.rootDone && s.graphCancelled x.root)))

/-- The value of the counter a handle names (R286). -/
def Device.counter (s : Device) (h : Nat) : Nat :=
  let lvl := bitField h 29 3
  let i := bitField h 20 9
  let ph := bitField h 10 4
  if lvl = 0 then
    let x := s.launch i
    match (if sameGen h x.gen then x.units[bitField h 0 10]? else none) with
    | some (n, f, c, e) => counterBits f c e n
    | none => staleValue
  else if lvl = 1 then
    let x := s.launch i
    if sameGen h x.gen then counterBits x.fin x.cancelled x.err x.count else staleValue
  else if lvl = 2 then
    let x := s.graph i
    if i < 128 ∧ sameGen h x.gen = true then counterBits x.fin (s.graphCancelled i) x.err x.count else staleValue
  else if lvl = 3 then
    let x := s.job i
    match (if decide (i < 64) && sameGen h x.gen then x.phases[ph]? else none) with
    | some p => counterBits p.fin (s.phaseCancelled i ph p) p.err p.count
    | none => staleValue
  else if lvl = 4 then
    let x := s.job i
    if i < 64 ∧ sameGen h x.gen = true then counterBits x.fin (s.jobCancelled i) x.err x.count else staleValue
  else staleValue

/-- Whether a handle is stale or names no level (R286, R322). -/
def Device.stale (s : Device) (h : Nat) : Bool :=
  let lvl := bitField h 29 3
  let i := bitField h 20 9
  if lvl ≤ 1 then !sameGen h (s.launch i).gen
  else if lvl = 2 then decide (i ≥ 128) || !sameGen h (s.graph i).gen
  else if lvl ≤ 4 then decide (i ≥ 64) || !sameGen h (s.job i).gen
  else true

/-! ## Free slots -/

/-- One of some possibilities, which the device chooses. -/
def Device.choose (s : Device) (l : List Nat) : Option Nat × Device :=
  match l with
  | [] => (none, s)
  | _ => (l[Config.pick s.fresh % l.length]?, { s with fresh := s.fresh + 1 })

/-- Whether the results of a launch that a fault has ended still land (R56). -/
def Device.landing (s : Device) (l : Nat) : Bool := s.ending.any (fun e => e.1 == l)

/-- The free launch slots; one whose results still land is not free yet (log 7). -/
def Device.freeLaunches (s : Device) : List Nat := (rangeFrom 0 512).filter (fun l => (s.launch l).st == .free && !s.landing l)
/-- The free graph slots. -/
def Device.freeGraphs (s : Device) : List Nat := (rangeFrom 0 128).filter (fun g => !(s.graph g).used)
/-- The free job slots. -/
def Device.freeJobs (s : Device) : List Nat := (rangeFrom 0 64).filter (fun j => !(s.job j).used)

/-! ## The vat request queue (R318, R322, R395) -/

/-- Whether an effect takes a place in a vat request queue. -/
def Effect.request : Effect → Bool
  | .submit _ _ _ _ => true
  | .cancel _ => true
  | .ctxsw _ _ => true
  | .haltc _ _ => true
  | _ => false

/-- The requests of the issuing core that no commit has yet performed, those of other sheets that were active on it among them. -/
def Device.requests (s : Device) : Nat :=
  (s.live.store.filter (fun b => b.eff.request)).length +
    (s.commits.map (fun c => (c.signals.filter (fun p => p.1 == s.issue.core && p.2.request)).length)).foldl (· + ·) 0

/-- Whether the core's vat request queue has room. -/
def Device.requestRoom (s : Device) : Bool := decide (s.requests < 16)

/-- A request placed in the queue: it is charged nothing and counts as no buffered effect. -/
def placeRequest (e : Effect) (s : Device) : Device :=
  let b : Buffered :=
    { seq := s.seq, pc := s.issue.pc, issued := s.issue.tick, ready := s.issue.tick, charge := 0, pages := [], eff := e }
  { s.setLive { s.live with store := s.live.store ++ [b] } with seq := s.seq + 1 }

/-- The job of the issuing sheet. -/
def Device.curJob (s : Device) : Nat := (s.graph s.curLaunch.graph).job

end Sys2Proof.Machine
end

