-- ==== Sys2Proof/Machine/Control.lean ====
section
/-! DEFINITION. The control and scheduling instructions (R304 to R326). A slot records its successor, wait, boundary or
trap in the issue; Machine/Issue.lean settles them (R305, R311). -/

namespace Sys2Proof.Machine

/-! ## Transfers (R307, R308) -/

/-- The issue with a successor, `n` ticks after issue. -/
def goTo (a n : Nat) (s : Device) : Device := { s with issue := { s.issue with target := some (a % 2 ^ 64, n) } }

/-- The target of a direct transfer of the issuing bundle (R43). -/
def branchTarget (s : Device) (off : Int) : Nat := (((s.issue.pc : Int) + 4 * off) % (2 ^ 64 : Nat)).toNat

/-- The address of the fall-through successor. -/
def Device.fallThrough (s : Device) : Nat := s.issue.pc + 4 * s.issue.nslots

/-- JMP (R307). -/
def slotJmp (o : BitVec 24) (s : Device) : Except Ev Device := .ok (goTo (branchTarget s o.toInt) 1 s)

/-- CALL (R307): the link to s59. -/
def slotCall (o : BitVec 24) (s : Device) : Except Ev Device := do
  let s ← landS 1 59 (dbl s.fallThrough) s
  .ok (goTo (branchTarget s o.toInt) 1 s)

/-- BR (R307). -/
def slotBr (a : SReg) (o : BitVec 18) (s : Device) : Except Ev Device := do
  let x ← s.srcS a
  .ok (if x = 0 then s else goTo (branchTarget s o.toInt) 1 s)

/-- BRP (R307). -/
def slotBrp (inv : Bool) (p : PNum) (o : BitVec 18) (s : Device) : Except Ev Device :=
  .ok (if s.srcP p = inv then s else goTo (branchTarget s o.toInt) 1 s)

/-- Whether a ream's last tick lies from tick `lo` to tick `hi`. -/
def Device.holdsLastTick (s : Device) (lo hi : Nat) : Bool :=
  decide (lo ≤ hi) && decide (lo / s.curLaunch.ream < (hi + 1) / s.curLaunch.ream)

/-- The first last tick of a ream from tick `lo` on. -/
def Device.lastTick (s : Device) (lo : Nat) : Nat := (lo / s.curLaunch.ream + 1) * s.curLaunch.ream - 1

/-- An indirect transfer (R308): three empty ticks, none of them a ream's last (R305). -/
def indirect (x : Nat) (s : Device) : Except Ev Device :=
  if x % 4 ≠ 0 then .error (s.ev 20 0 x 0 0 0)
  else if s.holdsLastTick (s.issue.tick + 1) (s.issue.tick + 3) then .error (s.schedule 8 0 (s.lastTick (s.issue.tick + 1)))
  else .ok (goTo x 4 s)

/-- CALLR (R308). -/
def slotCallr (d a : SReg) (s : Device) : Except Ev Device := do
  let x ← s.srcS a
  let s ← indirect x.toNat s
  landS 1 d (dbl s.fallThrough) s

/-- RET (R308). -/
def slotRet (a : SReg) (s : Device) : Except Ev Device := do
  let x ← s.srcS a
  indirect x.toNat s

/-! ## Loops (R309 to R312) -/

/-- The checks of LOOP and LOOPS (R310). -/
def loopChecks (eo : Nat) (s : Device) : Except Ev Unit :=
  if s.regs.loops.length ≥ 6 then .error (s.schedule 13 0 s.issue.tick)
  else if eo < s.issue.nslots then .error (s.schedule 14 0 s.issue.tick)
  else .ok ()

/-- A loop entry pushed (R310). -/
def pushLoop (n eo : Nat) (s : Device) : Device :=
  let e : LoopEntry := { start := s.fallThrough, stop := s.issue.pc + 4 * eo, left := n, ix := 0 }
  { s with issue := { s.issue with push := some e, target := some (e.start, 1) } }

/-- LOOP (R310). -/
def slotLoop (cnt : BitVec 10) (eo : BitVec 8) (s : Device) : Except Ev Device := do
  loopChecks eo.toNat s
  .ok (pushLoop cnt.toNat eo.toNat s)

/-- LOOPS (R310): with a count of 0 the bundle after the body's last is found by decoding that bundle. -/
def slotLoops (a : SReg) (eo : BitVec 8) (s : Device) : Except Ev Device := do
  let x ← s.srcS a
  loopChecks eo.toNat s
  let n := x.toNat % 2 ^ 32
  if n ≠ 0 then .ok (pushLoop n eo.toNat s)
  else
    let stop := s.issue.pc + 4 * eo.toNat
    match s.fetchBundle s.issue.core s.asid stop with
    | .error f => .error (s.fetchFault f)
    | .ok (.bad _ _ _) => .error (s.schedule 14 0 s.issue.tick)
    | .ok (.bundle n _ _) => .ok (goTo (stop + 4 * n) 1 s)

/-- LIDX (R312). -/
def slotLidx (d : SReg) (dep : BitVec 3) (pop : Bool) (s : Device) : Except Ev Device := do
  let ix := match s.regs.loops[dep.toNat]? with
    | some e => e.ix
    | none => 0
  let s ← landS 1 d (ix.setWidth 64) s
  .ok (if pop then { s with issue := { s.issue with pop := true } } else s)

/-! ## Waits, boundaries and ends (R313, R315) -/

/-- A wait until tick `u` (R313). -/
def waitUntil (u : Nat) (s : Device) : Except Ev Device :=
  if s.holdsLastTick (s.issue.tick + 1) (u - 1) then .error (s.schedule 8 0 (s.lastTick (s.issue.tick + 1)))
  else .ok { s with issue := { s.issue with waitt := some (u - s.issue.tick) } }

/-- WAITT #n (R313). -/
def slotWaitt (n : BitVec 17) (s : Device) : Except Ev Device := waitUntil (s.issue.tick + n.toNat) s

/-- WAITT.abs (R313). -/
def slotWaittAbs (a : SReg) (s : Device) : Except Ev Device := do
  let x ← s.srcS a
  if x.toNat ≤ s.issue.tick then .error (s.schedule 15 0 x.toNat) else waitUntil x.toNat s

/-- BND (R315): its tick is checked with its bundle (R191), and the commit follows the tick. -/
def slotBnd (s : Device) : Except Ev Device := .ok { s with issue := { s.issue with bnd := true } }

/-- EXIT (R315). -/
def slotExit (s : Device) : Except Ev Device := .ok { s with issue := { s.issue with exits := true } }

/-! ## Work (R316 to R322) -/

/-- The common conditions on a work request (R318). -/
def requestOk (graph : Bool) (x : Nat) (s : Device) : Bool :=
  let j := s.job s.curJob
  let ph := bitField x 48 4
  bitField x 53 11 == 0 && x % 64 == 0 && s.requestRoom && !s.freeGraphs.isEmpty &&
    (if graph then ph == 0
     else !s.freeLaunches.isEmpty && decide (ph < j.nph) && !(match j.phases[ph]? with | some p => p.fin | none => true))

/-- A refused request: the predicate false, the destination zero, and a report (R318). -/
def refuseWork (d : SReg) (x : Nat) (p : PNum) (s : Device) : Except Ev Device :=
  land 16 [.p p false, .s d 0] 0 none (s.note 6 s.here (evOf 30 2 (bitField x 0 48) 0 0 0))

/-- A graph slot reserved for a request of the issuing context. -/
def reserveGraph (g : Nat) (s : Device) : Device :=
  let x := s.graph g
  s.setGraph g { Graph.free with used := true, gen := x.gen + 1, job := s.curJob }

/-- LAUNCH (R318). -/
def slotLaunch (d a : SReg) (p : PNum) (s : Device) : Except Ev Device := do
  let x ← s.srcS a
  if requestOk false x.toNat s = false then refuseWork d x.toNat p s
  else
    let (g, s) := s.choose s.freeGraphs
    let (l, s) := s.choose s.freeLaunches
    let g := g.getD 0
    let l := l.getD 0
    let s := reserveGraph g s
    let gen := (s.launch l).gen + 1
    let s := s.setLaunch l { Launch.free with st := .held, gen := gen, graph := g }
    let s := placeRequest (.submit false (some l) g x) s
    land 16 [.p p true, .s d (dbl (handleOf 1 l gen))] 0 none s

/-- GRAPH (R318). -/
def slotGraph (d a : SReg) (p : PNum) (s : Device) : Except Ev Device := do
  let x ← s.srcS a
  if requestOk true x.toNat s = false then refuseWork d x.toNat p s
  else
    let (g, s) := s.choose s.freeGraphs
    let g := g.getD 0
    let s := reserveGraph g s
    let s := placeRequest (.submit true none g x) s
    land 16 [.p p true, .s d (dbl (handleOf 2 g (s.graph g).gen))] 0 none s

/-- CCWAIT (R320): its bundle is a wait point; the operands are read at issue. -/
def slotCcwait (ge : Bool) (a b : SReg) (s : Device) : Except Ev Device := do
  let _ ← s.srcS a
  if ge then do
    let _ ← s.srcS b
    .ok s
  else .ok s

/-- CCRD (R321): the value at the first mill tick of its tick, which a delayed bundle has seen before. -/
def slotCcrd (d a : SReg) (s : Device) : Except Ev Device := do
  let x ← s.srcS a
  let now := dbl (s.counter (x.toNat % 2 ^ 32))
  landS 8 d (match s.cur.seen with
    | some (t, v) => if t = s.issue.tick then v else now
    | none => now) s

/-- CANCEL (R322). -/
def slotCancel (a : SReg) (p : PNum) (s : Device) : Except Ev Device := do
  let x ← s.srcS a
  let room := s.requestRoom
  let s := if room then placeRequest (.cancel (x.setWidth 32)) s else s
  landP 1 p room s

/-- HSIG (R323). -/
def slotHsig (a : SReg) (v : BitVec 6) (s : Device) : Except Ev Device := do
  let x ← s.srcS a
  .ok (buffer 0 0 [] (.hsig v.toNat x) s)

/-- A trap at the end of the tick (R324). -/
def lateTrap (e : Ev) (s : Device) : Device := { s with issue := { s.issue with late := some e } }

/-- TRAP (R324). -/
def slotTrap (c : BitVec 12) (s : Device) : Except Ev Device := .ok (lateTrap (s.ev 22 0 c.toNat 0 0 0) s)

/-- BRK (R324). -/
def slotBrk (c : BitVec 12) (s : Device) : Except Ev Device := .ok (lateTrap (s.ev 23 0 c.toNat 0 0 0) s)

end Sys2Proof.Machine
end

