-- ==== Sys2Proof/Machine/System.lean ====
section
/-! DEFINITION. The system instructions (R391 to R400) and the registers they read and write. -/

namespace Sys2Proof.Machine

/-! ## Privilege (R391) -/

/-- A privilege fault: the minor and, for MFSR and MTSR, the selector (R380). -/
def Device.privilege (s : Device) (minor sel : Nat) : Ev := s.ev 21 0 minor sel 0 0

/-- Whether the issuing context is a system context: its ASID is 0, and no handler runs (R391). -/
def Device.system (s : Device) : Bool := !s.issue.handler && s.asid == 0

/-- The check of an instruction that only a system context may issue. -/
def needSystem (minor : Nat) (s : Device) : Except Ev Unit := if s.system then .ok () else .error (s.privilege minor 0)

/-- The check of an instruction that the handler and a system context may issue. -/
def needHandlerOrSystem (minor : Nat) (s : Device) : Except Ev Unit :=
  if s.issue.handler || s.system then .ok () else .error (s.privilege minor 0)

/-- Whether a selector may be read (R392). -/
def selReadable (s : Device) (sel : Nat) : Bool :=
  decide (sel ≤ 0x0A) || (decide (sel ≤ 0x10) && (s.issue.handler || s.system)) || s.issue.handler

/-- Whether a selector may be written (R392). -/
def selWritable (s : Device) (sel : Nat) : Bool :=
  (decide (4 ≤ sel) && decide (sel ≤ 6)) || (sel == 0x0B && (s.issue.handler || s.system)) ||
    (decide (0x40 ≤ sel) && s.issue.handler)

/-! ## Registers (R14, R37, R185, R298, R300, R296, R329, R330, R384) -/

/-- CORE_ID (R14). -/
def coreId (core : Nat) : Nat :=
  core + core % 4 * 2 ^ 10 + core / 4 % 20 * 2 ^ 12 + core / 80 * 2 ^ 17 + core / 4 * 2 ^ 20

/-- LEASE as a lease reads at the end of tick `u` (R298). -/
def leaseWord (x : Lease) (u : Nat) : Nat :=
  match x.holder with
  | some c =>
    if u + 1 < x.free then
      (x.term - u) % 2 ^ 13 + x.cmds % 2 ^ 7 * 2 ^ 20 + x.ptr.val * 2 ^ 27 + c.val * 2 ^ 29 + 2 ^ 31
    else x.ptr.val * 2 ^ 27
  | none => x.ptr.val * 2 ^ 27

/-- BUDGET (R300). -/
def budgetWord (v : Live) : Nat := v.budget % 2 ^ 23 + v.effects % 2 ^ 9 * 2 ^ 23

/-- REPLAYS (R384). -/
def Launch.replaysWord (x : Launch) : Nat := x.replays % 2 ^ 24 + x.replaysCur % 2 ^ 8 * 2 ^ 24

/-- CTXID (R296). -/
def Launch.ctxId (x : Launch) (l core : Nat) : Nat := (x.seat core).slotNo % 4 + bitOf x.streamed * 4 + l % 512 * 2 ^ 16

/-- SPBOUND (R329). -/
def Launch.spBound (x : Launch) (core : Nat) : Nat := (x.seat core).spBase / 65536 % 32 + x.field 255 6 * 2 ^ 8

/-- ACCBOUND (R330). -/
def Launch.accBound (x : Launch) (core : Nat) : Nat := (x.seat core).accBase % 128 + x.accn * 2 ^ 8

/-- A trap register: a field of the record of the event being serviced (R388). -/
def Ctx.trapReg (c : Ctx) (lo : Nat) : Nat :=
  match c.handler with
  | some h => recField h.record lo 64
  | none => 0

/-- An interrupted scalar register: the queue-mapped ones read their head entry, or 0 (R392). -/
def Ctx.interrupted (c : Ctx) (r : SReg) : Dbl :=
  if r = 0 then 0
  else if r.val < 60 then c.live.regs.s[r]
  else (c.queues[Fin.ofNat 4 (r.val - 60)]).headD 0

/-- The value of a selector for a context (R392); `t` is the sheet tick it reads. -/
def selValue (s : Device) (l core t : Nat) (sel : Nat) : Dbl :=
  let c := s.ctx l core
  let x := s.launch l
  let r := c.live.regs
  match sel with
  | 0x00 => dbl (coreId core)
  | 0x01 => dbl s.mill
  | 0x02 => dbl t
  | 0x03 => dbl x.ream
  | 0x04 => r.fctl.setWidth 64
  | 0x05 => r.fstat.setWidth 64
  | 0x06 => r.hkey
  | 0x07 => dbl (budgetWord c.live)
  | 0x08 => dbl (leaseWord (s.sheaf (core / 4)).leaseSeen (t - 1))
  | 0x09 => c.slip.setWidth 64
  | 0x0A => dbl x.replaysWord
  | 0x0B => r.mmrev.setWidth 64
  | 0x0C => dbl (x.ctxId l core)
  | 0x0D => c.dirty.setWidth 64
  | 0x0E => dbl x.asid
  | 0x0F => dbl (x.spBound core)
  | 0x10 => dbl (x.accBound core)
  | 0x11 => dbl (c.trapReg 0)
  | 0x12 => dbl (c.trapReg 192)
  | 0x13 => dbl (c.trapReg 128)
  | 0x14 => dbl (c.trapReg 256)
  | 0x15 => dbl (c.trapReg 320)
  | 0x16 => dbl (c.trapReg 384)
  | 0x17 => dbl (c.trapReg 448)
  | n => c.interrupted (Fin.ofNat 64 (n - 0x40))

/-- The write that a selector takes, none where the value is discarded (R392). -/
def selWrite (r : Regs) (sel : Nat) (v : Dbl) : Option RegWrite :=
  match sel with
  | 4 => some (.fctl (fctlWritten v))
  | 5 => some (.fstat (fstatWritten v))
  | 6 => some (.hkey v)
  | 0x0B => some (.mmrev (mmrevWritten r.mmrev v))
  | n =>
    if n ≤ 0x40 ∨ n ≥ 0x40 + 60 then none else some (.s (Fin.ofNat 64 (n - 0x40)) v)

/-- A register write of MTSR: the context's own, or the interrupted context's within a handler (R392). -/
def landSel (w : Option RegWrite) (s : Device) : Except Ev Device :=
  match w with
  | none => .ok s
  | some w => if s.issue.handler then addHandler 1 [w] s else addFlight 1 (.regs [w] 0 none) s

/-! ## The instructions -/

/-- RTH (R393): its outcome takes effect at the next mill tick. -/
def slotRth (act : BitVec 3) (s : Device) : Except Ev Device :=
  match (if s.issue.handler then s.cur.handler else none) with
  | none => .error (s.privilege 0 0)
  | some h =>
    if act = 3 ∧ recField h.record 56 8 ≠ 19 then .error (s.ev 32 0 s.issue.pc 1 0 0)
    else .ok (s.setCur { s.cur with handler := some { h with outcome := some (act.toNat, s.mill + 1) } })

/-- MFSR (R392). -/
def slotMfsr (d : SReg) (sr : BitVec 8) (s : Device) : Except Ev Device :=
  if selReadable s sr.toNat = false then .error (s.privilege 1 sr.toNat)
  else landS 1 d (selValue s s.issue.l s.issue.core s.issue.tick sr.toNat) s

/-- MTSR (R392). -/
def slotMtsr (a : SReg) (sr : BitVec 8) (s : Device) : Except Ev Device := do
  let x ← s.srcS a
  if selWritable s sr.toNat = false then .error (s.privilege 2 sr.toNat)
  else landSel (selWrite s.regs sr.toNat x) s

/-- A request of a system context: a place in the vat request queue and a buffered effect (R395). -/
def systemRequest (minor : Nat) (p : PNum) (e : Effect) (s : Device) : Except Ev Device := do
  needSystem minor s
  let room := s.requestRoom
  landP 1 p room (if room then buffer 0 0 [] e s else s)

/-- CTXSW (R395). -/
def slotCtxsw (p : PNum) (a : SReg) (inn : Bool) (s : Device) : Except Ev Device := do
  let x ← s.srcS a
  systemRequest 3 p (.ctxsw (x.toNat % 512) inn) s

/-- A context image command (R396): its status byte lies at ADDR + 8, its barrier at ADDR. -/
def imageCommand (load : Bool) (a : ANum) (x y : SReg) (s : Device) : Except Ev Device := do
  needSystem (if load then 5 else 4) s
  let l ← s.srcS x
  let va ← s.srcS y
  let pa ← s.spAddr (s.srcA a).addr.toNat 9 8
  if va.toNat % 65536 ≠ 0 then .error (s.ev 12 0 va.toNat 0 0 0)
  else .ok (buffer 0 0 [] (.image load (l.toNat % 512) (va48 va.toNat) (spKey s.issue.core pa)) s)

/-- CTXST (R396). -/
def slotCtxst (a : ANum) (x y : SReg) (s : Device) : Except Ev Device := imageCommand false a x y s
/-- CTXLD (R396). -/
def slotCtxld (a : ANum) (x y : SReg) (s : Device) : Except Ev Device := imageCommand true a x y s

/-- TLBINV (R397). -/
def slotTlbinv (sc : Scope) (a b : SReg) (s : Device) : Except Ev Device := do
  needSystem 6 s
  let x ← s.srcS a
  let y ← s.srcS b
  addFlight 1 (.tlbInv sc (x.toNat % 256) (bitField y.toNat 16 32)) s

/-- SHOOT (R398). -/
def slotShoot (a : ANum) (sc : Scope) (x y : SReg) (s : Device) : Except Ev Device := do
  needSystem 7 s
  let asid ← s.srcS x
  let va ← s.srcS y
  let pa ← s.spAddr (s.srcA a).addr.toNat 8 8
  .ok (buffer 0 0 [] (.shoot sc (asid.toNat % 256) (bitField va.toNat 16 32) (spKey s.issue.core pa)) s)

/-- MONRD (R394). -/
def slotMonrd (d a : SReg) (s : Device) : Except Ev Device := do
  needHandlerOrSystem 8 s
  let x ← s.srcS a
  landS 4 d (Assoc.get 0 s.monval (x.toNat % 2048)) s

/-- The length of a report of the registers of a mask (R358). -/
def reportBytes (mask : Nat) : Nat := 56 + 32 * popCount mask 16 + 64

/-- ATTEST (R399): the nonce is read at issue + 1. -/
def slotAttest (a : ANum) (m b : SReg) (s : Device) : Except Ev Device := do
  needSystem 9 s
  let port ← s.port
  let x ← s.srcS m
  let y ← s.srcS b
  let mask := x.toNat % 2 ^ 16
  let pa ← s.spAddr (s.srcA a).addr.toNat (reportBytes mask) 1
  let bar ← s.spAddr (y.toNat % 2 ^ 21) 8 8
  let s ← addFlight 1 (.nonce (spKey s.issue.core pa) mask (spKey s.issue.core bar)) s
  .ok (useLines s.issue.core 1 port (spanLines pa 32) s)

/-- ERRPOP (R394). -/
def slotErrpop (d : SReg) (w : BitVec 3) (pop : Bool) (s : Device) : Except Ev Device := do
  needHandlerOrSystem 0xA s
  let v := match s.log with
    | [] => 0
    | r :: _ => dbl (recField r (64 * w.toNat) 64)
  let s ← landS 1 d v s
  .ok (if pop then s.popLog else s)

/-- HALTC (R395). -/
def slotHaltc (p : PNum) (a : SReg) (op : HaltOp) (s : Device) : Except Ev Device := do
  let x ← s.srcS a
  systemRequest 0xB p (.haltc (x.toNat % 1024) op) s

end Sys2Proof.Machine
end

