-- ==== Sys2Proof/Machine/Finish.lean ====
section
/-! DEFINITION. Queues (R255, R385), and the end of work: what the completion of a launch does to its graph, phase and
job, and the launches that become ready by it (R283, R285, R287, R292, R319). -/

namespace Sys2Proof.Machine

/-! ## Queues -/

/-- Whether a queue of a context has room: the entries popped since the checkpoint count against its 256 (R255, R385). -/
def Ctx.queueRoom (c : Ctx) (q : Fin 4) : Bool := decide (c.queues[q].length + c.popped[q].length < 256)

/-- A queue of a context with one more entry. -/
def Ctx.push (c : Ctx) (q : Fin 4) (v : Dbl) : Ctx := { c with queues := c.queues.set q (c.queues[q] ++ [v]) }

/-- The context of a key. -/
def Device.ctxAt (s : Device) (key : Nat) : Ctx := Assoc.get Ctx.empty s.ctxs key

/-- The state with the context of a key replaced. -/
def Device.setCtxAt (s : Device) (key : Nat) (c : Ctx) : Device := { s with ctxs := Assoc.set Ctx.empty s.ctxs key c }

/-- Whether an entry that waits keeps another from entering: one of the same link, or one of the same queue that no link
brought (R255). -/
def QueueWait.blocks (w x : QueueWait) : Bool :=
  match w.link, x.link with
  | some a, some b => a == b
  | none, none => w.key == x.key && w.q == x.q
  | _, _ => false

/-- An entry that reaches a queue of a context (R255): it enters, or waits at its source; one for a context that is gone is
dropped. -/
def pushQueue (w : QueueWait) (s : Device) : Device :=
  if !s.ctxs.any (fun p => p.1 == w.key) then s
  else if (s.ctxAt w.key).queueRoom w.q && !s.queueWaits.any (fun x => x.blocks w) then s.setCtxAt w.key ((s.ctxAt w.key).push w.q w.v)
  else { s with queueWaits := s.queueWaits ++ [w] }

/-- The entries that wait, given those before them that stay, with every one that now enters queue `q` of the contexts of a
core (R255). -/
def enterQueues (core : Nat) (q : Fin 4) (before : List QueueWait) : List QueueWait → Device → Device
  | [], s => { s with queueWaits := before }
  | w :: t, s =>
    let c := s.ctxAt w.key
    if w.key % 640 = core ∧ w.q = q ∧ c.queueRoom q = true ∧ before.any (fun x => x.blocks w) = false then
      enterQueues core q before t (s.setCtxAt w.key (c.push q w.v))
    else enterQueues core q (before ++ [w]) t s

/-! ## Vat messages (R287, R319) -/

/-- A vat message for an item that finished. -/
def messageWord (h : Word) (fin can err : Bool) : Dbl :=
  dbl (h.toNat + bitOf err * 2 ^ 61 + bitOf can * 2 ^ 62 + bitOf fin * 2 ^ 63)

/-- The message an item's creator asked for, pushed to s62 of its context, unless its core has exited. A sheet that is out
keeps its queues. -/
def sendMessage (m : Option (Nat × Word)) (can err : Bool) (s : Device) : Device :=
  match m with
  | some (key, h) =>
    if (s.ctxAt key).live.exited then s else pushQueue { link := none, key := key, q := 2, v := messageWord h true can err } s
  | none => s

/-- The requests for messages that name a launch's contexts forgotten. -/
def forgetMessages (l : Nat) (s : Device) : Device :=
  let keep := fun (m : Option (Nat × Word)) => match m with
    | some (key, _) => if key / 640 = l then none else m
    | none => none
  { s with
    launches := s.launches.map (fun p => (p.1, { p.2 with msg := keep p.2.msg }))
    graphs := s.graphs.map (fun p => (p.1, { p.2 with msg := keep p.2.msg })) }

/-! ## Jobs (R283) -/

/-- Whether phase `p` of a job is open. -/
def Job.open_ (j : Job) (p : Nat) : Bool :=
  p == 0 || (match j.phases[p - 1]? with | some x => x.fin | none => false)

/-- The phases from `p` on that are open and have all their graphs, closed one after another; a cancelled phase waits
only for the graphs it has, `idle` telling that it has none unfinished. -/
def closePhases (idle : Nat → Bool) (p : Nat) : Nat → Job → Job
  | 0, j => j
  | n + 1, j =>
    match j.phases[p]? with
    | none => j
    | some x =>
      if x.fin then closePhases idle (p + 1) n j
      else if j.open_ p && (decide (j.gcount p ≤ x.count) || (x.stop && idle p)) then
        closePhases idle (p + 1) n
          { j with phases := j.phases.set p { x with fin := true }, count := j.count + 1, can := j.can || x.can,
                   err := j.err || x.err }
      else j

/-- The graph slots whose parent has finished released (R286, R292). -/
def releaseGraphs (ji : Nat) (s : Device) : Device :=
  let j := s.job ji
  let done := fun (g : Nat) (x : Graph) =>
    x.fin && x.job == ji && (if g == j.root && j.used then j.fin else match j.phases[x.phase]? with | some p => p.fin | none => true)
  { s with graphs := s.graphs.map (fun (p : Nat × Graph) => if p.2.used && done p.1 p.2 then (p.1, { p.2 with used := false }) else p) }

/-- The completion word of a job (R283). -/
def jobWord (ji : Nat) (j : Job) : Nat := bitOf j.err * 2 ^ 61 + bitOf j.can * 2 ^ 62 + 2 ^ 63 + ji % 64

/-- A job whose phases may have advanced: its phases close, it finishes, its completion word is written to host memory,
and slots are released. -/
def settleJob (ji : Nat) (s : Device) : Device :=
  let idle := fun (p : Nat) => !s.graphs.any (fun (x : Nat × Graph) =>
    x.2.used && !x.2.fin && x.2.job == ji && x.2.phase == p && x.1 != (s.job ji).root)
  let j := closePhases idle 0 16 (s.job ji)
  let ends := j.used && !j.fin && j.rootDone && decide (j.count ≥ j.nph)
  let j := if ends then { j with fin := true } else j
  let s := s.setJob ji j
  let note := j.field 416 48
  let s := if ends && note != 0 then { s with hostMem := Memory.writeBytes s.hostMem note (bytesOf 8 (jobWord ji j)) } else s
  let s := releaseGraphs ji s
  let busy := s.graphs.any (fun p => p.2.used && !p.2.fin && p.2.job == ji)
  if j.fin && j.used && !busy then s.setJob ji { s.job ji with used := false } else s

/-! ## Graphs and launches (R285, R287, R292) -/

/-- A graph that has finished: its phase's counter, or the job's root, and then the job. -/
def finishGraph (g : Nat) (s : Device) : Device :=
  let x := s.graph g
  let j := s.job x.job
  let j :=
    if g = j.root ∧ j.rootDone = false then { j with rootDone := true, can := j.can || x.can, err := j.err || x.err }
    else
      match j.phases[x.phase]? with
      | none => j
      | some p => { j with phases := j.phases.set x.phase { p with count := p.count + 1, can := p.can || x.can, err := p.err || x.err } }
  let s := s.setGraph g { x with fin := true }
  let s := { s with launches := s.launches.map (fun (p : Nat × Launch) => if x.launches.contains p.1 then (p.1, { p.2 with st := .free }) else p) }
  settleJob x.job (s.setJob x.job j)

/-- Graph `g` with one more of its launches finished. -/
def countLaunch (g : Nat) (can err : Bool) (s : Device) : Device :=
  let x := s.graph g
  let x := { x with count := x.count + 1, can := x.can || can, err := x.err || err }
  let s := s.setGraph g x
  if x.count = x.launches.length then sendMessage x.msg x.can x.err (finishGraph g s) else s

/-- The sheaves of a launch left without it. -/
def vacate (l : Nat) (s : Device) : Device :=
  { s with sheaves := s.sheaves.map (fun p => if p.2.active = some l then (p.1, { p.2 with active := none }) else p) }

/-- The contexts of a launch removed; those of a launch whose results still land are only no longer present (R56). -/
def dropContexts (l : Nat) (s : Device) : Device :=
  let ctxs := if s.landing l then s.ctxs.map (fun p => if p.1 / 640 = l then (p.1, { p.2 with present := false }) else p)
    else s.ctxs.filter (fun p => p.1 / 640 != l)
  { s with
    ctxs := ctxs
    reservations := s.reservations.filter (fun r => r != l)
    queueWaits := s.queueWaits.filter (fun w => w.key / 640 != l) }

/-- A launch that finishes (R287, R292): its units, its own counter, its graph and what hangs on it. One that a cancel has named
finishes with CAN, however it ends (R288). -/
def finishLaunch (l : Nat) (can err : Bool) (s : Device) : Device :=
  let x := s.launch l
  let can := can || x.cancel
  let left := (x.units.filter (fun u => !u.2.1)).length
  let units := x.units.map (fun u => if u.2.1 then u else (u.1, true, u.2.2.1 || can, u.2.2.2 || err))
  let y := { x with st := .done, fin := true, can := x.can || can || x.units.any (fun u => u.2.2.1), err := x.err || err, count := x.count + left, units := units, msg := none }
  let s := dropContexts l (vacate l (s.setLaunch l y))
  let s := countLaunch x.graph y.can y.err s
  forgetMessages l (sendMessage x.msg y.can y.err s)

/-- The launches of the same graph that a launch waits for (R284). -/
def Device.depsOf (s : Device) (l : Nat) : List Launch :=
  let x := s.launch l
  let g := s.graph x.graph
  ((rangeFrom 0 64).filter (fun j => bitAt (x.field 304 64) j)).map (fun j => s.launch (g.launches.getD j 512))

/-- The change of state of a waiting launch, if one is due (R292). -/
def wakeOne (l : Nat) (s : Device) : Option Device :=
  let x := s.launch l
  let g := s.graph x.graph
  if x.st ≠ .wait then none
  else
    let deps := s.depsOf l
    match deps.find? (fun d => d.fin && (d.can || d.err)) with
    | some d => some (finishLaunch l d.can d.err s)
    | none =>
      if deps.all (fun d => d.fin) && (s.job g.job).open_ g.phase then some (s.setLaunch l { x with st := .ready, since := s.mill })
      else none

/-- Every change of state that waiting launches are due. -/
def wakeLaunches : Nat → Device → Device
  | 0, s => s
  | n + 1, s =>
    match s.launches.findSome? (fun p => wakeOne p.1 s) with
    | some t => wakeLaunches n t
    | none => s

/-- A launch ended, with every change that follows in the vat. -/
def completeLaunch (l : Nat) (can err : Bool) (s : Device) : Device := wakeLaunches 1024 (finishLaunch l can err s)

end Sys2Proof.Machine
end

