-- ==== Sys2Proof/Machine/Commit.lean ====
section
/-! DEFINITION. The data phase of a commit (R211 to R215, R274), the checkpoint (R192) and the early commit (R300). The
entries of a commit enter their write queues at once where there is room; the others wait in the commit. -/

namespace Sys2Proof.Machine

/-! ## Scratchpad -/

/-- Scratchpad bytes written, with the dirty flag of each 4 KiB block they touch (R295). -/
def spWrite (a : Nat) (bytes : List Byte) (s : Device) : Device :=
  let blocks := if bytes.isEmpty then [] else rangeFrom (a / 4096) ((a + bytes.length - 1) / 4096 - a / 4096 + 1)
  { s with
    spad := Memory.writeBytes s.spad a bytes
    spDirty := blocks.foldl (fun m b => Assoc.set false m b true) s.spDirty }

/-! ## Atomic operations (R248) -/

/-- The new value of a unit of `n` bytes. -/
def atomNew (op : AtomOp) (n a v c : Nat) : Nat :=
  let w := 8 * n
  let x := a % 2 ^ w
  let y := v % 2 ^ w
  match op with
  | .add => (x + y) % 2 ^ w
  | .and => x &&& y
  | .or => x ||| y
  | .xor => x ^^^ y
  | .min => if signedOf w x < signedOf w y then x else y
  | .max => if signedOf w x < signedOf w y then y else x
  | .swp => y
  | .cas => if x = c % 2 ^ w then y else x

/-! ## Reads of device memory that report what they find (R278) -/

/-- A corrected-error event (R380, code 25): its symbols with their values, lowest first. -/
def correctedEv (loc : Nat) (errors : List (Nat × Nat)) : Ev :=
  let mask := errors.foldl (fun m e => m + 2 ^ e.1) 0
  let x := fun n => nth (errors.map (fun e => e.2)) n
  evOf 25 errors.length (locationWord loc) (mask % 2 ^ 64) (mask / 2 ^ 64 + x 0 * 2 ^ 8 + x 1 * 2 ^ 16) 0

/-- The value of a line under its queue and some further entries; a correction and an uncorrectable line are reported,
the latter with a reason (R278, R380). -/
def readUnder (reason : Nat) (more : List WqEntry) (loc : Nat) (s : Device) : Option Line × Device :=
  let q := s.queue (locStack loc) (locCh loc) ++ more
  match rsDecode (s.cells loc) with
  | .clean l => (some (overlay loc l q), s)
  | .corrected l e => (some (overlay loc l q), s.note 0 Where.device (correctedEv loc e))
  | .bad => (none, s.deviceEvent (evOf 26 reason (locationWord loc) 0 0 0))

/-- A line as an engine reads it. -/
def readLine (loc : Nat) (s : Device) : Option Line × Device := readUnder 1 [] loc s

/-- Lines read for what they say of themselves alone (R278). -/
def noteLines : List Nat → Device → Device
  | [], s => s
  | loc :: t, s => noteLines t (readLine loc s).2

/-- What a walk of an address space finds in the lines it reads is reported (R278). -/
def noteWalk (asid va : Nat) (s : Device) : Device := noteLines (s.walkLines asid va) s

/-- What the read of a table of `n` bytes finds in its lines is reported (R278). -/
def noteTable (pa n : Nat) (s : Device) : Device := noteLines ((spanLines pa n).map (fun a => dramMap a 0 0)) s

/-- `n` free bytes. -/
def freeBytes (n : Nat) (s : Device) : List Byte × Device :=
  ((rangeFrom 0 n).map (fun i => Config.freeByte (2 ^ 128 + 64 * s.fresh + i)), { s with fresh := s.fresh + 1 })

/-! ## Entries -/

/-- The entry for the line of a translated address and the bytes of a write that lie in it, the last of a byte kept. -/
def bytesEntry (g : GAddr) (bs : List GByte) : WqEntry :=
  let mine := (bs.filter (fun b => b.addr.pa / 64 == g.pa / 64)).reverse
  let here := fun i => mine.find? (fun b => b.addr.pa % 64 == i)
  { loc := dramMap (g.pa / 64 * 64) g.im g.sw,
    data := lineOf ((rangeFrom 0 64).map (fun i => match here i with
      | some b => b.val
      | none => 0)),
    mask := BitVec.ofNat 64 (((rangeFrom 0 64).filter (fun i => (here i).isSome)).foldl (fun m i => m + 2 ^ i) 0),
    stamp := 0, turns := 0 }

/-- The entry for some bytes from a translated address on, within its line. -/
def spanEntry (g : GAddr) (bs : List Byte) : WqEntry :=
  bytesEntry g ((bs.zip (rangeFrom 0 bs.length)).map (fun p => { addr := g.plus p.2, val := p.1 }))

/-- The bytes of the aligned 8-byte units that a mask touches. -/
def unitsOf (m : BitVec 64) : BitVec 64 :=
  BitVec.ofNat 64 (((rangeFrom 0 8).filter (fun u => bitField m.toNat (8 * u) 8 != 0)).foldl (fun x u => x + 255 * 2 ^ (8 * u)) 0)

/-- The entries of a commit as observers see them (R212): the last entry that touches a unit carries the whole change of
the unit, and the earlier ones leave it. -/
def settleUnits (done : List WqEntry) : List WqEntry → List WqEntry
  | [] => []
  | e :: rest =>
    let now := done ++ [e]
    let later := unitsOf (covered e.loc rest)
    { e with data := overlay e.loc 0 now, mask := covered e.loc now &&& unitsOf e.mask &&& ~~~later } :: settleUnits now rest

/-! ## The data phase (R211, R213, R215) -/

/-- What a data phase has made so far: its entries, the results of its atomics with their cores, and the effects of the
signal phase with theirs. -/
structure DataPhase where
  entries : List WqEntry
  returns : List (Nat × Flight)
  signals : List (Nat × Effect)

/-- The result of an atomic, due at a tick. -/
def returnFlight (due : Nat) (b : Buffered) (d : SReg) (v : Nat) (s : Device) : List Flight × Device :=
  if d = 0 ∨ d.val ≥ 60 then ([], s)
  else
    ([{ seq := s.seq, due := due, pc := b.pc, issued := b.issued, slot := 0, op := .atomRet d (dbl v), buf := [] }],
      { s with seq := s.seq + 1 })

/-- The bytes of a write that lie in host memory. -/
def hostBytes (m : Memory) : List GByte → Memory
  | [] => m
  | b :: t => hostBytes (if paTarget b.addr.pa = 1 then Memory.write m (b.addr.pa % 2 ^ 44) b.val else m) t

/-- A unit of global memory as an atomic finds it; of an uncorrectable line its value is free (R278). -/
def atomUnit (own : List WqEntry) (g : GAddr) (n : Nat) (s : Device) : Bool × List Byte × Device :=
  if paTarget g.pa = 0 then
    let waiting := (s.commits.map (fun c => c.pending)).flatten
    match readUnder 1 (waiting ++ own) (dramMap g.pa g.im g.sw) s with
    | (some l, s) => (true, ((lineBytes l).drop (g.pa % 64)).take n, s)
    | (none, s) =>
      let (b, s) := freeBytes n s
      (false, b, s)
  else (true, Memory.readBytes s.hostMem (g.pa % 2 ^ 44) n, s)

/-- An effect at its place in commit order; the results of its atomics land at tick `due`. -/
def commitEffect (due core : Nat) (b : Buffered) (d : DataPhase) (s : Device) : DataPhase × Device :=
  match b.eff with
  | .write _ _ lines bytes =>
    let bs := bytes.getD []
    let dev := (lines.filter (fun l => paTarget l.2.pa == 0)).map (fun l => bytesEntry l.2 bs)
    ({ d with entries := d.entries ++ dev }, { s with hostMem := hostBytes s.hostMem bs })
  | .gatom g n op v c ret =>
    let (ok, old, s) := atomUnit d.entries g n s
    let new := bytesOf n (atomNew op n (ofBytes old) v.toNat c.toNat)
    let (fl, s) := match ret with
      | some r => returnFlight due b r (ofBytes old) s
      | none => ([], s)
    let d := { d with returns := d.returns ++ fl.map (fun f => (core, f)) }
    if paTarget g.pa = 0 then (if ok then { d with entries := d.entries ++ [spanEntry g new] } else d, s)
    else (d, { s with hostMem := Memory.writeBytes s.hostMem (g.pa % 2 ^ 44) new })
  | .copy id =>
    match Assoc.get none s.ucopies id with
    | some u =>
      let (t, s) := s.later
      (d, { s with ucopies := Assoc.set none s.ucopies id (some { u with started := true, due := t }) })
    | none => (d, s)
  | e => ({ d with signals := d.signals ++ [(core, e)] }, s)

/-- The effects of a core, in issue order. -/
def commitEffects (due core : Nat) : List Buffered → DataPhase → Device → DataPhase × Device
  | [], d, s => (d, s)
  | b :: t, d, s =>
    let (d, s) := commitEffect due core b d s
    commitEffects due core t d s

/-- The effects of some cores, in ascending core index. -/
def commitCores (due : Nat) : List (Nat × List Buffered) → DataPhase → Device → DataPhase × Device
  | [], d, s => (d, s)
  | (core, l) :: t, d, s =>
    let (d, s) := commitEffects due core l d s
    commitCores due t d s

/-! ## Entering the write queues (R274, R302) -/

/-- An entry put in its channel's queue, with the mill tick of its entry as its stamp. -/
def enqueue (e : WqEntry) (s : Device) : Device :=
  s.setQueue (locStack e.loc) (locCh e.loc) (s.queue (locStack e.loc) (locCh e.loc) ++ [{ e with stamp := s.mill }])

/-- Whether a channel's queue has room. -/
def Device.queueOpen (s : Device) (loc : Nat) : Bool := decide ((s.queue (locStack loc) (locCh loc)).length < 64)

/-- Whether two entries are of one channel. -/
def WqEntry.sameChannel (x y : WqEntry) : Bool := locStack x.loc == locStack y.loc && locCh x.loc == locCh y.loc

/-- Entries that enter their channels' queues, each where there is room and no entry before it waits for the channel;
`before` are the entries that wait already. Those left stay in order. -/
def enterEntries (before : List WqEntry) : List WqEntry → Device → List WqEntry × Device
  | [], s => ([], s)
  | e :: t, s =>
    if s.queueOpen e.loc && !before.any e.sameChannel then enterEntries before t (enqueue e s)
    else
      let (r, s) := enterEntries (before ++ [e]) t s
      (e :: r, s)

/-- The commits with what some of them have entered, in the order of their instants. -/
def enterCommits (mine : Commit → Bool) (before : List WqEntry) : List Commit → Device → List Commit × Device
  | [], s => ([], s)
  | c :: t, s =>
    let (left, s) := if mine c then enterEntries before c.pending s else (c.pending, s)
    let (rest, s) := enterCommits mine (before ++ left) t s
    ({ c with pending := left } :: rest, s)

/-- Every entry of a commit that can enter its queue now does. -/
def enterAll (s : Device) : Device :=
  let (cs, s) := enterCommits (fun _ => true) [] s.commits s
  { s with commits := cs }

/-- Whether no commit has an entry waiting for a line, so that another may write it now (R214, R215). -/
def Device.lineFree (s : Device) (loc : Nat) : Bool := s.commits.all (fun c => c.pending.all (fun e => e.loc != loc))

/-! ## Commits -/

/-- The pages that the effects of some cores use, as triples of a core, an address space and a number of 64 KiB pages. -/
def storePages (asid : Nat) (stores : List (Nat × List Buffered)) : List (Nat × Nat × Nat) :=
  stores.flatMap (fun p => p.2.flatMap (fun b => b.pages.map (fun g => (p.1, asid, g))))

/-- A commit begun: its data phase over the effects of some cores (R213). That a launch's last commit makes its signals
within 32 mill ticks keeps it within the bound of R302 (DESIGN CHOICE, log 68). -/
def beginCommit (c : Commit) (due : Nat) (stores : List (Nat × List Buffered)) (s : Device) : List (Nat × Flight) × Device :=
  let (d, s) := commitCores due stores { entries := [], returns := [], signals := [] } s
  let (t, s) := if c.last then s.within 32 else s.later
  let mark := if c.early then some (c.l, c.tick) else none
  let c := { c with
    pending := (settleUnits [] d.entries).map (fun e => { e with early := mark }), signals := d.signals, due := t
    pages := storePages (s.launch c.l).asid stores }
  (d.returns, enterAll { s with commits := s.commits ++ [c] })

/-- The flights of a core among the results of a commit. -/
def coreReturns (core : Nat) (l : List (Nat × Flight)) : List Flight := (l.filter (fun p => p.1 == core)).map (fun p => p.2)

/-- Whether an entry in flight is recorded in a checkpoint: an ATTEST continues through an abort (R400), so its request is
made once. -/
def Flight.recorded (f : Flight) : Bool :=
  match f.op with
  | .nonce _ _ _ => false
  | _ => true

/-- The checkpoint of a context's live part. -/
def Live.saved (v : Live) : Live := { v with flights := v.flights.filter Flight.recorded }

/-- The DIRTY bits with the one that tells of results in flight at a checkpoint (R296). -/
def flyDirty (d : BitVec 41) (v : Live) : BitVec 41 := if v.flights.isEmpty then d else d ||| BitVec.ofNat 41 (2 ^ 40)

/-- A context after the commit of its ream (R192, R300, R385): nothing buffered, the budget reset, the kept entries
released, and the checkpoint taken. -/
def Ctx.checkpoint (c : Ctx) (budget : Nat) (rets : List Flight) : Ctx :=
  let v := { c.live with store := [], budget := budget, effects := 256, flights := c.live.flights ++ rets }
  { c with
    live := v
    ckpt := v.saved
    popped := Vector.replicate 4 []
    before := none
    dirty := flyDirty c.dirty v }

/-- The contexts of some cores after a commit. -/
def checkpointCores (l budget : Nat) (rets : List (Nat × Flight)) : List Nat → Device → Device
  | [], s => s
  | core :: t, s =>
    let c := s.ctx l core
    checkpointCores l budget rets t (s.setCtx l core (c.checkpoint budget (coreReturns core rets)))

/-- The system scope of a commit: FENCE.sys, FENCE.ap, or the fence-strengthening mode of a core (R219, R221, R227). -/
def systemScope (l : Nat) (s : Device) : Bool :=
  let x := s.launch l
  x.fences / 2 % 4 != 0 || x.cores.any (fun core => bitAt (s.ctx l core).live.regs.mmrev.toNat 8)

/-- A unit's own counter. -/
def Launch.unit (x : Launch) (u : Nat) : Nat × Bool × Bool × Bool := x.units.getD u (0, false, false, false)

/-- Cancelled units, whose cores act as if EXIT issued in the BND bundle (R288). -/
def exitCancelled (l : Nat) : List Nat → Device → Device
  | [], s => s
  | core :: t, s =>
    let x := s.launch l
    let u := x.unit (core - x.core0)
    let c := s.ctx l core
    let s := if u.2.2.1 && !c.live.exited then
        let g := s.sheaf (core / 4)
        let held := g.lease.held (Fin.ofNat 4 core) x.tick
        let s := if held then s.setSheaf (core / 4) { g with lease := g.lease.release x.tick } else s
        s.setCtx l core { c with live := { c.live with exited := true, reps := [] } }
      else s
    exitCancelled l t s

/-- The timed copies that satisfy a test removed, with their claims and the lines on their way (R271). -/
def dropCopies (gone : Copy → Bool) (s : Device) : Device :=
  let ids := s.copies.filterMap (fun p => match p.2 with
    | some c => if gone c then some p.1 else none
    | none => none)
  { s with
    copies := s.copies.filter (fun p => !ids.contains p.1)
    web := s.web.filter (fun w => !ids.contains w.copy)
    hbm := s.hbm.map (fun p => (p.1, { p.2 with claims := p.2.claims.filter (fun c => !ids.contains c.copy) })) }

/-- Whether some effects hold a cancel of launch `l` itself (R322). -/
def Device.cancelsSelf (s : Device) (l : Nat) (store : List Buffered) : Bool :=
  store.any (fun b => match b.eff with
    | .cancel h => bitField h.toNat 29 3 == 1 && bitField h.toNat 20 9 == l && sameGen h.toNat (s.launch l).gen
    | _ => false)

/-- The commit at the end of a ream's last tick, with its checkpoint (R192). The launch's last commit is that in which its
last unit exits, or that at which a cancelled launch ends (R288), one that cancels itself among them (R322). -/
def commitReam (l : Nat) (s : Device) : Device :=
  let s := exitCancelled l (s.launch l).cores s
  let x := s.launch l
  let out := x.cores.filter (fun core => (s.ctx l core).live.exited)
  let stores := x.cores.map (fun core => (core, (s.ctx l core).live.store))
  let can := x.cancel || stores.any (fun p => s.cancelsSelf l p.2)
  let last := can || out.length == x.ncores
  let exits := (out.map (fun core => core - x.core0)).filter (fun u => !(x.unit u).2.1)
  let c : Commit :=
    { l := l, at_ := s.mill, tick := x.tick, pending := [], signals := [], last := last, early := false, sys := systemScope l s,
      exits := exits, due := 0, signalled := false, can := can, err := false }
  let (rets, s) := beginCommit c (x.tick + 25) stores s
  let s := dropCopies (fun c => c.key / 640 == l) (checkpointCores l x.budget rets x.cores s)
  s.setLaunch l
    { s.launch l with
      mode := .commit, restart := x.tick + 1, replaysCur := 0, traps := [], nextFences := x.fences, fences := 0,
      leases := x.sheaves.map (fun g => (s.sheaf g).lease) }

/-! ## Early commits (R300) -/

/-- The effects of a store buffer that an early commit at tick `t` takes, and those it leaves: the effects issued at `t`,
and the CPYW commands whose conversion tick is `t` or later. -/
def splitStore (t : Nat) (l : List Buffered) : List Buffered × List Buffered :=
  let takes := fun (b : Buffered) => decide (b.issued < t) && !(match b.eff with
    | .write _ _ _ _ => decide (b.ready ≥ t)
    | _ => false)
  (l.filter takes, l.filter (fun b => !takes b))

/-- A budget reset and charged again with what a store buffer holds. -/
def Live.recharged (v : Live) (budget : Nat) : Live :=
  let counted := v.store.filter (fun b => match b.eff with
    | .submit _ _ _ _ => false
    | .cancel _ => false
    | _ => true)
  { v with budget := budget - (counted.map (fun b => b.charge)).foldl (· + ·) 0, effects := 256 - counted.length }

/-- A context after an early commit at tick `t`: a core whose bundle of `t` has issued has its checkpoint as it stood
before that. -/
def Ctx.earlyCheckpoint (c : Ctx) (t budget : Nat) (rets : List Flight) : Ctx :=
  let prune := fun (v : Live) => Live.recharged { v with store := (splitStore t v.store).2, flights := v.flights ++ rets } budget
  let c := { c with live := prune c.live }
  let whole := { c with ckpt := c.live.saved, popped := Vector.replicate 4 [], before := none, dirty := flyDirty c.dirty c.live }
  match c.before with
  | some (u, v, n) =>
    if u = t then
      { c with ckpt := (prune v).saved, before := some (u, prune v, Vector.replicate 4 0),
               popped := Vector.ofFn (fun i => c.popped[i].drop n[i]), dirty := flyDirty c.dirty (prune v) }
    else whole
  | none => whole

/-- The contexts of some cores after an early commit. -/
def earlyCores (l t budget : Nat) (rets : List (Nat × Flight)) : List Nat → Device → Device
  | [], s => s
  | core :: rest, s =>
    let c := s.ctx l core
    earlyCores l t budget rets rest (s.setCtx l core (c.earlyCheckpoint t budget (coreReturns core rets)))

/-- An early commit asked for by the bundle of a core (R300): the sheet stands still, and the commit takes its place among the
commits of the mill tick (R214). -/
def askEarly (l core : Nat) (s : Device) : Device := s.setLaunch l { s.launch l with mode := .early core, asked := true }

/-- An early commit at the sheet's tick, for the bundle of a core (R300); a charge that still exceeds the budget at this
tick is oversize. -/
def earlyCommit (l core : Nat) (s : Device) : Device :=
  let x := s.launch l
  let c : Commit :=
    { l := l, at_ := s.mill, tick := x.tick, pending := [], signals := [], last := false, early := true, sys := systemScope l s,
      exits := [], due := 0, signalled := false, can := false, err := false }
  let stores := x.cores.map (fun k => (k, (splitStore x.tick (s.ctx l k).live.store).1))
  let (rets, s) := beginCommit c (x.tick + 24) stores s
  let s := earlyCores l x.tick x.budget rets x.cores s
  s.setLaunch l
    { s.launch l with
      mode := .early core, asked := false, restart := x.tick, replaysCur := 0, traps := [], oversize := true,
      leases := x.sheaves.map (fun g => (s.sheaf g).leaseSeen) }

end Sys2Proof.Machine
end

