-- ==== Sys2Proof/Machine/Ops.lean ====
section
/-! DEFINITION. Taking an event: its class (R377, R380), its record, the entry of the handler context (R387), the abort of
a ream (R193, R382 to R385), the end of a launch, and the return from a handler (R388, R389, R393). -/

namespace Sys2Proof.Machine

/-! ## Classes (R377, R380) -/

/-- The class of an event of a context. -/
def Ev.cls (e : Ev) : Nat :=
  match e.code with
  | 1 => 4
  | 2 => 3
  | 3 => 4
  | 4 => 3
  | 5 => 3
  | 6 => 1
  | 7 => 2
  | 16 => 1
  | 17 => 1
  | 18 => if e.reason = 1 ∨ e.reason = 6 then 1 else 4
  | 22 => 2
  | 23 => 2
  | 24 => 1
  | 26 => 4
  | 29 => 5
  | 32 => 4
  | 33 => 4
  | _ => 3

/-- Whether a handler is installed in an address space (R387). -/
def Device.handlerOn (s : Device) (asid : Nat) : Bool := bitAt (Assoc.get 0 s.hvec asid).toNat 63

/-- The handler's entry address. -/
def Device.handlerAt (s : Device) (asid : Nat) : Nat := bitField (Assoc.get 0 s.hvec asid).toNat 0 48

/-- Whether an event of a launch enters the handler: classes 2 and 3 with a handler installed, the store-budget exception
only under SBD = 2 and not once oversize (R377, R300). -/
def Device.servicedBy (s : Device) (x : Launch) (e : Ev) : Bool :=
  (e.cls == 2 || e.cls == 3) && s.handlerOn x.asid && (e.code != 19 || (x.sbd == 2 && e.reason != 3))

/-! ## Discarding a ream (R193, R262, R271, R181, R385) -/

/-- The slots that a discarded request had reserved are free again. -/
def releaseRequest (e : Effect) (s : Device) : Device :=
  match e with
  | .submit _ lslot g _ =>
    let s := s.setGraph g { Graph.free with gen := (s.graph g).gen + 1 }
    match lslot with
    | some l => s.setLaunch l { Launch.free with gen := (s.launch l).gen + 1 }
    | none => s
  | .copy id => { s with ucopies := Assoc.set none s.ucopies id none }
  | _ => s

/-- The effects of a store buffer discarded. -/
def releaseStore : List Buffered → Device → Device
  | [], s => s
  | b :: t, s => releaseStore t (releaseRequest b.eff s)

/-- A request of the ATTEST queue, its nonce read; one that finds the queue full writes VERSION = 0 and signals (R399). -/
def attestRequest (key at_ mask bar : Nat) (s : Device) : Device :=
  let nonce := Memory.readBytes s.spad at_ 32
  if s.attests.length < 16 then
    let (t, s) := s.within 1200000
    { s with attests := s.attests ++ [{ key := key, at_ := at_, mask := mask, bar := bar, nonce := nonce, due := t }] }
  else
    let (t, s) := s.later
    let id := s.seq
    { s with
      signals := Assoc.set none s.signals id (some { key := key, at_ := bar, v := 1, due := t, data := [(at_, bytesOf 4 0)], header := none, note := none })
      seq := s.seq + 1 }

/-- The nonces of commands that an abort finds in flight are read then: ATTEST continues through it (R400). -/
def readNonces (key : Nat) : List Flight → Device → Device
  | [], s => s
  | f :: t, s =>
    readNonces key t (match f.op with
      | .nonce a m b => attestRequest key a m b s
      | _ => s)

/-- A context taken back to its checkpoint. -/
def Ctx.restore (c : Ctx) : Ctx :=
  { c with
    live := c.ckpt
    handler := none
    hfly := c.hfly.filter (fun p => match p.2 with
      | .hs _ _ => true
      | .hp _ _ => true
      | _ => false)
    promises := []
    queues := Vector.ofFn (fun i => c.popped[i] ++ c.queues[i])
    popped := Vector.replicate 4 []
    pending := []
    before := none
    seen := none }

/-- What some cores did in the current ream discarded, and their contexts restored. -/
def discardCores (l : Nat) : List Nat → Device → Device
  | [], s => s
  | core :: t, s =>
    let c := s.ctx l core
    let mine := c.live.store.filter (fun b => !c.ckpt.store.any (fun k => k.seq == b.seq))
    let s := readNonces (ctxKey l core) c.live.flights (releaseStore mine s)
    discardCores l t (s.setCtx l core (s.ctx l core).restore)

/-- The untimed copies into scratchpads that a ream started stop at their next line (R262). -/
def stopCopies (l restart : Nat) (s : Device) : Device :=
  { s with ucopies := s.ucopies.map (fun p => (p.1, match p.2 with
      | some u => if u.key / 640 = l ∧ u.spec.global = false ∧ u.issued ≥ restart then some { u with stopped := true } else some u
      | none => none)) }

/-- The Viterbi commands of a sheet discarded, with the reports of its commands that are still to be written (R181). -/
def dropViterbi (l : Nat) (s : Device) : Device :=
  { s with
    vtQueues := s.vtQueues.filterMap (fun p =>
      let q := p.2.filter (fun c => c.key / 640 != l)
      if q.isEmpty then none else some (p.1, q))
    vtBusy := s.vtBusy.filter (fun p => match p.2 with
      | some b => b.cmd.key / 640 != l
      | none => false)
    signals := s.signals.filter (fun p => match p.2 with
      | some g => !(g.vt && g.key / 640 == l)
      | none => false) }

/-- The lanes and lease requests of a sheet's sheaves emptied; with a stamp, every felt line written since then takes it
(R193). -/
def clearSheaves (stamp : Option Nat) : List Nat → Device → Device
  | [], s => s
  | g :: t, s =>
    let x := s.sheaf g
    let stamps := match stamp with
      | some r => x.stamps.map (fun (p : Nat × Option Nat) => match p.2 with
          | some u => if u ≥ r then (p.1, some r) else p
          | none => p)
      | none => x.stamps
    clearSheaves stamp t (s.setSheaf g { x with deckle := [], requests := [], stamps := stamps })

/-- The current ream of a sheet discarded (R193). -/
def discardReam (l : Nat) (s : Device) : Device :=
  let x := s.launch l
  let s := discardCores l x.cores s
  let s := dropViterbi l (stopCopies l x.restart (dropCopies (fun c => c.key / 640 == l && decide (c.issued ≥ x.restart)) s))
  clearSheaves (some x.restart) x.sheaves s

/-! ## The end of a launch (R292, R377) -/

/-- Whether a commit of a launch is still under way. -/
def Device.committing (s : Device) (l : Nat) : Bool := s.commits.any (fun c => c.l == l)

/-- A launch that ends; what its commits under way still have to do comes first (R213). -/
def concludeLaunch (l : Nat) (can err : Bool) (s : Device) : Device :=
  let s := if s.landing l then s else dropCopies (fun c => c.key / 640 == l) s
  if s.committing l then
    let x := s.launch l
    let c : Commit :=
      { l := l, at_ := s.mill, tick := x.tick, pending := [], signals := [], last := true, early := true, sys := false, exits := [],
        due := 0, signalled := true, can := can, err := err }
    let s := dropContexts l (vacate l (s.setLaunch l { x with st := .done, mode := .parked }))
    { s with commits := s.commits ++ [c] }
  else completeLaunch l can err s

/-- A launch ended with its current ream discarded. -/
def endLaunch (l : Nat) (can err : Bool) (s : Device) : Device :=
  let running := (s.launch l).st == .active || (s.launch l).st == .shadow
  concludeLaunch l can err (if running then discardReam l s else s)

/-- The buffered effects of some cores discarded, with what waits on them; their results stay in flight. -/
def leaveResults (l : Nat) : List Nat → Device → Device
  | [], s => s
  | core :: t, s =>
    let c := s.ctx l core
    let s := releaseStore c.live.store s
    leaveResults l t (s.setCtx l core { s.ctx l core with
      live := { (s.ctx l core).live with store := [] }
      handler := none
      hfly := []
      pending := [] })

/-- A launch that a fault ends: the buffered effects of its ream are discarded (R377), and the results already in flight
land at their ticks (R35, R56). -/
def faultLaunch (l : Nat) (s : Device) : Device :=
  let x := s.launch l
  let s := dropViterbi l (stopCopies l x.restart (leaveResults l x.cores s))
  concludeLaunch l false true { s with ending := s.ending ++ [(l, x.tick)] }

/-! ## Aborts (R193, R382, R383, R384) -/

/-- What a sheet waits for after an abort (R383): the residence of a page, or REQUEUE. -/
def Ev.need (e : Ev) (asid : Nat) : Option (Nat × Nat) :=
  if e.code = 16 then some (asid, e.i0) else if e.code = 18 then some (256, 0) else none

/-- Whether a sheet is in debug halt (R390). -/
def Launch.halted (x : Launch) : Bool :=
  match x.mode with
  | .halt _ => true
  | _ => false

/-- Whether a debug halt of a sheet has not ended, though an abort may have taken the sheet from its sheaves (R390). -/
def Launch.inHalt (x : Launch) : Bool := x.halted || x.kept.isSome

/-- The ream of a sheet aborted (R193): its sheet in SHADOW at the restart point, to be chosen again by R293 and R383. Unless it
must wait, it has its turn before sheets of its own EP until its quantum is over (R293); a debug halt outlasts the abort (R390). -/
def abortReam (l : Nat) (need : Option (Nat × Nat)) (s : Device) : Device :=
  let s := discardReam l s
  let x := s.launch l
  s.setLaunch l
    { x with
      st := .shadow, mode := .parked, tick := x.restart, checked := x.restart, ticked := false, oversize := false, fences := 0,
      asked := false, kept := if x.halted then some false else x.kept, turn := need.isNone,
      replaysCur := Nat.min 255 (x.replaysCur + 1), replays := Nat.min (2 ^ 24 - 1) (x.replays + 1), need := need,
      since := s.mill, switchAt := s.mill }

/-- A ream aborted whose core has missed a translation: it is installed first, while the requests of the ream still count as in
flight; while every entry of the TLB carries a request, the install waits, and the sheet with it (R340). -/
def abortMiss (l core asid va : Nat) (s : Device) : Device :=
  match tlbInstall core asid va s with
  | some t => abortReam l none t
  | none =>
    let t := abortReam l none s
    t.setLaunch l { t.launch l with need := some (512 + core, va) }

/-- The installs that wait, tried again. -/
def retryInstalls : List (Nat × Launch) → Device → Device
  | [], s => s
  | (l, x) :: t, s =>
    retryInstalls t (match x.need with
      | some (n, va) =>
        if n < 512 then s
        else
          match tlbInstall (n - 512) x.asid va s with
          | some u => u.setLaunch l { u.launch l with need := none }
          | none => s
      | none => s)

/-- RCFG.REPLAYCAP. -/
def Device.replayCap (s : Device) : Nat := bitField s.rcfg.toNat 0 8

/-- A replayable event (R194, R273, R382, R384): the ream aborts, unless the same timing trap or timeline fault has
aborted it before or the ream has no abort left; then the launch ends. -/
def replayEvent (record : Recorder) (l core : Nat) (e : Ev) (w : Where) (s : Device) : Device :=
  let x := s.launch l
  let cause := (e.code * 256 + e.reason, w.pc, w.tick)
  let once := e.code == 6 || e.code == 18
  if once && x.traps.contains cause then
    endLaunch l false true (record { cls := 1, ends := true, replay := false } s).1
  else
    let s := (record { cls := 1, ends := false, replay := true } s).1
    if x.replaysCur ≥ s.replayCap then
      endLaunch l false true (s.record (evOf 33 0 x.replaysCur 0 0 0) w { cls := 4, ends := true, replay := false }).1
    else
      let s := if e.code = 17 then abortMiss l core x.asid e.i0 s else abortReam l (e.need x.asid) s
      s.setLaunch l { s.launch l with traps := if once then x.traps ++ [cause] else x.traps }

/-- A replayable event that is detected now. -/
def takeReplayable (l core : Nat) (e : Ev) (w : Where) (s : Device) : Device := replayEvent (recordNow e w) l core e w s

/-! ## Delayed bundles (R321) -/

/-- The value of the counter that the CCRD of a bundle names, where it holds one whose operand is known. -/
def Device.namedCounter (s : Device) (l core : Nat) : Option Dbl :=
  let c := s.ctx l core
  match s.fetchBundle core (s.launch l).asid c.live.pc with
  | .ok (.bundle _ _ raw) =>
    match decodeSlots raw with
    | .ok slots => slots.findSome? (fun y => match y.instr with
        | .ccrd _ a =>
          if a.val ≥ 60 ∧ c.queues[Fin.ofNat 4 (a.val - 60)].isEmpty = true then none
          else some (dbl (s.counter ((c.interrupted a).toNat % 2 ^ 32)))
        | _ => none)
    | .error _ => none
  | _ => none

/-- The counters that the bundles of a sheet's tick name, kept while these bundles are delayed. -/
def seeCounters (l : Nat) : List Nat → Device → Device
  | [], s => s
  | core :: t, s =>
    let c := s.ctx l core
    let x := s.launch l
    let known := match c.seen with
      | some (u, _) => u == x.tick
      | none => false
    let s := if c.present && !c.live.exited && c.live.next == x.tick && !known then
        match s.namedCounter l core with
        | some v => s.setCtx l core { c with seen := some (x.tick, v) }
        | none => s
      else s
    seeCounters l t s

/-! ## The handler (R387) -/

/-- The handler context entered: the sheet stops, and the handler's first bundle issues at the next mill tick. -/
def enterHandler (record : Recorder) (l core : Nat) (e : Ev) (s : Device) : Device :=
  let x := s.launch l
  let (s, r) := record (Verdict.note e.cls) s
  let h : Handler := { pc := s.handlerAt x.asid, next := s.mill + 1, record := r, outcome := none }
  let s := s.setCtx l core { s.ctx l core with handler := some h }
  seeCounters l x.cores (s.setLaunch l { x with mode := .stop })

/-- A sheet in debug halt (R390), every handler abandoned. -/
def enterHalt (l : Nat) (s : Device) : Device :=
  let s := { s with ctxs := s.ctxs.map (fun (p : Nat × Ctx) => if p.1 / 640 = l then (p.1, { p.2 with handler := none }) else p) }
  seeCounters l (s.launch l).cores (s.setLaunch l { s.launch l with mode := .halt false, halt := false, kept := none })

/-! ## Taking an event (R377) -/

/-- An event of a context that runs at a place: what its class and the installed handler make of it. -/
def serveEvent (record : Recorder) (l core : Nat) (e : Ev) (w : Where) (s : Device) : Device :=
  let x := s.launch l
  let noted := (record (Verdict.note e.cls) s).1
  if x.st ≠ .active then s
  else if e.cls = 1 then replayEvent record l core e w s
  else if s.servicedBy x e then enterHandler record l core e s
  else if e.code = 7 ∨ e.cls ≥ 5 then noted
  else if e.code = 23 then enterHalt l noted
  else if e.code = 19 ∧ x.sbd = 0 ∧ e.reason ≠ 3 then askEarly l core (seeCounters l x.cores noted)
  else faultLaunch l (record { cls := e.cls, ends := true, replay := false } s).1

/-- An event of a context at a place that is detected now. -/
def takeEventAt (l core : Nat) (e : Ev) (w : Where) (s : Device) : Device := serveEvent (recordNow e w) l core e w s

/-- The place of an event of a sheet at its present tick. -/
def Launch.place (x : Launch) (l core pc : Nat) : Where := { pc := pc, tick := x.tick, asid := x.asid, lslot := l, core := core }

/-- An event of a context at the present sheet tick. -/
def takeEvent (l core pc : Nat) (e : Ev) (s : Device) : Device := takeEventAt l core e ((s.launch l).place l core pc) s

/-- The place of an event that waited: TRAP and BRK are those of the tick before (R324), every other has the tick at which
it is detected (log 145). -/
def Launch.placeOf (x : Launch) (l core pc : Nat) (e : Ev) : Where :=
  { x.place l core pc with tick := if e.code = 22 ∨ e.code = 23 then x.tick - 1 else x.tick }

/-- Some events of a context detected: each gets its record, in their order (R378, R381). -/
def detectAll (l core : Nat) : List Waiting → Device → List Waiting × Device
  | [], s => ([], s)
  | p :: t, s =>
    let (p, s) := match p.record with
      | some _ => (p, s)
      | none =>
        let (s, r) := s.record p.ev ((s.launch l).placeOf l core p.pc p.ev) (Verdict.note p.ev.cls)
        ({ p with record := some r }, s)
    let (r, s) := detectAll l core t s
    (p :: r, s)

/-- The events that a context has raised by now detected, whatever becomes of the sheet before they are served. -/
def detectEvents (l core : Nat) (s : Device) : Device :=
  if (s.ctx l core).pending.isEmpty then s
  else
    let (ps, s) := detectAll l core (s.ctx l core).pending s
    s.setCtx l core { s.ctx l core with pending := ps }

/-- The events that wait in a context, served in turn while neither a handler nor another outcome intervenes. -/
def servePending (l core : Nat) : Nat → Device → Device
  | 0, s => s
  | n + 1, s =>
    let c := s.ctx l core
    match c.pending with
    | [] => s
    | p :: t =>
      if c.handler.isSome || (s.launch l).st != .active then s
      else
        let s := s.setCtx l core { c with pending := t }
        let w := (s.launch l).placeOf l core p.pc p.ev
        servePending l core n (serveEvent (match p.record with
          | some r => recordKept r
          | none => recordNow p.ev w) l core p.ev w s)

/-- Every event that waits in a context. -/
def serveAll (l core : Nat) (s : Device) : Device := servePending l core (s.ctx l core).pending.length s

/-- Every event that waits in some contexts, in ascending core index. -/
def serveCores (l : Nat) : List Nat → Device → Device
  | [], s => s
  | core :: t, s => serveCores l t (serveAll l core s)

/-! ## The return from a handler (R388, R389, R393) -/

/-- Whether a handler of the sheet is still running. -/
def Device.handling (s : Device) (l : Nat) : Bool := s.ctxs.any (fun p => p.1 / 640 == l && p.2.handler.isSome)

/-- Whether a sheet stands still for a stop or an early commit (R190, R300). -/
def Launch.still (x : Launch) : Bool :=
  match x.mode with
  | .stop => true
  | .early _ => true
  | _ => false

/-- A stopped sheet runs again once no handler is left. -/
def settleStop (l : Nat) (s : Device) : Device :=
  let x := s.launch l
  if x.mode = .stop ∧ s.handling l = false then s.setLaunch l { x with mode := .run } else s

/-- The outcome a handler chose, at its mill tick. -/
def handlerOutcome (l core act : Nat) (h : Handler) (s : Device) : Device :=
  let s := s.markHandled h.record
  let s := s.setCtx l core { s.ctx l core with handler := none }
  let w := (s.launch l).place l core (s.ctx l core).live.pc
  match act with
  | 0 => settleStop l (serveAll l core s)
  | 1 => faultLaunch l s
  | 2 => takeEventAt l core (evOf 24 4 0 0 0 0) w s
  | 3 => askEarly l core s
  | _ => enterHalt l s

/-- The outcomes due now, in ascending core index; the first that ends, replays or halts decides for the sheet. -/
def handlerOutcomes : List (Nat × Ctx) → Device → Device
  | [], s => s
  | (key, _) :: t, s =>
    let s := match (s.ctxAt key).handler with
      | some h =>
        match h.outcome with
        | some (act, due) =>
          if due ≤ s.mill ∧ (s.launch (key / 640)).still = true then handlerOutcome (key / 640) (key % 640) act h s else s
        | none => s
      | none => s
    handlerOutcomes t s

end Sys2Proof.Machine
end

