-- ==== Sys2Proof/Machine/Landing.lean ====
section
/-! DEFINITION. What in-flight entries do at their sheet ticks (R9): results, scratchpad accesses, taps, press rows, drain
lines and copy rows, with the flags they raise (R112), and the arithmetic trap (R113). The entries of a core due at one
tick are performed in three passes: what is read, then what is written, then the rows that the press streams. -/

namespace Sys2Proof.Machine

/-! ## Register writes (R9, R296) -/

/-- `new` in place of `len` bytes of `old` from byte `lo` on. -/
def mergeBytes {n : Nat} (old new : BitVec n) (lo len : Nat) : BitVec n :=
  let mask := BitVec.ofNat n ((2 ^ (8 * len) - 1) * 2 ^ (8 * lo))
  (old &&& ~~~mask) ||| (new &&& mask)

/-- The bit of DIRTY of a register (R296). -/
def RegWrite.dirtyBit : RegWrite → Option Nat
  | .s r _ => some (r.val / 8)
  | .aAddr _ _ => some 8
  | .aInc _ _ => some 8
  | .aWrap _ _ => some 8
  | .p _ _ => some 9
  | .v r _ _ _ => some (10 + r.val / 8)
  | .m _ _ => some 9
  | .tdata r _ => some (18 + r.val)
  | .ttype r _ _ => some (18 + r.val)
  | .dv _ => some 34
  | .k _ _ _ _ => some 35
  | .cb _ _ => some 36
  | .lw _ _ => some 37
  | .lwBoff _ _ => some 37
  | .fctl _ => some 39
  | .fstat _ => some 39
  | .hkey _ => some 39
  | .mmrev _ => none
  | .hs _ _ => none
  | .hp _ _ => none

/-- The registers after a write. -/
def Regs.write (r : Regs) : RegWrite → Regs
  | .s d v => { r with s := r.s.set d v }
  | .aAddr d v => { r with a := r.a.set d { r.a[d] with addr := v } }
  | .aInc d v => { r with a := r.a.set d { r.a[d] with inc := v } }
  | .aWrap d v => { r with a := r.a.set d { r.a[d] with wrap := v } }
  | .p d b => { r with p := r.p.set d b }
  | .v d lo len x => { r with v := r.v.set d (mergeBytes r.v[d] x lo len) }
  | .m d x => { r with m := r.m.set d x }
  | .tdata d x => { r with t := r.t.set d { r.t[d] with data := x } }
  | .ttype d w tag => { r with t := r.t.set d { r.t[d] with typ := w, tag := tag.getD r.t[d].tag } }
  | .dv _ => r
  | .k d lo len x => { r with k := r.k.set d (mergeBytes r.k[d] x lo len) }
  | .cb d x => { r with cb := r.cb.set d x }
  | .lw d x => { r with lw := r.lw.set d x }
  | .lwBoff d v => { r with lw := r.lw.set d (lwWithBoff r.lw[d] v.toNat) }
  | .fctl v => { r with fctl := v }
  | .fstat v => { r with fstat := v }
  | .hkey v => { r with hkey := v }
  | .mmrev v => { r with mmrev := v }
  | .hs _ _ => r
  | .hp _ _ => r

/-- The DIRTY bits after a write. -/
def markDirty (d : BitVec 41) (b : Option Nat) : BitVec 41 :=
  match b with
  | some i => d ||| BitVec.ofNat 41 (2 ^ i)
  | none => d

/-- A context after a write; s0, p0, the queue-mapped registers and hs0 keep nothing (R30, R31, R387). -/
def Ctx.write (c : Ctx) (w : RegWrite) : Ctx :=
  match w with
  | .hs r v => { c with hs := c.hs.set r v }
  | .hp r b => { c with hp := c.hp.set r b }
  | w => { c with live := { c.live with regs := c.live.regs.write w }, dirty := markDirty c.dirty w.dirtyBit }

/-- A context after some writes. -/
def Ctx.writes (c : Ctx) (ws : List RegWrite) : Ctx := ws.foldl Ctx.write c

/-- The state after register writes of a context. -/
def writeRegs (l core : Nat) (ws : List RegWrite) (s : Device) : Device := s.setCtx l core ((s.ctx l core).writes ws)

/-! ## The outcome of an entry -/

/-- The state an entry leaves, the flags it raises, the vector it names in a trap's record, and an event. -/
structure Landed where
  st : Device
  flags : Flags
  vd : Option VNum
  ev : Option Ev

/-- An entry that raises nothing. -/
def quiet (s : Device) : Landed := { st := s, flags := 0, vd := none, ev := none }

/-- Register writes that raise nothing. -/
def quietRegs (l core : Nat) (ws : List RegWrite) (s : Device) : Landed := quiet (writeRegs l core ws s)

/-! ## Loads (R228 to R237, R172 to R174, R140, R164, R166) -/

/-- Some bytes of an entry's capture. -/
def Flight.bytes (f : Flight) (a n : Nat) : List Byte := Memory.readBytes f.buf a n

/-- A row of packed six-bit elements as bytes. -/
def sixToBytes (n x : Nat) : Nat := ofElems 8 (elems 6 n x)

/-- A row of a region as a tile register or a buffer holds it. -/
def heldRow (six : Nat) (bytes : List Byte) : Nat := if six = 0 then ofBytes bytes else sixToBytes six (ofBytes bytes)

/-- The registers that a tile load fills (R232, R414). -/
def loadedTile (f : Flight) (pair : Bool) (rows : List Nat) (len six : Nat) (pack : Bool) : List TData :=
  let x := rows.map (fun a => heldRow six (f.bytes a len))
  if pack then [BitVec.ofNat 65536 (ofElems 512 x)] else tileData pair x

/-- Readers of a laid segment's stream and scales from a capture; `base` is the key of the partition's first byte. -/
def Flight.laidReader (f : Flight) (base p : Nat) : Nat → Byte := fun i => Memory.read f.buf (base + p + i)

/-- The decoded elements of VLAID (R140). -/
def laidElems (f : Flight) (base : Nat) (w : BitVec 192) (w32 : Bool) (md : Modes) (mask : Mask) (old : VData) (off : Dbl) :
    List (Nat × Flags) :=
  let c := if w32 then 128 else 256
  let n := if w32 then 32 else 16
  let idx := laidIndices w c
  mapElems mask c (fun i => velem n old i) (fun i =>
    deliverFz md (i + off.toNat) (if w32 then .fp32 else .bf16)
      (laidExact w (f.laidReader base (lwSptr w)) (f.laidReader base (lwGsptr w)) (nth idx i)))

/-- The weight at row `kk` of column `n` of PLAID (R166). -/
def laidLoad (f : Flight) (base : Nat) (w : BitVec 192) (k : Nat) (sat : Bool) (n kk : Nat) : Nat × Flags :=
  deliver { modesRne with sat := sat } 0 (.fl .bf16)
    (laidExact w (f.laidReader base (lwSptr w)) (f.laidReader base (lwGsptr w)) (laidIndex w k n kk))

/-- The buffer that PLAID leaves (R166). -/
def laidBuf (f : Flight) (base : Nat) (typ : Dbl) (k n : Nat) (w : BitVec 192) (sat : Bool) : PressBuf :=
  { typ := typ, k := k, n := n, tag := 0,
    cols := (rangeFrom 0 n).map (fun j => BitVec.ofNat 2048 (ofElems 16 ((rangeFrom 0 k).map (fun kk => (laidLoad f base w k sat j kk).1)))),
    scales := [], metas := List.replicate n none }

/-- The buffer that a load from scratchpad leaves (R164, R176). -/
def regionBuf (f : Flight) (typ : Dbl) (k n : Nat) (tag : Byte) (rows : List Nat) (len : Nat) (scales : List Nat) (slen : Nat) :
    PressBuf :=
  let six := if fmtWidth (tFmt typ.toNat) = 6 then k else 0
  { typ := typ, k := k, n := n, tag := tag, cols := rows.map (fun a => BitVec.ofNat 2048 (heldRow six (f.bytes a len))),
    scales := (scales.map (fun a => f.bytes a slen)).flatten, metas := List.replicate n none }

/-- The key of the first byte of a context's partition. -/
def Device.baseKey (s : Device) (l core : Nat) : Nat := spKey core ((s.launch l).spPhys core 0)

/-- The tables that a codebook's write makes invalid, of a core: the one built and any under construction (R172). -/
def dropTables (l core : Nat) (q : CbNum) (s : Device) : Device :=
  let g := s.sheaf (core / 4)
  let gone := match g.table with
    | some t => t.core == core && (t.a == some q || t.b == some q)
    | none => false
  let s := if gone then s.setSheaf (core / 4) { g with table := none } else s
  let c := s.ctx l core
  let keep := fun (f : Flight) => match f.op with
    | .table a b _ _ => !(a == some q || b == some q)
    | _ => true
  s.setCtx l core { c with live := { c.live with flights := c.live.flights.filter keep } }

/-- The write of the advanced BOFF of the window read at issue, when the instruction advances; the register's other fields
stay as they are then (R140, R166). -/
def advance (adv : Option LwNum) (w : BitVec 192) (steps : Nat) : List RegWrite :=
  match adv with
  | some q => [.lwBoff q (BitVec.ofNat 26 ((lwBoff w + steps * lwKw w) % lwBits w))]
  | none => []

/-- A load or command that completes. -/
def finish (l core : Nat) (f : Flight) (x : Finish) (s : Device) : Landed :=
  match x with
  | .scalar d a n =>
    if d = 0 ∨ d.val ≥ 60 then quiet s else quietRegs l core [.s d (dbl (ofBytes (f.bytes a n)))] s
  | .vector d lines =>
    quietRegs l core [.v d 0 512 (BitVec.ofNat 4096 (ofBytes (lines.map (fun a => f.bytes a 64)).flatten))] s
  | .gather d w addrs =>
    quietRegs l core [.v d 0 512 (vdata w (addrs.map (fun a => ofBytes (f.bytes a (w / 8)))))] s
  | .tile d pair rows len six pack =>
    quietRegs l core (((pairRegs d pair).zip (loadedTile f pair rows len six pack)).map (fun p => .tdata p.1 p.2)) s
  | .codebook q a =>
    let v := BitVec.ofNat 256 (ofBytes (f.bytes a 32))
    let s := if (s.ctx l core).live.regs.cb[q] = v then s else dropTables l core q s
    quietRegs l core [.cb q v] s
  | .scale q a => quietRegs l core [.k q 0 64 (lineOf (f.bytes a 64))] s
  | .window q a =>
    let w := BitVec.ofNat 192 (ofBytes (f.bytes a 24))
    match lwFails w (s.launch l).spSize with
    | some c => { quiet s with ev := some { evOf 10 c q.val 0 0 0 with slot := f.slot } }
    | none => quietRegs l core [.lw q w] s
  | .laid d w w32 adv md mask old off =>
    let r := laidElems f (s.baseKey l core) w w32 md mask old off
    let ws := RegWrite.v d 0 512 (vdata (if w32 then 32 else 16) (codesOf r)) :: advance adv w (if w32 then 128 else 256)
    { st := writeRegs l core ws s, flags := flagsOf r, vd := some d, ev := none }
  | .segment d seg =>
    quietRegs l core [.v d (64 * seg) 64 (BitVec.ofNat 4096 (ofBytes (f.bytes 0 64) * 2 ^ (512 * seg)))] s
  | .bufRegion b typ k n tag rows len scales slen =>
    quiet (s.setSheaf (core / 4) ((s.sheaf (core / 4)).setBuf b (regionBuf f typ k n tag rows len scales slen)))
  | .bufLaid b typ k n w adv sat =>
    let s := s.setSheaf (core / 4) ((s.sheaf (core / 4)).setBuf b (laidBuf f (s.baseKey l core) typ k n w sat))
    quietRegs l core (advance adv w (k * n)) s
  | .laidFlags w k n0 c sat =>
    let fl := orFlags ((rangeFrom n0 c).map (fun n => orFlags ((rangeFrom 0 k).map (fun kk => (laidLoad f (s.baseKey l core) w k sat n kk).2))))
    { quiet s with flags := fl }
  | .copyWindow id =>
    match Assoc.get none s.copies id with
    | some c => quiet { s with copies := Assoc.set none s.copies id (some { c with window := f.buf }) }
    | none => quiet s

/-! ## Scratchpad (R228, R159, R198, R249, R252 to R254, R259) -/

/-- CNT and THRESH of a barrier object (R252). -/
def Device.barrier (s : Device) (a : Nat) : Nat × Nat :=
  let x := ofBytes (Memory.readBytes s.spad a 8)
  (bitField x 0 32, bitField x 32 32)

/-- CNT of a barrier object written. -/
def setCount (a n : Nat) (s : Device) : Device := spWrite a (bytesOf 4 n) s

/-- A signal added to a barrier object; CNT stops at its largest value (R252). -/
def signalBarrier (a v : Nat) (s : Device) : Device := setCount a (Nat.min (2 ^ 32 - 1) ((s.barrier a).1 + v)) s

/-- A region's header written: TYPE, and TAG + 1, which the promise kept by it records (R159, R198). -/
def writeHeader (l core at_ : Nat) (typ : Dbl) (tick : Nat) (s : Device) : Device :=
  let tag := Memory.read s.spad (at_ + 8) + 1
  let s := spWrite (at_ + 8) [tag] (spWrite at_ (bytesOf 8 typ.toNat) s)
  let c := s.ctx l core
  s.setCtx l core { c with promises := c.promises.map (fun p => if p.at_ = at_ ∧ p.tick = tick then { p with tag := some tag } else p) }

/-- An entry of a context's in-flight list changed. -/
def mapFlight (l core seq : Nat) (g : Flight → Flight) (s : Device) : Device :=
  let c := s.ctx l core
  s.setCtx l core { c with live := { c.live with flights := c.live.flights.map (fun f => if f.seq = seq then g f else f) } }

/-- Bytes added to the capture of an entry. -/
def Flight.capture (f : Flight) (a : Nat) (bytes : List Byte) : Flight := { f with buf := Memory.writeBytes f.buf a bytes }

/-- An entry of a context's in-flight list removed. -/
def dropFlight (l core seq : Nat) (s : Device) : Device :=
  let c := s.ctx l core
  s.setCtx l core { c with live := { c.live with flights := c.live.flights.filter (fun f => f.seq != seq) } }

/-- An entry added to a context's in-flight list by another. -/
def follow (l core : Nat) (f : Flight) (due : Nat) (op : FlyOp) (s : Device) : Device :=
  let c := s.ctx l core
  let g : Flight := { f with seq := s.seq, due := due, op := op, buf := [] }
  { s.setCtx l core { c with live := { c.live with flights := c.live.flights ++ [g] } } with seq := s.seq + 1 }

/-- The scratchpad ranges of a capture. -/
def captureAll (l core target : Nat) : List (Nat × Nat) → Device → Device
  | [], s => s
  | (a, n) :: t, s => captureAll l core target t (mapFlight l core target (fun f => f.capture a (Memory.readBytes s.spad a n)) s)

/-- The FP32 or BF16 elements of a line changed one by one. -/
def mapLine (w : Nat) (g : Nat → Nat × Flags) (x : Nat) : Nat × Flags :=
  let r := (elems w (512 / w) x).map g
  (ofElems w (codesOf r), flagsOf r)

/-- A transform of one line (R259); TR16 acts on the block. -/
def xfmLine (op : Xfm) (v : Nat) (x : Nat) : Nat × Flags :=
  let e := signedOf 32 v
  match op with
  | .tr16 => (x, 0)
  | .zero => (0, 0)
  | .fill => (ofElems 64 (List.replicate 8 v), 0)
  | .scl2Fp32 => mapLine 32 (fun c => deliver modesRne 0 (.fl .fp32) ((decodeFloat .fp32 c).scale e)) x
  | .scl2Bf16 => mapLine 16 (fun c => deliver modesRne 0 (.fl .bf16) ((decodeFloat .bf16 c).scale e)) x
  | .addcFp32 => mapLine 32 (fun c => deliver modesRne 0 (.fl .fp32) ((decodeFloat .fp32 c).add (decodeFloat .fp32 (v % 2 ^ 32)))) x
  | .addcI32 => mapLine 32 (fun c => ((c + v) % 2 ^ 32, 0)) x
  | .nrw =>
    let r := (elems 32 16 x).map (fun c => deliver modesRne 0 (.fl .bf16) (decodeFloat .fp32 c))
    (ofElems 16 (codesOf r), flagsOf r)
  | .swp16 => mapLine 32 (fun c => (c / 2 ^ 16 + c % 2 ^ 16 * 2 ^ 16, 0)) x

/-- The lines of a transform after it, with its flags. -/
def xfmResult (op : Xfm) (v : Nat) (xs : List Nat) : List Nat × Flags :=
  if op = .tr16 then
    ((rangeFrom 0 xs.length).map (fun q => ofElems 16 ((rangeFrom 0 32).map (fun j => elemAt 16 (nth xs j) q))), 0)
  else
    let r := xs.map (xfmLine op v)
    (codesOf r, flagsOf r)

/-- Lines written one by one. -/
def writeAll : List (Nat × Nat) → Device → Device
  | [], s => s
  | (a, x) :: t, s => writeAll t (spWrite a (bytesOf 64 x) s)

/-! ## The press (R167, R168, R170) -/

/-- A row of A as a stream reads it at its tick: from the tile registers, or from its capture. -/
def streamedRow (l core : Nat) (f : Flight) (src : Option (TNum × Bool × Nat)) (a : ARow) (at_ len sAt sLen : Nat) (s : Device) : ARow :=
  match src with
  | some (t, pair, r) =>
    let regs := (s.ctx l core).live.regs
    let hi := if pair then regs.t[tnum (t.val + 1)].data else 0
    { a with data := BitVec.ofNat 4096 (tileRow regs.t[t].data hi r) }
  | none => { a with data := BitVec.ofNat 4096 (ofBytes (f.bytes at_ len)), scales := f.bytes sAt sLen }

/-- An accumulator element written, marking its slot as changed (R295). -/
def accSet (slot r n v : Nat) (s : Device) : Device := { s with acc := Assoc.set 0 s.acc (slot * 8192 + r * 256 + n) (word v) }

/-- The elements of a row of a slot, from column `n` on. -/
def accRowSet (slot r n : Nat) : List Nat → Device → Device
  | [], s => s
  | v :: t, s => accRowSet slot r (n + 1) t (accSet slot r n v s)

/-- A slot marked as changed. -/
def accMark (slot : Nat) (s : Device) : Device := { s with accDirty := Assoc.set false s.accDirty slot true }

/-- A row of a slot that becomes final, with its flags. -/
def accFinal (slot r : Nat) (z : Bool) (buf : PressBuf) (a : ARow) (cbA cbB : BitVec 256) (s : Device) : Device × Flags :=
  let res := rowResult z (s.accRead slot r) a buf cbA cbB
  (accMark slot (accRowSet slot r 0 (codesOf res) s), flagsOf res)

/-- A slot cleared, with its type and K-open bit (R168). -/
def accClear (slot : Nat) (s : Device) : Device :=
  accMark slot
    { s with
      acc := s.acc.filter (fun p => p.1 / 8192 != slot)
      accType := Assoc.set 0 s.accType slot 0
      accOpen := Assoc.set false s.accOpen slot false }

/-- The sheaf of a core changed. -/
def mapSheaf (core : Nat) (g : Sheaf → Sheaf) (s : Device) : Device := s.setSheaf (core / 4) (g (s.sheaf (core / 4)))

/-- A felt line written and stamped (R197). -/
def feltWrite (core line : Nat) (d : Line) (tick : Nat) (s : Device) : Device :=
  let s := { s with felt := Memory.writeBytes s.felt (feltKey (core / 4) line) (lineBytes d) }
  mapSheaf core (fun g => { g with stamps := Assoc.set none g.stamps line (some tick) }) s

/-! ## Copies (R244, R246) -/

/-- The byte of a copy's source at an address: of its window, or of the lines read for it. -/
def Copy.source (c : Copy) (a : Nat) : Byte :=
  if c.spec.fromSp then Memory.read c.window a
  else
    match c.lines.find? (fun x => x.1 == va48 a / 64 * 64) with
    | some (_, _, _, some d) => (lineBytes d).getD (a % 64) 0
    | _ => 0

/-- Row `r` of a timed copy written, with its flags (R244). -/
def copyRowWrite (id r : Nat) (s : Device) : Device × Flags :=
  match Assoc.get none s.copies id with
  | none => (s, 0)
  | some c =>
    let out := c.spec.output c.md c.source
    let (a, n) := c.spec.rowRange r
    if r < c.spec.d1 then (spWrite a (out.rows.getD r []) s, out.flags.getD r 0)
    else (spWrite a ((out.scales.drop (64 * (r - c.spec.d1))).take n) s, 0)

/-- The bytes of a CPYW with their translated addresses. -/
def writtenBytes (c : CopySpec) (lines : List (Nat × GAddr)) (out : CopyOut) : List GByte :=
  let place := fun (a : Nat) (b : Byte) => match lines.find? (fun l => l.1 == va48 a / 64 * 64) with
    | some l => [({ addr := l.2.plus (a % 64), val := b } : GByte)]
    | none => []
  let rows := (out.rows.zip (rangeFrom 0 out.rows.length)).map (fun p =>
    ((p.1.zip (rangeFrom 0 p.1.length)).map (fun q => place (c.rowAt p.2 + q.2) q.1)).flatten)
  rows.flatten ++ ((out.scales.zip (rangeFrom 0 out.scales.length)).map (fun q => place (c.scaleAt + q.2) q.1)).flatten

/-- An entry of a context's store buffer changed. -/
def mapBuffered (l core seq : Nat) (g : Buffered → Buffered) (s : Device) : Device :=
  let c := s.ctx l core
  s.setCtx l core { c with live := { c.live with store := c.live.store.map (fun b => if b.seq = seq then g b else b) } }

/-- The conversion of a CPYW (R246), with its flags. -/
def convertEntry (l core : Nat) (f : Flight) (entry : Nat) (s : Device) : Device × Flags :=
  match (s.ctx l core).live.store.find? (fun b => b.seq == entry) with
  | some b =>
    match b.eff with
    | .write spec md lines _ =>
      let out := spec.output md (Memory.read f.buf)
      (mapBuffered l core entry (fun b => { b with eff := .write spec md lines (some (writtenBytes spec lines out)) }) s,
        orFlags out.flags)
    | _ => (s, 0)
  | none => (s, 0)

/-- The contribution of a FRED complete (R258). -/
def fredReady (l core : Nat) (f : Flight) (entry at_ len : Nat) (s : Device) : Device :=
  mapBuffered l core entry (fun b => match b.eff with
    | .fred a bits _ => { b with eff := .fred a bits (some (f.bytes at_ len)) }
    | _ => b) s

/-! ## One entry -/

/-- The value at a lane position of the core's sheaf. -/
def Device.tap (s : Device) (core lane station tick : Nat) : Option Line := (s.sheaf (core / 4)).laneValue lane station tick

/-- Deckle empty (R196, R380). -/
def emptyLane (f : Flight) (lane tick : Nat) : Ev := { evOf 3 10 lane tick f.pc f.issued with slot := f.slot }

/-- Stores that follow an entry, one a tick from tick `t` on. -/
def followStores (l core : Nat) (f : Flight) (t : Nat) : List (Nat × List Byte × Flags) → Device → Device
  | [], s => s
  | (a, b, fl) :: rest, s => followStores l core f (t + 1) rest (follow l core f t (.storeFlags a b fl) s)

/-- The drain of a slot by LTDRN (R177): its rows converted as they stand, with the tensor scale of now, and the stores of
its lines and scales from 12 ticks on. -/
def drainSlot (l core : Nat) (f : Flight) (d : DrainSpec) (acc n row m : Nat) (lines scales : List Nat) (s : Device) : Device :=
  let d := { d with ts := (s.sheaf (core / 4)).scale, ctr := d.ctr + n * row }
  let rows := (rangeFrom 0 m).map (Device.drainRow s d acc n)
  let sc := ((rows.map (fun r => r.scales)).flatten).map (BitVec.ofNat 8)
  let runs := (scales.zip (rangeFrom 0 scales.length)).map (fun p => (p.1, (sc.drop (64 * p.2)).take 64, (0 : Flags)))
  followStores l core f (f.due + 12) ((lines.zip (d.lines n rows)) ++ runs) s

/-- What an in-flight entry of a context does at its tick. -/
def perform (l core : Nat) (f : Flight) (s : Device) : Landed :=
  let t := f.due
  match f.op with
  | .regs ws fl vd => { st := writeRegs l core ws s, flags := fl, vd := vd, ev := none }
  | .atomRet d v => if (s.ctx l core).live.exited then quiet s else quietRegs l core [.s d v] s
  | .raise e => { quiet s with ev := some e }
  | .capture target ranges => quiet (captureAll l core target ranges s)
  | .finish x => finish l core f x s
  | .store a bytes => quiet (spWrite a bytes s)
  | .header a typ => quiet (writeHeader l core a typ t s)
  | .satom target op a n v c =>
    let old := Memory.readBytes s.spad a n
    let s := mapFlight l core target (fun g => g.capture a old) s
    quiet (spWrite a (bytesOf n (atomNew op n (ofBytes old) v.toNat c.toNat)) s)
  | .signal a v => quiet (signalBarrier a v s)
  | .crossSignal key a v =>
    let (due, s) := s.later
    quiet { s with signals := Assoc.set none s.signals s.seq (some { key := key, at_ := a, v := v, due := due, data := [], header := none, note := none }), seq := s.seq + 1 }
  | .consume a =>
    let (cnt, thr) := s.barrier a
    quiet (setCount a ((cnt + 2 ^ 32 - thr) % 2 ^ 32) s)
  | .put lane station data a =>
    let d := data.getD (lineOf (Memory.readBytes s.spad a 64))
    quiet (mapSheaf core (fun g => { g with deckle := g.deckle ++ [{ lane := lane, station := station, tick := t, data := d }] }) s)
  | .take lane station target =>
    match s.tap core lane station t with
    | some d => quiet (mapFlight l core target (fun g => g.capture 0 (lineBytes d)) s)
    | none => { quiet (dropFlight l core target s) with ev := some (emptyLane f lane t) }
  | .takeSp lane station a =>
    match s.tap core lane station t with
    | some d => quiet (follow l core f (t + 1) (.store a (lineBytes d)) s)
    | none => { quiet s with ev := some (emptyLane f lane t) }
  | .beat op lines v =>
    let (xs, fl) := xfmResult op v.toNat (lines.map (fun a => ofBytes (Memory.readBytes s.spad a 64)))
    { quiet (writeAll (lines.zip xs) s) with flags := fl }
  | .streamRow b acc r z src a at_ len sAt sLen cbA cbB =>
    quiet (follow l core f (t + 10)
      (.accRow acc r z ((s.sheaf (core / 4)).buf b) (streamedRow l core f src a at_ len sAt sLen s) cbA cbB) s)
  | .accRow acc r z buf a cbA cbB =>
    let (s, fl) := accFinal acc r z buf a cbA cbB s
    { quiet s with flags := fl }
  | .accMark acc typ kopen =>
    let s := match typ with
      | some w => { s with accType := Assoc.set 0 s.accType acc w }
      | none => s
    quiet (accMark acc { s with accOpen := Assoc.set false s.accOpen acc kopen })
  | .drain d acc n row m lines scales => quiet (drainSlot l core f d acc n row m lines scales s)
  | .clear acc => quiet (accClear acc s)
  | .tensorScale v => quiet (mapSheaf core (fun g => { g with scale := v }) s)
  | .lacq p =>
    let x := (s.sheaf (core / 4)).lease
    let won := decide (x.holder = some (Fin.ofNat 4 core)) && x.term == f.issued + 4096
    if p = 0 then quiet s else quietRegs l core [.p p won] s
  | .bufTile b buf => quiet (mapSheaf core (fun g => g.setBuf b ((g.buf b).extend buf)) s)
  | .bufFail b e =>
    { quiet (mapSheaf core (fun g => g.setBuf b { g.buf b with typ := 0 }) s) with ev := some e }
  | .table a b cbA cbB =>
    quiet (mapSheaf core (fun g => { g with table := some { core := core, a := a, b := b, cbA := cbA, cbB := cbB } }) s)
  | .felt line d fl => { quiet (feltWrite core line d t s) with flags := fl }
  | .storeFlags a bytes fl => { quiet (spWrite a bytes s) with flags := fl }
  | .copyRow id r =>
    let (s, fl) := copyRowWrite id r s
    { quiet s with flags := fl }
  | .copyEnd id =>
    match Assoc.get none s.copies id with
    | some c => quiet (if c.spec.dreg then writeHeader l core c.spec.dst c.spec.typ t s else s)
    | none => quiet s
  | .convert entry =>
    let (s, fl) := convertEntry l core f entry s
    { quiet s with flags := fl }
  | .fredData entry a n => quiet (fredReady l core f entry a n s)
  | .tlbInv sc asid page => quiet (invalidate core sc asid page s)
  | .nonce a m b => quiet (attestRequest (ctxKey l core) a m b s)
  | .nothing => quiet s

/-! ## The entries of a tick -/

/-- The pass in which an entry is performed: reads and puts, takes, results, streams. -/
def FlyOp.pass : FlyOp → Nat
  | .capture _ _ => 0
  | .satom _ _ _ _ _ _ => 0
  | .put _ _ _ _ => 0
  | .take _ _ _ => 1
  | .takeSp _ _ _ => 1
  | .nonce _ _ _ => 1
  | .streamRow _ _ _ _ _ _ _ _ _ _ _ _ => 3
  | .drain _ _ _ _ _ _ _ => 3
  | _ => 2

/-- What the entries of a core have raised at a tick: flags with their producers, and events. -/
structure Raised where
  flags : List (Flags × Flight × Option VNum)
  evs : List Ev

/-- Some entries performed one by one, each leaving the in-flight list first. -/
def performAll (l core : Nat) : List Nat → Raised → Device → Raised × Device
  | [], r, s => (r, s)
  | q :: t, r, s =>
    match (s.ctx l core).live.flights.find? (fun f => f.seq == q) with
    | none => performAll l core t r s
    | some f =>
      let x := perform l core f (dropFlight l core q s)
      let r : Raised :=
        { flags := if x.flags = 0 then r.flags else r.flags ++ [(x.flags, f, x.vd)],
          evs := r.evs ++ (match x.ev with
            | some e => [e]
            | none => []) }
      performAll l core t r x.st

/-- The entries of a core due by a tick, in the order they are performed. -/
def dueFlights (c : Ctx) (t : Nat) : List Nat :=
  let due := c.live.flights.filter (fun f => decide (f.due ≤ t))
  ((rangeFrom 0 4).map (fun k => (due.filter (fun f => f.op.pass == k)).map (fun f => f.seq))).flatten

/-! ## The arithmetic trap (R113) -/

/-- The producers of flags at a tick, lowest slot first. -/
def insertProducer (p : Flags × Flight × Option VNum) : List (Flags × Flight × Option VNum) → List (Flags × Flight × Option VNum)
  | [] => [p]
  | q :: t => if p.2.1.slot ≤ q.2.1.slot then p :: q :: t else q :: insertProducer p t

/-- Whether two entries are those of one instruction. -/
def Flight.same (f g : Flight) : Bool := f.pc == g.pc && f.issued == g.issued && f.slot == g.slot

/-- Each producing instruction once. -/
def onePerSlot : List (Flags × Flight × Option VNum) → List (Flags × Flight × Option VNum)
  | [] => []
  | p :: t => p :: (onePerSlot t).filter (fun q => !q.2.1.same p.2.1)

/-- The event of an arithmetic trap (R113, R380). Its one AUX field names the vector destination of the lowest slot that has
one (DESIGN CHOICE, log 127). -/
def arithmeticEv (l : List (Flags × Flight × Option VNum)) : Ev :=
  let ps := onePerSlot (l.foldr insertProducer [])
  let all := orFlags (l.map (fun p => p.1))
  let at_ := fun (n : Nat) => match ps[n]? with
    | some p => (p.2.1.pc, p.2.1.issued)
    | none => (0, 0)
  let vd := match ps.filterMap (fun p => p.2.2) with
    | v :: _ => 128 + v.val
    | [] => 0
  { code := 7, reason := all.toNat + Nat.min 7 ps.length * 2 ^ 5, i0 := (at_ 0).1, i1 := (at_ 0).2, i2 := (at_ 1).1, i3 := (at_ 1).2,
    aux := vd, slot := match ps with
      | p :: _ => p.2.1.slot
      | [] => 0 }

/-- The flags of a tick set in FSTAT, and the trap where one of them is enabled (R112, R113). -/
def settleFlags (l core : Nat) (r : Raised) (s : Device) : List Ev × Device :=
  let all := orFlags (r.flags.map (fun p => p.1))
  if all = 0 then (r.evs, s)
  else
    let c := s.ctx l core
    let regs := c.live.regs
    let s := writeRegs l core [.fstat (regs.fstat ||| all.setWidth 32)] s
    if bitField regs.fctl.toNat 8 5 &&& all.toNat = 0 then (r.evs, s) else (r.evs ++ [arithmeticEv r.flags], s)

/-- The entries of a context due by a tick performed; what they raise waits in the context, with the address of the
bundle due at the tick (R388). -/
def landCore (l core t : Nat) (s : Device) : Device :=
  let c := s.ctx l core
  let (r, s) := performAll l core (dueFlights c t) { flags := [], evs := [] } s
  let (evs, s) := settleFlags l core r s
  if evs.isEmpty then s
  else
    let c := s.ctx l core
    s.setCtx l core { c with pending := c.pending ++ evs.map (fun e => { ev := e, pc := c.live.pc, record := none }) }

/-- RESULT_LANDING (R9): the entries of the core of the sheet active on its sheaf that are due at the sheet's tick, while
the sheet has not stopped for good. The events that they raised are recorded (R381), and those of all the sheet's cores are served
once the last core's results have landed (DEDUCED, log 142). -/
def resultLanding (core : Nat) (s : Device) : Device :=
  match (s.sheaf (core / 4)).active with
  | none => s
  | some l =>
    let x := s.launch l
    if x.st = .active ∧ (x.mode = .run ∨ x.mode = .stop) ∧ x.ticked = false ∧ (s.ctx l core).present then
      let s := detectEvents l core (landCore l core x.tick s)
      if x.cores.getLast? = some core then serveCores l x.cores s else s
    else s

end Sys2Proof.Machine
end

