-- ==== Sys2Proof/Machine/Special.lean ====
section
/-! DEFINITION. The special functions VEXP2, VLOG2, VRCP, VRSQ, VSIG and VTANH (R128). Reciprocals are exact; the others
are evaluated in fixed point with 512 fraction bits and an error below 2^-492, and the result's leading 90 bits are taken
when the error cannot change them. No exact result other than those taken apart below is rational, so the leading bits
decide the rounding; a value the error bound does not settle is the free value `Config.special` (log entry 5). -/

namespace Sys2Proof.Machine

/-- Fraction bits of the fixed-point values. -/
def fixBits : Nat := 512

/-- The natural logarithm of 2, times 2^512, rounded down. -/
def fixLn2 : Nat :=
  0xb17217f7d1cf79abc9e3b39803f2f6af40f343267298b62d8a0d175b8baafa2be7b876206debac98559552fb4afa1b10ed2eae35c138214427573b291169b825

/-- The Taylor terms of e^y from the term `t` = y^k / k!, summed. -/
def expTerms (y : Nat) : Nat → Nat → Nat → Nat
  | 0, _, _ => 0
  | n + 1, k, t => t + expTerms y n (k + 1) (t * y / 2 ^ fixBits / (k + 1))

/-- e^y for y in [0, 1). -/
def fixExp (y : Nat) : Nat := expTerms y 110 0 (2 ^ fixBits)

/-- e^(-y). -/
def fixExpNeg (y : Nat) : Nat :=
  let k := y / fixLn2
  2 ^ (2 * fixBits) / fixExp (y % fixLn2) / 2 ^ k

/-- The odd terms of atanh z from z^k on, `zz` being z². -/
def atanhTerms (zz : Nat) : Nat → Nat → Nat → Nat
  | 0, _, _ => 0
  | n + 1, k, t => t / k + atanhTerms zz n (k + 2) (t * zz / 2 ^ fixBits)

/-- The natural logarithm of m in [1, 2). -/
def fixLn (m : Nat) : Nat :=
  let z := (m - 2 ^ fixBits) * 2 ^ fixBits / (m + 2 ^ fixBits)
  2 * atanhTerms (z * z / 2 ^ fixBits) 180 1 z

/-- The square root rounded down, by bits from bit `n` - 1 down. -/
def isqrt (x : Nat) : Nat → Nat → Nat
  | 0, r => r
  | n + 1, r => if (r + 2 ^ n) * (r + 2 ^ n) ≤ x then isqrt x n (r + 2 ^ n) else isqrt x n r

/-- A fixed-point value known to within 2^20 units as an exact result with a sticky part, when its leading 90 bits are
certain. -/
def settle (neg : Bool) (a : Nat) : Option Exact :=
  let k := Nat.log2 a - 90
  let lo := (a - 2 ^ 20) / 2 ^ k
  if 2 ^ 20 < a ∧ lo = (a + 2 ^ 20) / 2 ^ k ∧ lo ≠ 0 then some (.fin neg lo ((k : Int) - fixBits) true) else none

/-- A positive real below 2^-400. -/
def tiny : Exact := .fin false 1 (-401) true

/-- A real just below 1. -/
def belowOne (neg : Bool) : Exact := .fin neg (2 ^ 90 - 1) (-90) true

/-- The magnitude n * 2^e in fixed point; e is at least -512 for every value of the formats. -/
def fixOf (n : Nat) (e : Int) : Nat := n * 2 ^ (e + fixBits).toNat

/-- 2^x of a finite non-zero x. -/
def exp2Of (s : Bool) (n : Nat) (e : Int) : Option Exact :=
  let lg : Int := (Nat.log2 n : Int) + e
  if lg ≥ 10 then some (if s then tiny else .fin false 1 1000 true)
  else
    let x := fixOf n e
    let i := x / 2 ^ fixBits
    let f := x % 2 ^ fixBits
    if f = 0 then some (.fin false 1 (if s then -(i : Int) else i) false)
    else if s then
      match settle false (fixExp ((2 ^ fixBits - f) * fixLn2 / 2 ^ fixBits)) with
      | some y => some (y.scale (-(i : Int) - 1))
      | none => none
    else
      match settle false (fixExp (f * fixLn2 / 2 ^ fixBits)) with
      | some y => some (y.scale i)
      | none => none

/-- log2 of a finite positive value. -/
def log2Of (n : Nat) (e : Int) : Option Exact :=
  let k := Nat.log2 n
  let i : Int := (k : Int) + e
  if n = 2 ^ k then some (exactOfInt i)
  else
    let f := fixLn (n * 2 ^ (fixBits - k)) * 2 ^ fixBits / fixLn2
    let v : Int := i * (2 ^ fixBits : Nat) + f
    settle (decide (v < 0)) v.natAbs

/-- 1/x of a finite non-zero value. -/
def rcpOf (s : Bool) (n : Nat) (e : Int) : Exact :=
  .fin s (2 ^ 128 / n) (-e - 128) (decide (2 ^ 128 % n ≠ 0))

/-- 1/√x of a finite positive value. -/
def rsqOf (n : Nat) (e : Int) : Exact :=
  let m := if e % 2 = 0 then n else 2 * n
  let f := if e % 2 = 0 then e else e - 1
  let q := isqrt (2 ^ 240 / m) 121 0
  .fin false q (-(f / 2) - 120) (decide (q * q * m ≠ 2 ^ 240))

/-- The logistic sigmoid of a finite non-zero value. -/
def sigOf (s : Bool) (n : Nat) (e : Int) : Option Exact :=
  if (Nat.log2 n : Int) + e ≥ 8 then some (if s then tiny else belowOne false)
  else
    let t := fixExpNeg (fixOf n e)
    let one := 2 ^ fixBits
    settle false ((if s then t else one) * one / (one + t))

/-- tanh of a finite non-zero value. -/
def tanhOf (s : Bool) (n : Nat) (e : Int) : Option Exact :=
  let lg : Int := (Nat.log2 n : Int) + e
  if lg ≥ 7 then some (belowOne s)
  else if lg < -60 then some (.fin s (n * 2 ^ 80 - 1) (e - 80) true)
  else
    let t := fixExpNeg (2 * fixOf n e)
    let one := 2 ^ fixBits
    settle s ((one - t) * one / (one + t))

/-- The special functions. -/
inductive SpecialFn where | exp2 | log2 | rcp | rsq | sig | tanh
deriving DecidableEq, Repr

/-- The number of a function, as an argument of the free value. -/
def SpecialFn.code : SpecialFn → Nat
  | .exp2 => 0
  | .log2 => 1
  | .rcp => 2
  | .rsq => 3
  | .sig => 4
  | .tanh => 5

/-- The value of a function before Deliver, with the flags of the fixed results (R128). -/
def specialOf (fn : SpecialFn) (x : Exact) : Option Exact × Flags :=
  match x with
  | .nan => (some .nan, 0)
  | .inf s =>
    match fn with
    | .exp2 => (some (if s then .zero false else .inf false), 0)
    | .log2 => if s then (some .nan, fNV) else (some (.inf false), 0)
    | .rcp => (some (.zero s), 0)
    | .rsq => if s then (some .nan, fNV) else (some (.zero false), 0)
    | .sig => (some (if s then .zero false else exactOfInt 1), 0)
    | .tanh => (some (exactOfInt (if s then -1 else 1)), 0)
  | .zero s =>
    match fn with
    | .exp2 => (some (exactOfInt 1), 0)
    | .log2 => (some (.inf true), fOF)
    | .rcp => (some (.inf s), fOF)
    | .rsq => (some (.inf s), fOF)
    | .sig => (some (.fin false 1 (-1) false), 0)
    | .tanh => (some (.zero s), 0)
  | .fin s n e _ =>
    match fn with
    | .exp2 => (exp2Of s n e, 0)
    | .log2 => if s then (some .nan, fNV) else (log2Of n e, 0)
    | .rcp => (some (rcpOf s n e), 0)
    | .rsq => if s then (some .nan, fNV) else (some (rsqOf n e), 0)
    | .sig => (sigOf s n e, 0)
    | .tanh => (tanhOf s n e, 0)

/-- A special function of an element (R128). -/
def specialElem (fn : SpecialFn) (md : Modes) (f : FloatFmt) (ctr code : Nat) : Nat × Flags :=
  let (y, g) := specialOf fn (readFz md.fz f code)
  match y with
  | some v =>
    let (c, fl) := deliverFz md ctr f v
    (c, fl ||| g)
  | none => ((Config.special fn.code (dbl code)).toNat % 2 ^ (fmtInfo f).w, g)

/-- A special-function instruction: its result lands at issue + 8 (R114). -/
def slotSpecial (fn : SpecialFn) (e : FpFmt) (d a : VNum) (n : SReg) (m : VMod) (s : Device) : Except Ev Device := do
  let off ← s.srcS n
  let md := s.vmodes m
  landElems 8 (fpWidth e) d (s.vmask m) (fun i =>
    specialElem fn md (fpFloat e) (i + off.toNat) (velem (fpWidth e) (s.srcV a) i)) s

/-- VEXP2 (R128). -/
def slotVexp2 (e : FpFmt) (d a : VNum) (n : SReg) (m : VMod) : Device → Except Ev Device := slotSpecial .exp2 e d a n m
/-- VLOG2 (R128). -/
def slotVlog2 (e : FpFmt) (d a : VNum) (n : SReg) (m : VMod) : Device → Except Ev Device := slotSpecial .log2 e d a n m
/-- VRCP (R128). -/
def slotVrcp (e : FpFmt) (d a : VNum) (n : SReg) (m : VMod) : Device → Except Ev Device := slotSpecial .rcp e d a n m
/-- VRSQ (R128). -/
def slotVrsq (e : FpFmt) (d a : VNum) (n : SReg) (m : VMod) : Device → Except Ev Device := slotSpecial .rsq e d a n m
/-- VSIG (R128). -/
def slotVsig (e : FpFmt) (d a : VNum) (n : SReg) (m : VMod) : Device → Except Ev Device := slotSpecial .sig e d a n m
/-- VTANH (R128). -/
def slotVtanh (e : FpFmt) (d a : VNum) (n : SReg) (m : VMod) : Device → Except Ev Device := slotSpecial .tanh e d a n m

end Sys2Proof.Machine
end

