-- ==== Sys2Proof/Machine/Slots.lean ====
section
/-! DEFINITION. What the issue of a bundle needs to know of an instruction: the slot it is (none for a step of the device),
the scalar registers it names, and its class (R31, R42, R187, R387). -/

namespace Sys2Proof.Machine

/-- The meaning of an instruction as a slot of a bundle; none for the steps that are not slots. -/
def slotOf : Instr → Option (Device → Except Ev Device)
  | .add d a b => some (slotAdd d a b)
  | .sub d a b => some (slotSub d a b)
  | .and d a b => some (slotAnd d a b)
  | .or d a b => some (slotOr d a b)
  | .xor d a b => some (slotXor d a b)
  | .andn d a b => some (slotAndn d a b)
  | .shl d a b => some (slotShl d a b)
  | .shr d a b => some (slotShr d a b)
  | .sra d a b => some (slotSra d a b)
  | .rol d a b => some (slotRol d a b)
  | .min d a b => some (slotMin d a b)
  | .max d a b => some (slotMax d a b)
  | .minn d a b => some (slotMinn d a b)
  | .maxn d a b => some (slotMaxn d a b)
  | .clz d a => some (slotClz d a)
  | .ctz d a => some (slotCtz d a)
  | .popc d a => some (slotPopc d a)
  | .sext d a w => some (slotSext d a w)
  | .zext d a w => some (slotZext d a w)
  | .cmp c p a b => some (slotCmp c p a b)
  | .pand d a b => some (slotPand d a b)
  | .por d a b => some (slotPor d a b)
  | .pnot d a => some (slotPnot d a)
  | .sel d a b q => some (slotSel d a b q)
  | .nop => some (slotNop)
  | .mul d a b => some (slotMul d a b)
  | .mulh d a b => some (slotMulh d a b)
  | .mulhn d a b => some (slotMulhn d a b)
  | .div d a b => some (slotDiv d a b)
  | .divn d a b => some (slotDivn d a b)
  | .rem d a b => some (slotRem d a b)
  | .remn d a b => some (slotRemn d a b)
  | .addi d a i => some (slotAddi d a i)
  | .andi d a i => some (slotAndi d a i)
  | .ori d a i => some (slotOri d a i)
  | .xori d a i => some (slotXori d a i)
  | .shli d a n => some (slotShli d a n)
  | .shri d a n => some (slotShri d a n)
  | .srai d a n => some (slotSrai d a n)
  | .cmpi c p a i => some (slotCmpi c p a i)
  | .movi d i => some (slotMovi d i)
  | .lui d u => some (slotLui d u)
  | .addpc d u => some (slotAddpc d u)
  | .amov d a => some (slotAmov d a)
  | .aadd d a b => some (slotAadd d a b)
  | .ainc d a => some (slotAinc d a)
  | .amod d a => some (slotAmod d a)
  | .aget d a f => some (slotAget d a f)
  | .aaddi d a i => some (slotAaddi d a i)
  | .vadd e d a b m roff => some (slotVadd e d a b m roff)
  | .vsub e d a b m roff => some (slotVsub e d a b m roff)
  | .vmul e d a b m roff => some (slotVmul e d a b m roff)
  | .vfma e d a b m roff => some (slotVfma e d a b m roff)
  | .vfms e d a b m roff => some (slotVfms e d a b m roff)
  | .vmin e d a b m => some (slotVmin e d a b m)
  | .vmax e d a b m => some (slotVmax e d a b m)
  | .vcmp e c d a b m => some (slotVcmp e c d a b m)
  | .vabs e d a m => some (slotVabs e d a m)
  | .vneg e d a m => some (slotVneg e d a m)
  | .vsel e d a b m selm => some (slotVsel e d a b m selm)
  | .vrnd e d a n m => some (slotVrnd e d a n m)
  | .vexp2 e d a n m => some (slotVexp2 e d a n m)
  | .vlog2 e d a n m => some (slotVlog2 e d a n m)
  | .vrcp e d a n m => some (slotVrcp e d a n m)
  | .vrsq e d a n m => some (slotVrsq e d a n m)
  | .vsig e d a n m => some (slotVsig e d a n m)
  | .vtanh e d a n m => some (slotVtanh e d a n m)
  | .vredsum e d a n m acc => some (slotVredsum e d a n m acc)
  | .vredmax e d a m acc => some (slotVredmax e d a m acc)
  | .vredmin e d a m acc => some (slotVredmin e d a m acc)
  | .vcvtFp df sf d a n m => some (slotVcvtFp df sf d a n m)
  | .vcvtInt dir i f d a n m => some (slotVcvtInt dir i f d a n m)
  | .viadd e d a b m => some (slotViadd e d a b m)
  | .visub e d a b m => some (slotVisub e d a b m)
  | .vimul e d a b m => some (slotVimul e d a b m)
  | .vidot e d a b m => some (slotVidot e d a b m)
  | .vimin e d a b m => some (slotVimin e d a b m)
  | .vimax e d a b m => some (slotVimax e d a b m)
  | .vshl e d a b m imm amt => some (slotVshl e d a b m imm amt)
  | .vshr e d a b m imm amt => some (slotVshr e d a b m imm amt)
  | .vsra e d a b m imm amt => some (slotVsra e d a b m imm amt)
  | .vand e d a b m => some (slotVand e d a b m)
  | .vor e d a b m => some (slotVor e d a b m)
  | .vxor e d a b m => some (slotVxor e d a b m)
  | .vperm e d a b m => some (slotVperm e d a b m)
  | .vbcast e d a m scl idx => some (slotVbcast e d a m scl idx)
  | .vzip e d a b m => some (slotVzip e d a b m)
  | .vunzip e d a b m => some (slotVunzip e d a b m)
  | .vslide e d a b m sh => some (slotVslide e d a b m sh)
  | .viota e d a m => some (slotViota e d a m)
  | .vext e d a b m sgn => some (slotVext e d a b m sgn)
  | .vins e d a b m => some (slotVins e d a b m)
  | .vwidenX2 e d a m => some (slotVwidenX2 e d a m)
  | .vwidenX4 e d a m => some (slotVwidenX4 e d a m)
  | .vnarrowD2 e d a m => some (slotVnarrowD2 e d a m)
  | .vnarrowD4 e d a m => some (slotVnarrowD4 e d a m)
  | .vhusk d a b m hk msk wc p => some (slotVhusk d a b m hk msk wc p)
  | .vpack d a m pfmt res => some (slotVpack d a m pfmt res)
  | .vunpack d a m => some (slotVunpack d a m)
  | .vlaid d l n m adv w32 => some (slotVlaid d l n m adv w32)
  | .vqnt d a n m fout sin cbx kreg sb => some (slotVqnt d a n m fout sin cbx kreg sb)
  | .mand d a b m => some (slotMand d a b m)
  | .mor d a b m => some (slotMor d a b m)
  | .mnot d a m => some (slotMnot d a m)
  | .mpop d a m => some (slotMpop d a m)
  | .ttype t s => some (slotTtype t s)
  | .tgett d t r => some (slotTgett d t r)
  | .tbind v s => some (slotTbind v s)
  | .tbindU v u => some (slotTbindU v u)
  | .tfree t => some (slotTfree t)
  | .tfreeDv v => some (slotTfreeDv v)
  | .tresh d a s => some (slotTresh d a s)
  | .ttrans d a lt => some (slotTtrans d a lt)
  | .tcast d a f rnd sat re off => some (slotTcast d a f rnd sat re off)
  | .tzero d => some (slotTzero d)
  | .texp d a k out => some (slotTexp d a k out)
  | .tmov d a => some (slotTmov d a)
  | .lacq p => some (slotLacq p)
  | .lrel => some (slotLrel)
  | .pldb t mode b x noff k => some (slotPldb t mode b x noff k)
  | .pldbSp a b => some (slotPldbSp a b)
  | .plaid l b s adv => some (slotPlaid l b s adv)
  | .pmma c t b k => some (slotPmma c t b k)
  | .pmmz c t b k => some (slotPmmz c t b k)
  | .pclr c => some (slotPclr c)
  | .ptsc s off => some (slotPtsc s off)
  | .pdrn c dst cb s x => some (slotPdrn c dst cb s x)
  | .cbld q a o => some (slotCbld q a o)
  | .cbldPt a b ea eb => some (slotCbldPt a b ea eb)
  | .kld k a o => some (slotKld k a o)
  | .lwset l a o => some (slotLwset l a o)
  | .lwstep l s ab => some (slotLwstep l s ab)
  | .ltmma c a b z => some (slotLtmma c a b z)
  | .ltdrn c d s x => some (slotLtdrn c d s x)
  | .vtenc p l a => some (slotVtenc p l a)
  | .rep cnt per tstep astep => some (slotRep cnt per tstep astep)
  | .ldb r a o => some (slotLdb r a o)
  | .ldh r a o => some (slotLdh r a o)
  | .ldw r a o => some (slotLdw r a o)
  | .ldd r a o => some (slotLdd r a o)
  | .stb r a o => some (slotStb r a o)
  | .sth r a o => some (slotSth r a o)
  | .stw r a o => some (slotStw r a o)
  | .std r a o => some (slotStd r a o)
  | .vld r a o => some (slotVld r a o)
  | .vst r a o => some (slotVst r a o)
  | .tld r a o => some (slotTld r a o)
  | .tst r a o => some (slotTst r a o)
  | .flrd r a o => some (slotFlrd r a o)
  | .vlds v a s => some (slotVlds v a s)
  | .vsts v a s => some (slotVsts v a s)
  | .vgth v a i w => some (slotVgth v a i w)
  | .vsct v a i w => some (slotVsct v a i w)
  | .dkput l v seg => some (slotDkput l v seg)
  | .dkputSp l a => some (slotDkputSp l a)
  | .dktake l v seg => some (slotDktake l v seg)
  | .dktakeSp l a => some (slotDktakeSp l a)
  | .cpy a so dof => some (slotCpy a so dof)
  | .cpyu a so dof => some (slotCpyu a so dof)
  | .cpyw a so dof => some (slotCpyw a so dof)
  | .satom a d op w cis => some (slotSatom a d op w cis)
  | .gatom d a op w rt => some (slotGatom d a op w rt)
  | .fence k => some (slotFence k)
  | .binit a v => some (slotBinit a v)
  | .bsig a v sc c => some (slotBsig a v sc c)
  | .bwait a bare keep => some (slotBwait a bare keep)
  | .fsend v r s => some (slotFsend v r s)
  | .fred a => some (slotFred a)
  | .qcnt d q => some (slotQcnt d q)
  | .bxfm a op v cnt => some (slotBxfm a op v cnt)
  | .migr a => some (slotMigr a)
  | .jmp o => some (slotJmp o)
  | .call o => some (slotCall o)
  | .br s o => some (slotBr s o)
  | .brp inv p o => some (slotBrp inv p o)
  | .callr d a => some (slotCallr d a)
  | .ret a => some (slotRet a)
  | .loop cnt eo => some (slotLoop cnt eo)
  | .loops s eo => some (slotLoops s eo)
  | .lidx d dep pop => some (slotLidx d dep pop)
  | .waitt n => some (slotWaitt n)
  | .waittAbs s => some (slotWaittAbs s)
  | .bnd => some (slotBnd)
  | .exit => some (slotExit)
  | .launch d a p => some (slotLaunch d a p)
  | .graph d a p => some (slotGraph d a p)
  | .ccwait ge a b => some (slotCcwait ge a b)
  | .ccrd d a => some (slotCcrd d a)
  | .cancel a p => some (slotCancel a p)
  | .hsig s v => some (slotHsig s v)
  | .trap c => some (slotTrap c)
  | .brk c => some (slotBrk c)
  | .rth act => some (slotRth act)
  | .mfsr d sr => some (slotMfsr d sr)
  | .mtsr a sr => some (slotMtsr a sr)
  | .ctxsw p s inn => some (slotCtxsw p s inn)
  | .ctxst a s b => some (slotCtxst a s b)
  | .ctxld a s b => some (slotCtxld a s b)
  | .tlbinv sc s b => some (slotTlbinv sc s b)
  | .shoot a sc s b => some (slotShoot a sc s b)
  | .monrd d a => some (slotMonrd d a)
  | .attest a m b => some (slotAttest a m b)
  | .errpop d w pop => some (slotErrpop d w pop)
  | .haltc p s op => some (slotHaltc p s op)
  | .issueBundle _ => none
  | .earlyCommitResume _ => none
  | .holdEnd _ => none
  | .holdTimeout _ => none
  | .resultLanding _ => none
  | .repReissue _ => none
  | .leaseEnd _ => none
  | .commitEntryEnqueue _ => none
  | .reamAdvance _ => none
  | .commitSignalPhase _ => none
  | .commitCompletionPhase _ => none
  | .handlerIssueBundle _ => none
  | .timelinePosition _ => none
  | .drainStall _ _ => none
  | .webLineArrival _ => none
  | .untimedCopyLine _ => none
  | .untimedCopyComplete _ => none
  | .barrierSignalDelivery _ => none
  | .vtencService _ => none
  | .vtencComplete _ => none
  | .fredContributionArrival _ => none
  | .fredComplete _ => none
  | .fredTimeout _ => none
  | .fredHeldExpiry _ => none
  | .woveFrameReceive _ => none
  | .peerAccessRequest _ => none
  | .queueEntryEnter _ _ => none
  | .hostMessageQueueWrite _ _ => none
  | .cxlMemWrite _ _ _ => none
  | .cxlMemRead _ => none
  | .cxlUnsupportedRequest => none
  | .mgmtRegisterWrite _ _ => none
  | .jobPortWrite _ => none
  | .apfenceRead => none
  | .vatcfgWrite _ => none
  | .timelineWordWrite _ _ _ => none
  | .tlctlWrite _ _ => none
  | .asctlWrite _ _ _ => none
  | .measextWrite _ => none
  | .errptrHeadWrite _ => none
  | .requeueWrite _ => none
  | .haltctlReq _ => none
  | .haltctlGo _ => none
  | .haltctlStep _ => none
  | .dbgdataWrite _ => none
  | .clkctlWrite _ => none
  | .clockChangeComplete => none
  | .cfgctlCommit _ => none
  | .cfgCommitComplete => none
  | .seedctlRetry => none
  | .seedctlGenkey => none
  | .shootreqWrite _ => none
  | .spdmRequest _ => none
  | .graphAdmit => none
  | .vatPlacement _ => none
  | .vatReservation _ => none
  | .contextStreamComplete _ => none
  | .vatSwitchActive _ => none
  | .shootdownStart => none
  | .shootdownAck _ => none
  | .shootdownComplete => none
  | .migrPage _ => none
  | .migrComplete _ => none
  | .ctxImageComplete _ => none
  | .attestComplete => none
  | .monitorSample => none
  | .powerOnStart => none
  | .conventionalResetStart => none
  | .startTimeout => none
  | .woveLinkUp _ => none
  | .woveLinkDown _ => none
  | .powerLoss => none
  | .hostSnoop => none

/-- The scalar registers an instruction reads (R31, R122). -/
def scalarSources : Instr → List SReg
  | .add _ a b => [a, b]
  | .sub _ a b => [a, b]
  | .and _ a b => [a, b]
  | .or _ a b => [a, b]
  | .xor _ a b => [a, b]
  | .andn _ a b => [a, b]
  | .shl _ a b => [a, b]
  | .shr _ a b => [a, b]
  | .sra _ a b => [a, b]
  | .rol _ a b => [a, b]
  | .min _ a b => [a, b]
  | .max _ a b => [a, b]
  | .minn _ a b => [a, b]
  | .maxn _ a b => [a, b]
  | .clz _ a => [a]
  | .ctz _ a => [a]
  | .popc _ a => [a]
  | .sext _ a _ => [a]
  | .zext _ a _ => [a]
  | .cmp _ _ a b => [a, b]
  | .sel _ a b _ => [a, b]
  | .mul _ a b => [a, b]
  | .mulh _ a b => [a, b]
  | .mulhn _ a b => [a, b]
  | .div _ a b => [a, b]
  | .divn _ a b => [a, b]
  | .rem _ a b => [a, b]
  | .remn _ a b => [a, b]
  | .addi _ a _ => [a]
  | .andi _ a _ => [a]
  | .ori _ a _ => [a]
  | .xori _ a _ => [a]
  | .shli _ a _ => [a]
  | .shri _ a _ => [a]
  | .srai _ a _ => [a]
  | .cmpi _ _ a _ => [a]
  | .amov _ a => [a]
  | .aadd _ _ b => [b]
  | .ainc _ a => [a]
  | .amod _ a => [a]
  | .vrnd _ _ _ n _ => [n]
  | .vexp2 _ _ _ n _ => [n]
  | .vlog2 _ _ _ n _ => [n]
  | .vrcp _ _ _ n _ => [n]
  | .vrsq _ _ _ n _ => [n]
  | .vsig _ _ _ n _ => [n]
  | .vtanh _ _ _ n _ => [n]
  | .vredsum _ _ _ n _ _ => [n]
  | .vcvtFp _ _ _ _ n _ => [n]
  | .vcvtInt _ _ _ _ _ n _ => [n]
  | .vbcast _ _ a _ scl _ => if scl then [a] else []
  | .viota _ _ a _ => [a]
  | .vext _ _ _ b _ _ => [b]
  | .vins _ _ a b _ => [a, b]
  | .vhusk _ a b _ hk _ _ _ => if hk then [b] else [a, b]
  | .vlaid _ _ n _ _ _ => [n]
  | .vqnt _ _ n _ _ _ _ _ _ => [n]
  | .ttype _ s => [s]
  | .tbind _ s => [s]
  | .tresh _ _ s => [s]
  | .plaid _ _ s _ => [s]
  | .ptsc s _ => [s]
  | .pdrn _ _ _ s _ => [s]
  | .lwstep _ s _ => [s]
  | .ltdrn _ _ s _ => [s]
  | .stb r _ _ => [r]
  | .sth r _ _ => [r]
  | .stw r _ _ => [r]
  | .std r _ _ => [r]
  | .vlds _ _ s => [s]
  | .vsts _ _ s => [s]
  | .cpy _ so dof => [so, dof]
  | .cpyu _ so dof => [so, dof]
  | .cpyw _ so dof => [so, dof]
  | .satom _ d op _ _ => if op = .cas then [d, Fin.ofNat 64 (d.val + 1)] else [d]
  | .gatom d a op _ _ => if op = .cas then [a, d, Fin.ofNat 64 (d.val + 1)] else [a, d]
  | .binit _ v => [v]
  | .bsig _ v sc c => if c then [v, sc] else [v]
  | .fsend v _ s => if v then [s, Fin.ofNat 64 (s.val + 1)] else [s]
  | .bxfm _ op v _ => match op with
    | .fill => [v]
    | .scl2Fp32 => [v]
    | .scl2Bf16 => [v]
    | .addcFp32 => [v]
    | .addcI32 => [v]
    | _ => []
  | .br s _ => [s]
  | .callr _ a => [a]
  | .ret a => [a]
  | .loops s _ => [s]
  | .waittAbs s => [s]
  | .launch _ a _ => [a]
  | .graph _ a _ => [a]
  | .ccwait ge a b => if ge then [a, b] else [a]
  | .ccrd _ a => [a]
  | .cancel a _ => [a]
  | .hsig s _ => [s]
  | .mtsr a _ => [a]
  | .ctxsw _ s _ => [s]
  | .ctxst _ s b => [s, b]
  | .ctxld _ s b => [s, b]
  | .tlbinv _ s b => [s, b]
  | .shoot _ _ s b => [s, b]
  | .monrd _ a => [a]
  | .attest _ m b => [m, b]
  | .haltc _ s _ => [s]
  | _ => []

/-- The scalar register an instruction writes. -/
def scalarDest : Instr → Option SReg
  | .add d _ _ => some d
  | .sub d _ _ => some d
  | .and d _ _ => some d
  | .or d _ _ => some d
  | .xor d _ _ => some d
  | .andn d _ _ => some d
  | .shl d _ _ => some d
  | .shr d _ _ => some d
  | .sra d _ _ => some d
  | .rol d _ _ => some d
  | .min d _ _ => some d
  | .max d _ _ => some d
  | .minn d _ _ => some d
  | .maxn d _ _ => some d
  | .clz d _ => some d
  | .ctz d _ => some d
  | .popc d _ => some d
  | .sext d _ _ => some d
  | .zext d _ _ => some d
  | .sel d _ _ _ => some d
  | .mul d _ _ => some d
  | .mulh d _ _ => some d
  | .mulhn d _ _ => some d
  | .div d _ _ => some d
  | .divn d _ _ => some d
  | .rem d _ _ => some d
  | .remn d _ _ => some d
  | .addi d _ _ => some d
  | .andi d _ _ => some d
  | .ori d _ _ => some d
  | .xori d _ _ => some d
  | .shli d _ _ => some d
  | .shri d _ _ => some d
  | .srai d _ _ => some d
  | .movi d _ => some d
  | .lui d _ => some d
  | .addpc d _ => some d
  | .aget d _ _ => some d
  | .vext _ d _ _ _ _ => some d
  | .mpop d _ _ => some d
  | .tgett d _ _ => some d
  | .ldb r _ _ => some r
  | .ldh r _ _ => some r
  | .ldw r _ _ => some r
  | .ldd r _ _ => some r
  | .satom _ d _ _ _ => some d
  | .gatom d _ _ _ _ => some d
  | .qcnt d _ => some d
  | .callr d _ => some d
  | .lidx d _ _ => some d
  | .launch d _ _ => some d
  | .graph d _ _ => some d
  | .ccrd d _ => some d
  | .mfsr d _ => some d
  | .monrd d _ => some d
  | .errpop d _ _ => some d
  | _ => none

/-- Whether an instruction is of the memory class (R42). -/
def memoryClass : Instr → Bool
  | .ldb _ _ _ => true
  | .ldh _ _ _ => true
  | .ldw _ _ _ => true
  | .ldd _ _ _ => true
  | .stb _ _ _ => true
  | .sth _ _ _ => true
  | .stw _ _ _ => true
  | .std _ _ _ => true
  | .vld _ _ _ => true
  | .vst _ _ _ => true
  | .tld _ _ _ => true
  | .tst _ _ _ => true
  | .flrd _ _ _ => true
  | .vlds _ _ _ => true
  | .vsts _ _ _ => true
  | .vgth _ _ _ _ => true
  | .vsct _ _ _ _ => true
  | .dkput _ _ _ => true
  | .dkputSp _ _ => true
  | .dktake _ _ _ => true
  | .dktakeSp _ _ => true
  | .cpy _ _ _ => true
  | .cpyu _ _ _ => true
  | .cpyw _ _ _ => true
  | .satom _ _ _ _ _ => true
  | .gatom _ _ _ _ _ => true
  | .fence _ => true
  | .binit _ _ => true
  | .bsig _ _ _ _ => true
  | .bwait _ _ _ => true
  | .fsend _ _ _ => true
  | .fred _ => true
  | .qcnt _ _ => true
  | .bxfm _ _ _ _ => true
  | .migr _ => true
  | _ => false

/-- Whether an instruction is of the tile or press class (R42). -/
def tileClass : Instr → Bool
  | .lrel => true
  | .ttype _ _ => true
  | .tgett _ _ _ => true
  | .tbind _ _ => true
  | .tbindU _ _ => true
  | .tfree _ => true
  | .tfreeDv _ => true
  | .tresh _ _ _ => true
  | .ttrans _ _ _ => true
  | .tcast _ _ _ _ _ _ _ => true
  | .tzero _ => true
  | .texp _ _ _ _ => true
  | .tmov _ _ => true
  | .lacq _ => true
  | .pldb _ _ _ _ _ _ => true
  | .pldbSp _ _ => true
  | .plaid _ _ _ _ => true
  | .pmma _ _ _ _ => true
  | .pmmz _ _ _ _ => true
  | .pclr _ => true
  | .ptsc _ _ => true
  | .pdrn _ _ _ _ _ => true
  | .cbld _ _ _ => true
  | .cbldPt _ _ _ _ => true
  | .kld _ _ _ => true
  | .lwset _ _ _ => true
  | .lwstep _ _ _ => true
  | .ltmma _ _ _ _ => true
  | .ltdrn _ _ _ _ => true
  | .vtenc _ _ _ => true
  | _ => false

/-- Whether an instruction makes its bundle a wait point (R187). -/
def waitPoint : Instr → Bool
  | .bwait _ _ _ => true
  | .ccwait _ _ _ => true
  | _ => false

/-- Whether an instruction is BND (R191). -/
def boundary : Instr → Bool
  | .bnd => true
  | _ => false

/-- Whether the handler context may issue an instruction (R387). -/
def handlerMay : Instr → Bool
  | .nop => true
  | .add _ _ _ => true
  | .sub _ _ _ => true
  | .and _ _ _ => true
  | .or _ _ _ => true
  | .xor _ _ _ => true
  | .andn _ _ _ => true
  | .shl _ _ _ => true
  | .shr _ _ _ => true
  | .sra _ _ _ => true
  | .rol _ _ _ => true
  | .min _ _ _ => true
  | .max _ _ _ => true
  | .minn _ _ _ => true
  | .maxn _ _ _ => true
  | .clz _ _ => true
  | .ctz _ _ => true
  | .popc _ _ => true
  | .sext _ _ _ => true
  | .zext _ _ _ => true
  | .cmp _ _ _ _ => true
  | .pand _ _ _ => true
  | .por _ _ _ => true
  | .pnot _ _ => true
  | .sel _ _ _ _ => true
  | .mul _ _ _ => true
  | .mulh _ _ _ => true
  | .mulhn _ _ _ => true
  | .div _ _ _ => true
  | .divn _ _ _ => true
  | .rem _ _ _ => true
  | .remn _ _ _ => true
  | .addi _ _ _ => true
  | .andi _ _ _ => true
  | .ori _ _ _ => true
  | .xori _ _ _ => true
  | .shli _ _ _ => true
  | .shri _ _ _ => true
  | .srai _ _ _ => true
  | .cmpi _ _ _ _ => true
  | .movi _ _ => true
  | .lui _ _ => true
  | .addpc _ _ => true
  | .jmp _ => true
  | .br _ _ => true
  | .brp _ _ _ => true
  | .rth _ => true
  | .mfsr _ _ => true
  | .mtsr _ _ => true
  | .monrd _ _ => true
  | .errpop _ _ _ => true
  | _ => false

end Sys2Proof.Machine
end

