-- ==== Sys2Proof/Machine/Issue.lean ====
section
/-! DEFINITION. The issue of a bundle (R55 to R58, R187 to R189, R191, R201, R300, R305, R311): its slots run one after
another on a trial state, so that an event leaves nothing of the bundle behind (R56), and then its successor, its pops,
its occupancies and its charges are settled. -/

namespace Sys2Proof.Machine

/-! ## Bundles (R55 to R58, R338) -/

/-- A bundle as decoded. -/
structure Bundle where
  nslots : Nat
  template : Nat
  slots : List Slot
deriving DecidableEq, Repr

/-- A word for the record of a bundle-format fault: zero where the TLB does not give it (R56). -/
def Device.recordedWord (s : Device) (core asid va : Nat) : Nat :=
  match s.fetchWord core asid va with
  | .ok w => w
  | .error _ => 0

/-- A bundle-format fault (R56, R380). -/
def Device.formatEv (s : Device) (core asid pc code template cls : Nat) : Ev :=
  let two := fun i => s.recordedWord core asid (pc + 8 * i) + 2 ^ 32 * s.recordedWord core asid (pc + 8 * i + 4)
  { evOf 1 (code + cls * 16) (two 0) (two 1) (two 2) (two 3) with aux := template }

/-- An illegal-instruction trap (R57, R380). -/
def illegalEv (b : Illegal) (template : Nat) : Ev := { evOf 2 b.reason b.word 0 0 0 with aux := template, slot := b.ix }

/-- A fetch event (R338, R380). -/
def fetchEvOf (f : FetchEv) : Ev := evOf f.code f.reason f.va (if f.code = 17 then 0 else f.level) 0 0

/-- The bundle at an address, or the event its fetch or decoding raises. -/
def Device.bundleAt (s : Device) (core asid pc : Nat) : Except Ev Bundle :=
  match s.fetchBundle core asid pc with
  | .error f => .error (fetchEvOf f)
  | .ok (.bad code template cls) => .error (s.formatEv core asid pc code template cls)
  | .ok (.bundle n template raw) =>
    match decodeSlots raw with
    | .error b => .error (illegalEv b template)
    | .ok slots => .ok { nslots := n, template := template, slots := slots }

/-! ## Slots to run -/

/-- A slot to run: its index, its instruction and meaning, and its bundle's address. -/
structure Run where
  ix : Nat
  instr : Instr
  act : Device → Except Ev Device
  pc : Nat

/-- Whether an instruction is NOP, which belongs to no class and does nothing (R42). -/
def isNop : Instr → Bool
  | .nop => true
  | _ => false

/-- The slots of a bundle that do something. -/
def runsOf (pc : Nat) (l : List Slot) : List Run :=
  (l.filter (fun y => !isNop y.instr)).filterMap (fun y =>
    match slotOf y.instr with
    | some f => some { ix := y.ix, instr := y.instr, act := f, pc := pc }
    | none => none)

/-- The queues that some instructions name as sources (R31). -/
def namedQueues (l : List Instr) : Vector Bool 4 :=
  Vector.ofFn (fun q => l.any (fun i => (scalarSources i).any (fun r => r.val == 60 + q.val)))

/-- The issue of a bundle of the context of sheet `l` on a core, at the sheet's tick. -/
def beginIssue (l core nslots template : Nat) (s : Device) : Device :=
  { s with issue := { Issue.idle with core := core, l := l, pc := (s.ctx l core).live.pc, tick := (s.launch l).tick,
                                      nslots := nslots, template := template } }

/-- The issue with what its instructions need to know of one another: the entries the bundle sees, the memory slots, and
the tile or press slot, which is the one that the issue already names where none of the slots is such. -/
def seeSlots (runs : List Run) (s : Device) : Device :=
  let named := namedQueues (runs.map (fun r => r.instr))
  let queues := s.cur.queues
  { s with issue := { s.issue with
      q := Vector.ofFn (fun i => if named[i] then (queues[i]).head? else none)
      memIx := (runs.filter (fun r => memoryClass r.instr)).map (fun r => r.ix)
      cmd := ((runs.find? (fun r => tileClass r.instr)).map (fun r => (r.instr, r.ix))).or s.issue.cmd } }

/-- Some slots run one after another. Where several raise an event, that of the lowest code is raised, and of these that
of the lowest slot: which it is does not depend on the order of the slots (R41). -/
def runSlots : List Run → Device → Except Ev Device
  | [], s => .ok s
  | r :: t, s =>
    let u := { s with issue := { s.issue with slot := r.ix, pc := r.pc } }
    match r.act u with
    | .ok v => runSlots t v
    | .error e =>
      match runSlots t u with
      | .ok _ => .error e
      | .error f => .error (if f.code < e.code then f else e)

/-- The type words that the results landing at issue + 1 install. -/
def Device.installs (s : Device) : List Nat :=
  ((s.live.flights.filter (fun f => f.issued == s.issue.tick)).map (fun f =>
    match f.op with
    | .regs ws _ _ => ws.filterMap (fun x => match x with | .ttype _ w _ => some w.toNat | _ => none)
    | _ => [])).flatten

/-- The slots of a bundle run on a trial state. Where there are several, they run with every type word that any of them
installs known to all (R145). -/
def runBundle (runs : List Run) (s : Device) : Except Ev Device :=
  match runs with
  | _ :: _ :: _ => do
    let t ← runSlots runs (seeSlots runs s)
    let u := seeSlots runs s
    runSlots runs { u with issue := { u.issue with types := t.installs } }
  | _ => runSlots runs (seeSlots runs s)

/-! ## Repeats (R175) -/

/-- Whether a repeat reissues at a tick. -/
def Rep.dueAt (r : Rep) (t : Nat) : Bool := decide (r.done < r.cnt) && r.issued + r.per * (r.done + 1) == t

/-- The reissues of a context due at a tick. -/
def Live.dueReps (v : Live) (t : Nat) : List Rep := v.reps.filter (fun r => r.dueAt t)

/-- The reissue of a repeat as a slot: its address registers are stepped after it. -/
def Rep.run (r : Rep) : Option Run :=
  let i := r.command (r.done + 1)
  match slotOf i with
  | none => none
  | some f =>
    some { ix := r.slot, instr := i, pc := r.pc, act := fun s => do
      let s ← f s
      stepAddrs (repAddrs i) s }

/-- A bundle due together with a reissue must hold no tile or press slot and no REP (R175). -/
def checkRepeats (due : List Rep) (runs : List Run) (s : Device) : Except Ev Unit :=
  let clash := runs.any (fun r => tileClass r.instr || (match r.instr with
    | .rep _ _ _ _ => true
    | _ => false))
  if due.isEmpty || (!clash && due.length ≤ 1) then .ok () else .error (s.schedule 5 0 s.issue.tick)

/-- The repeats after a tick at which a command of `lines` felt lines issued. -/
def Live.stepReps (v : Live) (t lines : Nat) : Live :=
  { v with reps := (v.reps.map (fun r =>
      if r.dueAt t then { r with done := r.done + 1, dlines := r.dlines + lines }
      else if r.issued = t ∧ r.done = 0 then { r with dlines := lines } else r)).filter (fun r => decide (r.done < r.cnt)) }

/-! ## The checks of a whole bundle -/

/-- The check of R191: BND in the bundle of a ream's last tick and in no other. -/
def checkBoundary (runs : List Run) (s : Device) : Except Ev Unit :=
  let last := (s.issue.tick + 1) % s.curLaunch.ream == 0
  let bnd := runs.find? (fun r => boundary r.instr)
  if last == bnd.isSome then .ok ()
  else .error { s.schedule 8 0 s.issue.tick with slot := match bnd with
    | some r => r.ix
    | none => 0 }

/-- Whether two occupancies meet on a bank-tick. -/
def BankRes.meets (a b : BankRes) : Bool := a.sp == b.sp && a.bank == b.bank && decide (a.lo ≤ b.hi) && decide (b.lo ≤ a.hi)

/-- A requester descriptor (R380). -/
def BankRes.descriptor (a : BankRes) : Nat := a.issued * 2 ^ 16 + a.code * 2 ^ 10 + a.core

/-- The bank-tick occupancies that the contexts of a sheet have planned. -/
def Device.bankPlans (s : Device) (l : Nat) : List BankRes :=
  ((s.ctxs.filter (fun p => p.1 / 640 == l)).map (fun p => p.2.live.banks)).flatten

/-- The first bank conflict of the occupancies of a bundle with those planned and with one another (R201). -/
def findConflict (planned : List BankRes) : List (Nat × BankRes) → Option (Nat × BankRes × BankRes)
  | [] => none
  | (slot, u) :: t =>
    match planned.find? (fun p => p.meets u) with
    | some p => some (slot, p, u)
    | none => findConflict (planned ++ [u]) t

/-- The bank conflict of R201. -/
def checkBanks (s : Device) : Except Ev Unit :=
  match findConflict (s.bankPlans s.issue.l) s.issue.uses with
  | none => .ok ()
  | some (slot, p, u) =>
    .error { s.ev 5 0 (u.bank + Nat.max p.lo u.lo * 2 ^ 8) p.descriptor p.pc u.descriptor with slot := slot }

/-- The store-budget exception of R300. -/
def checkBudget (s : Device) : Except Ev Unit :=
  match s.issue.overAt with
  | none => .ok ()
  | some slot =>
    let reason := if s.curLaunch.oversize then 3 else if s.issue.charge > s.live.budget then 1 else 2
    .error { s.ev 19 reason s.issue.charge s.live.budget s.live.effects 0 with slot := slot }

/-- The slots of a bundle with a due reissue, and every check, on a trial state. -/
def trial (due : List Rep) (runs : List Run) (s : Device) : Except Ev Device := do
  checkBoundary runs s
  checkRepeats due runs s
  let again := due.filterMap Rep.run
  let pc := s.issue.pc
  let s ← runBundle (runs ++ again) s
  let s := { s with issue := { s.issue with pc := pc } }
  checkBanks s
  checkBudget s
  .ok s

/-! ## The successor (R305, R311) -/

/-- The loop rule of R311 for a bundle at `pc`, over the entries from the top down: the entries left and the successor. -/
def loopStep (pc fall : Nat) : List LoopEntry → List LoopEntry × Nat
  | [] => ([], fall)
  | e :: t =>
    if e.stop ≠ pc then (e :: t, fall)
    else if e.left > 1 then ({ e with left := e.left - 1, ix := e.ix + 1 } :: t, e.start)
    else loopStep pc fall t

/-- The loop stack after a bundle, and its successor with the ticks until it issues; EXIT leaves the stack as it is. -/
def successor (i : Issue) (fall : Nat) (loops : List LoopEntry) : List LoopEntry × Nat × Nat :=
  let pushed := match i.push with
    | some e => loops ++ [e]
    | none => loops
  let (after, next) := match i.target with
    | some t => (pushed, t)
    | none =>
      let (r, a) := loopStep i.pc fall pushed.reverse
      (if i.exits then pushed else r.reverse, (a, i.waitt.getD 1))
  (if i.pop then after.dropLast else after, next)

/-! ## Settling an issue -/

/-- The queues after the pops of a bundle (R31, R385). -/
def Ctx.pop (c : Ctx) (q : Vector (Option Dbl) 4) : Ctx :=
  { c with
    queues := Vector.ofFn (fun i => if q[i].isSome then c.queues[i].drop 1 else c.queues[i])
    popped := Vector.ofFn (fun i => match q[i] with
      | some v => c.popped[i] ++ [v]
      | none => c.popped[i]) }

/-- The live part of a context after an issue at tick `t`: occupancies, charges, repeats. -/
def Live.settle (v : Live) (i : Issue) : Live :=
  let v := v.stepReps i.tick i.lines
  { v with
    banks := (v.banks.filter (fun b => decide (i.tick ≤ b.hi))) ++ i.uses.map (fun u => u.2)
    press := v.press.filter (fun p => decide (i.tick ≤ p.hi))
    budget := v.budget - i.charge
    effects := v.effects - i.effects }

/-- The lease of an exiting core ends as by LREL (R298, R315). -/
def exitLease (s : Device) : Device :=
  let x := s.curSheaf.lease
  if x.held s.place s.issue.tick then s.setLease (x.release s.issue.tick) else s

/-- The issuing context after an issue that succeeded: its successor, pops, occupancies and charges settled; `old` is the
state before it. -/
def closedCtx (old s : Device) : Ctx :=
  let i := s.issue
  let c := (s.cur).pop i.q
  let v := c.live.settle i
  let (loops, pc, n) := successor i s.fallThrough v.regs.loops
  let dirty := if loops = v.regs.loops then c.dirty else c.dirty ||| BitVec.ofNat 41 (2 ^ 38)
  let v := { v with
    regs := { v.regs with loops := loops }
    pc := pc
    next := i.tick + n
    exited := i.exits
    reps := if i.exits then [] else v.reps }
  let late := match i.late with
    | some e => [{ ev := e, pc := i.pc, record := none }]
    | none => []
  let before := some (i.tick, old.live, Vector.ofFn (fun q => old.cur.popped[q].length))
  { c with live := v, dirty := dirty, pending := c.pending ++ late, before := before }

/-- An issue that succeeded, closed: `old` is the state before it. -/
def closeIssue (old s : Device) : Device :=
  let t := s.setCur (closedCtx old s)
  { (if s.issue.exits then exitLease t else t) with issue := Issue.idle }

/-- An issue that succeeded: closed, and then what it has scheduled for its own tick happens (R9). A flag set there comes
after the bundle of its tick, so an enabled one traps before the next (R113; DESIGN CHOICE, log 145). -/
def settleIssue (old s : Device) : Device := landCore s.issue.l s.issue.core s.issue.tick (closeIssue old s)

/-- The repeats due at a tick cancelled. -/
def cancelReps (l core t : Nat) (s : Device) : Device :=
  let c := s.ctx l core
  s.setCtx l core { c with live := { c.live with reps := c.live.reps.filter (fun r => !r.dueAt t) } }

/-- What the page tables' lines say of themselves is reported when an event comes of a walk: no TLB entry translates its
address (R278). -/
def noteEvent (core asid : Nat) (e : Ev) (s : Device) : Device :=
  if (e.code = 16 ∨ e.code = 17 ∨ e.code = 15 ∧ e.reason ≤ 4) ∧ (s.tlb core).any (fun t => t.hits asid e.i0) = false then
    noteWalk asid e.i0 s
  else s

/-- An issue that raised an event: nothing of the bundle remains, and a reissue due with it is cancelled (R56, R175). -/
def refuseIssue (e : Ev) (s : Device) : Device :=
  let i := s.issue
  let s := noteEvent i.core (s.launch i.l).asid e { s with issue := Issue.idle }
  takeEvent i.l i.core i.pc e (cancelReps i.l i.core i.tick s)

/-- The issue of the slots of a bundle. -/
def issueRuns (runs : List Run) (s : Device) : Device :=
  match trial (s.live.dueReps s.issue.tick) runs s with
  | .ok t => settleIssue s t
  | .error e => refuseIssue e s

/-! ## Reissues in empty ticks (R175) -/

/-- A reissue that succeeded, with no bundle beside it; `old` is the state before it. -/
def settleReissue (old s : Device) : Device :=
  let i := s.issue
  let c := (s.cur).pop i.q
  let before := some (i.tick, old.live, Vector.ofFn (fun q => old.cur.popped[q].length))
  landCore i.l i.core i.tick { s.setCur { c with live := c.live.settle i, before := before } with issue := Issue.idle }

/-- The reissues of a context due at the sheet's tick, on a trial state. -/
def trialReissue (due : List Rep) (s : Device) : Except Ev Device := do
  checkRepeats due [] s
  let again := due.filterMap Rep.run
  let s ← runSlots again (seeSlots again s)
  checkBanks s
  .ok s

/-- REP_REISSUE (R175) at a tick at which the core issues no bundle. -/
def repReissue (core : Nat) (s : Device) : Device :=
  match (s.sheaf (core / 4)).active with
  | none => s
  | some l =>
    let x := s.launch l
    let c := s.ctx l core
    let due := c.live.dueReps x.tick
    if x.st = .active ∧ x.mode = .run ∧ c.present = true ∧ c.live.exited = false ∧ c.live.next ≠ x.tick ∧ due ≠ [] then
      let s := beginIssue l core 0 0 s
      match trialReissue due s with
      | .ok t => settleReissue s t
      | .error e => refuseIssue e s
    else s

/-! ## Wait points (R187 to R189) -/

/-- Whether the condition of a wait point's instruction holds; an address that would fault lets the bundle issue and
raise its fault. -/
def Device.conditionHolds (s : Device) : Instr → Bool
  | .bwait a bare _ =>
    bare || (match s.spAddr (s.srcA a).addr.toNat 8 8 with
      | .ok pa =>
        let b := s.barrier (spKey s.issue.core pa)
        decide (b.2 ≤ b.1)
      | .error _ => true)
  | .ccwait ge a b =>
    match s.srcS a, s.srcS b with
    | .ok x, .ok y =>
      let v := s.counter (x.toNat % 2 ^ 32)
      bitAt v 63 || (ge && decide (y.toNat % 2 ^ 32 ≤ v % 2 ^ 32))
    | .ok x, .error _ => !ge && bitAt (s.counter (x.toNat % 2 ^ 32)) 63
    | .error _, _ => false
  | _ => true

/-- Whether every condition of a wait-point bundle holds (R187). -/
def Device.bundleReady (s : Device) (l core : Nat) (b : Bundle) : Bool :=
  let runs := runsOf 0 b.slots
  let s := seeSlots runs (beginIssue l core b.nslots b.template s)
  let named := namedQueues (runs.map (fun r => r.instr))
  (List.finRange 4).all (fun i => !named[i] || s.issue.q[i].isSome) && runs.all (fun r => s.conditionHolds r.instr)

/-- Whether a bundle is a wait point. -/
def Bundle.waits (b : Bundle) : Bool := b.slots.any (fun y => waitPoint y.instr)

/-- What the bundles of a sheet's tick make of it (R188, R189). -/
inductive TickCheck where
  /-- Some bundle does not pass fetch and R55 to R58: no mismatch is raised. -/
  | broken
  | mismatch
  | hold
  | pass
deriving DecidableEq, Repr

/-- The bundles of the cores due at a sheet's tick; none for a core in an empty tick. -/
def Device.tickBundles (s : Device) (l : Nat) : List (Nat × Option (Except Ev Bundle)) :=
  let x := s.launch l
  ((x.cores.filter (fun core => !(s.ctx l core).live.exited)).map (fun core =>
    let c := s.ctx l core
    (core, if c.live.next = x.tick then some (s.bundleAt core x.asid c.live.pc) else none)))

/-- Whether a core's bundle is a wait point. -/
def waitsHere : Option (Except Ev Bundle) → Bool
  | some (.ok b) => b.waits
  | _ => false

/-- Whether a core's bundle raises a fetch event, a bundle-format fault or an illegal-instruction trap. -/
def brokenHere : Option (Except Ev Bundle) → Bool
  | some (.error _) => true
  | _ => false

/-- The check of a sheet's tick. -/
def Device.sheetCheck (s : Device) (l : Nat) : TickCheck :=
  let bs := s.tickBundles l
  if bs.any (fun p => brokenHere p.2) then .broken
  else if bs.all (fun p => !waitsHere p.2) then .pass
  else if bs.all (fun p => waitsHere p.2) = false then .mismatch
  else if bs.all (fun p => match p.2 with
      | some (.ok b) => s.bundleReady l p.1 b
      | _ => true) then .pass
  else .hold

/-- The report of a wait-point mismatch by some cores. -/
def reportMismatch (l : Nat) : List Nat → Device → Device
  | [], s => s
  | core :: t, s =>
    let x := s.launch l
    let c := s.ctx l core
    if c.live.exited then reportMismatch l t s
    else
      let e := evOf 3 7 0 x.tick 0 0
      reportMismatch l t (s.record e (x.place l core c.live.pc) { cls := 4, ends := true, replay := false }).1

/-- The wait-point mismatch of R188: every core reports it, and the launch ends. -/
def mismatch (l : Nat) (s : Device) : Device := faultLaunch l (reportMismatch l (s.launch l).cores s)

/-! ## ISSUE_BUNDLE (R55) -/

/-- The number of words that the fetch of a bundle reads; those of a bundle-format fault's record are eight. -/
def Device.wordsAt (s : Device) (core asid pc : Nat) : Nat :=
  match s.fetchBundle core asid pc with
  | .error f => (f.va - pc) / 4
  | .ok (.bad _ _ _) => 8
  | .ok (.bundle n _ _) => n

/-- The words of a bundle read: the TLB entries that translate them are used (R340), and what their lines say of themselves
is reported (R278). -/
def readWords (core asid pc : Nat) (s : Device) : Device :=
  let vas := (rangeFrom 0 (s.wordsAt core asid pc)).map (fun i => pc + 4 * i)
  let locs := vas.filterMap (fun va => match s.translate core asid va rightsX with
    | .ok g => if paTarget g.pa = 0 then some (dramMap (g.pa / 64 * 64) g.im g.sw) else none
    | .error _ => none)
  noteLines (distinct [] locs) (vas.foldl (fun s va => s.touchTlb core asid va) s)

/-- The bundle of a core at the sheet's tick, fetched, decoded and issued. -/
def issueCore (l core : Nat) (s : Device) : Device :=
  let x := s.launch l
  let pc := (s.ctx l core).live.pc
  let s := readWords core x.asid pc s
  match s.bundleAt core x.asid pc with
  | .error e => refuseIssue e (beginIssue l core 4 0 s)
  | .ok b => issueRuns (runsOf pc b.slots) (beginIssue l core b.nslots b.template s)

/-- The sheet with its tick begun to issue. -/
def beginTick (l : Nat) (passed : Bool) (s : Device) : Device :=
  let x := s.launch l
  s.setLaunch l { x with ticked := true, issuedAt := s.mill, checked := if passed then x.tick + 1 else x.checked }

/-- Whether a core of a sheet may issue its bundle now: the bundles of one tick issue together, and none while the sheet
stops after that (R190). -/
def Device.mayIssue (s : Device) (l core : Nat) : Bool :=
  let x := s.launch l
  let c := s.ctx l core
  x.st == .active && (x.mode == .run || (x.mode == .stop && x.ticked && x.issuedAt == s.mill)) && c.present && !c.live.exited && c.handler.isNone &&
    c.pending.isEmpty && c.live.next == x.tick

/-- Whether the bundle of a core at the sheet's tick is a wait point. -/
def Device.atWait (s : Device) (l core : Nat) : Bool :=
  match s.bundleAt core (s.launch l).asid (s.ctx l core).live.pc with
  | .ok b => b.waits
  | .error _ => false

/-- A sheet held from now on (R189). -/
def enterHold (l : Nat) (s : Device) : Device :=
  let x := s.launch l
  seeCounters l x.cores (s.setLaunch l { x with mode := .hold s.mill })

/-- The event of a bundle that could not be fetched: neither a bundle-format fault nor an illegal instruction. -/
def fetchFails : Option (Except Ev Bundle) → Option Ev
  | some (.error e) => if e.code = 1 ∨ e.code = 2 then none else some e
  | _ => none

/-- ISSUE_BUNDLE: the first core to issue at a sheet tick makes the check of R188 for its sheet. A bundle that could not be
fetched raises its event before any bundle of the tick issues (R308, DEDUCED, log 7). -/
def issueBundle (core : Nat) (s : Device) : Device :=
  match (s.sheaf (core / 4)).active with
  | none => s
  | some l =>
    if s.mayIssue l core = false then s
    else
      let x := s.launch l
      if x.checked = x.tick + 1 then issueCore l core (beginTick l false s)
      else
        match s.sheetCheck l with
        | .broken =>
          match (s.tickBundles l).findSome? (fun p => (fetchFails p.2).map (fun e => (p.1, e))) with
          | some (k, e) => refuseIssue e (beginIssue l k 4 0 (readWords k x.asid (s.ctx l k).live.pc s))
          | none =>
            let s := beginTick l false s
            if s.atWait l core then s else issueCore l core s
        | .mismatch => mismatch l s
        | .hold => enterHold l s
        | .pass => issueCore l core (beginTick l true s)

/-- HOLD_END (R189): at the first mill tick at which every condition holds, the bundles of the held tick issue. -/
def holdEnd (l : Nat) (s : Device) : Device :=
  let x := s.launch l
  match x.mode with
  | .hold _ =>
    if x.st = .active ∧ s.sheetCheck l ≠ .hold then s.setLaunch l { x with mode := .run } else s
  | _ => s

end Sys2Proof.Machine
end

