-- ==== Sys2Proof/Machine/Handler.lean ====
section
/-! DEFINITION. The handler context (R387): its bundles, one per mill tick, and the faults of its own; and the issue of a
bundle that holds one given instruction, from which each slot instruction takes its meaning. -/

namespace Sys2Proof.Machine

/-! ## Results of the handler (R387) -/

/-- The handler's writes of a context that are due by a mill tick. -/
def Ctx.landHandler (c : Ctx) (mill : Nat) : Ctx :=
  let due := c.hfly.filter (fun p => decide (p.1 ≤ mill))
  { c with hfly := c.hfly.filter (fun p => !decide (p.1 ≤ mill)) }.writes (due.map (fun (p : Nat × RegWrite) => p.2))

/-- The handler's writes due now, in every context of a list. -/
def landHandlers : List (Nat × Ctx) → Device → Device
  | [], s => s
  | (key, _) :: t, s =>
    let c := s.ctxAt key
    landHandlers t (if c.hfly.any (fun p => decide (p.1 ≤ s.mill)) then s.setCtxAt key (c.landHandler s.mill) else s)

/-! ## What a handler bundle may hold (R387) -/

/-- The scalar registers that an instruction names. -/
def scalarFields (i : Instr) : List SReg := scalarSources i ++ (scalarDest i).toList

/-- The check of a slot: an instruction the handler may not issue gives the privilege fault's code, a scalar field beyond
hs15 that of an illegal slot. -/
def handlerSlot (r : Run) : Except Ev Unit :=
  if handlerMay r.instr = false then .error { evOf 21 0 0 0 0 0 with slot := r.ix }
  else if (scalarFields r.instr).any (fun x => decide (16 ≤ x.val)) then .error { evOf 2 2 0 0 0 0 with slot := r.ix }
  else .ok ()

/-- The checks of some slots, in slot order. -/
def handlerSlots : List Run → Except Ev Unit
  | [] => .ok ()
  | r :: t => do
    handlerSlot r
    handlerSlots t

/-! ## The issue of a handler bundle -/

/-- The handler fault for an event of the handler's own (R380, code 32): RTH's own comes as it stands. -/
def handlerFault (pc : Nat) (e : Ev) : Ev :=
  if e.code = 32 then e else { evOf 32 e.code pc 0 0 0 with slot := e.slot }

/-- The issue of a handler bundle of a context begun, at the present mill tick. -/
def beginHandler (l core pc nslots template : Nat) (s : Device) : Device :=
  let s := beginIssue l core nslots template s
  { s with issue := { s.issue with pc := pc, handler := true } }

/-- A handler bundle that succeeded: the handler goes on at the bundle it has chosen (R387). -/
def settleHandler (s : Device) : Device :=
  let i := s.issue
  let s' := { s with issue := Issue.idle }
  match s.cur.handler with
  | none => s'
  | some h =>
    let next := match i.target with
      | some (a, _) => a
      | none => s.fallThrough
    s'.setCtx i.l i.core { s.cur with handler := some { h with pc := next, next := s.mill + 1 } }

/-- A handler bundle that raised an event of its own: the launch ends. -/
def refuseHandler (e : Ev) (s : Device) : Device :=
  let i := s.issue
  takeEvent i.l i.core i.pc (handlerFault i.pc e) (noteEvent i.core (s.launch i.l).asid e { s with issue := Issue.idle })

/-- The slots of a handler bundle. -/
def handlerRuns (runs : List Run) (s : Device) : Device :=
  match (do
    handlerSlots runs
    runSlots runs s) with
  | .ok t => settleHandler { t with issue := { t.issue with pc := s.issue.pc } }
  | .error e => refuseHandler e s

/-- HANDLER_ISSUE_BUNDLE (R387): the bundle of the handler that runs on a core. -/
def handlerIssueBundle (core : Nat) (s : Device) : Device :=
  match (s.sheaf (core / 4)).active with
  | none => s
  | some l =>
    match (s.ctx l core).handler with
    | none => s
    | some h =>
      if s.mill < h.next ∨ h.outcome.isSome then s
      else
        let asid := (s.launch l).asid
        let s := readWords core asid h.pc s
        match s.bundleAt core asid h.pc with
        | .error e => refuseHandler e (beginHandler l core h.pc 4 0 s)
        | .ok b => handlerRuns (runsOf h.pc b.slots) (beginHandler l core h.pc b.nslots b.template s)

/-! ## One instruction -/

/-- The slots of the bundle whose one slot that does anything is an instruction. -/
def oneRun (i : Instr) (f : Device → Except Ev Device) (slot pc : Nat) : List Run :=
  if isNop i then [] else [{ ix := slot, instr := i, act := f, pc := pc }]

/-- The issue begun of the bundle that the issue in the state describes: its command, where another slot of the bundle
holds one for REP to repeat (R175), is kept. -/
def beginOne (d : Device) : Device :=
  let x := d.issue
  let s := beginIssue x.l x.core x.nslots x.template d
  { s with issue := { s.issue with cmd := x.cmd } }

/-- Whether an instruction is a wait point whose condition does not hold for the context that issues (R187). -/
def Device.mustHold (s : Device) (i : Instr) : Bool :=
  let x := s.issue
  let y : Slot := { ix := x.slot, instr := i }
  waitPoint i && !s.bundleReady x.l x.core { nslots := x.nslots, template := x.template, slots := [y] }

/-- The next state that differs in its module alone. -/
def State.on (s : State) (d : Device) : Host.Outcome State Fault Refusal := .next { s with dev := d }

/-- The bundle whose one slot that does anything is an instruction, issued by the context that issues in the state: the
program's, or its handler's. A wait point whose condition does not hold begins a hold. -/
def issueOne (i : Instr) (f : Device → Except Ev Device) (s : State) : Host.Outcome State Fault Refusal :=
  let d := s.dev
  let x := d.issue
  if d.cur.present = false then .fault .noContext
  else if x.handler then
    s.on (handlerRuns (oneRun i f x.slot x.pc) (beginHandler x.l x.core x.pc x.nslots x.template d))
  else if d.mustHold i then s.on (enterHold x.l d)
  else s.on (issueRuns (oneRun i f x.slot d.live.pc) (beginOne d))

end Sys2Proof.Machine
end

