-- ==== Sys2Proof/Machine/ExecControl.lean ====
section
/-! DEFINITION. The meanings of the control and system instructions (R304 to R326, R391 to R400): each is the issue of a bundle whose one slot
that does anything is the instruction. -/

namespace Sys2Proof.Machine

/-- JMP (R307). -/
def execJmp (o : BitVec 24) (s : State) : Host.Outcome State Fault Refusal :=
  issueOne (.jmp o) (slotJmp o) s

/-- CALL (R307). -/
def execCall (o : BitVec 24) (s : State) : Host.Outcome State Fault Refusal :=
  issueOne (.call o) (slotCall o) s

/-- BR (R307). -/
def execBr (r : SReg) (o : BitVec 18) (s : State) : Host.Outcome State Fault Refusal :=
  issueOne (.br r o) (slotBr r o) s

/-- BRP (R307). -/
def execBrp (inv : Bool) (p : PNum) (o : BitVec 18) (s : State) : Host.Outcome State Fault Refusal :=
  issueOne (.brp inv p o) (slotBrp inv p o) s

/-- CALLR (R308). -/
def execCallr (d a : SReg) (s : State) : Host.Outcome State Fault Refusal :=
  issueOne (.callr d a) (slotCallr d a) s

/-- RET (R308). -/
def execRet (a : SReg) (s : State) : Host.Outcome State Fault Refusal :=
  issueOne (.ret a) (slotRet a) s

/-- LOOP (R310). -/
def execLoop (cnt : BitVec 10) (eo : BitVec 8) (s : State) : Host.Outcome State Fault Refusal :=
  issueOne (.loop cnt eo) (slotLoop cnt eo) s

/-- LOOPS (R310). -/
def execLoops (r : SReg) (eo : BitVec 8) (s : State) : Host.Outcome State Fault Refusal :=
  issueOne (.loops r eo) (slotLoops r eo) s

/-- LIDX (R312). -/
def execLidx (d : SReg) (dep : BitVec 3) (pop : Bool) (s : State) : Host.Outcome State Fault Refusal :=
  issueOne (.lidx d dep pop) (slotLidx d dep pop) s

/-- WAITT (R313). -/
def execWaitt (n : BitVec 17) (s : State) : Host.Outcome State Fault Refusal :=
  issueOne (.waitt n) (slotWaitt n) s

/-- WAITT_ABS (R313). -/
def execWaittAbs (r : SReg) (s : State) : Host.Outcome State Fault Refusal :=
  issueOne (.waittAbs r) (slotWaittAbs r) s

/-- BND (R315). -/
def execBnd (s : State) : Host.Outcome State Fault Refusal :=
  issueOne .bnd slotBnd s

/-- EXIT (R315). -/
def execExit (s : State) : Host.Outcome State Fault Refusal :=
  issueOne .exit slotExit s

/-- LAUNCH (R318). -/
def execLaunch (d a : SReg) (p : PNum) (s : State) : Host.Outcome State Fault Refusal :=
  issueOne (.launch d a p) (slotLaunch d a p) s

/-- GRAPH (R318). -/
def execGraph (d a : SReg) (p : PNum) (s : State) : Host.Outcome State Fault Refusal :=
  issueOne (.graph d a p) (slotGraph d a p) s

/-- CCWAIT (R320). -/
def execCcwait (ge : Bool) (a b : SReg) (s : State) : Host.Outcome State Fault Refusal :=
  issueOne (.ccwait ge a b) (slotCcwait ge a b) s

/-- CCRD (R321). -/
def execCcrd (d a : SReg) (s : State) : Host.Outcome State Fault Refusal :=
  issueOne (.ccrd d a) (slotCcrd d a) s

/-- CANCEL (R322). -/
def execCancel (a : SReg) (p : PNum) (s : State) : Host.Outcome State Fault Refusal :=
  issueOne (.cancel a p) (slotCancel a p) s

/-- HSIG (R323). -/
def execHsig (r : SReg) (v : BitVec 6) (s : State) : Host.Outcome State Fault Refusal :=
  issueOne (.hsig r v) (slotHsig r v) s

/-- TRAP (R324). -/
def execTrap (c : BitVec 12) (s : State) : Host.Outcome State Fault Refusal :=
  issueOne (.trap c) (slotTrap c) s

/-- BRK (R324). -/
def execBrk (c : BitVec 12) (s : State) : Host.Outcome State Fault Refusal :=
  issueOne (.brk c) (slotBrk c) s

/-- RTH (R393). -/
def execRth (act : BitVec 3) (s : State) : Host.Outcome State Fault Refusal :=
  issueOne (.rth act) (slotRth act) s

/-- MFSR (R392). -/
def execMfsr (d : SReg) (sr : BitVec 8) (s : State) : Host.Outcome State Fault Refusal :=
  issueOne (.mfsr d sr) (slotMfsr d sr) s

/-- MTSR (R392). -/
def execMtsr (a : SReg) (sr : BitVec 8) (s : State) : Host.Outcome State Fault Refusal :=
  issueOne (.mtsr a sr) (slotMtsr a sr) s

/-- CTXSW (R395). -/
def execCtxsw (p : PNum) (r : SReg) (inn : Bool) (s : State) : Host.Outcome State Fault Refusal :=
  issueOne (.ctxsw p r inn) (slotCtxsw p r inn) s

/-- CTXST (R396). -/
def execCtxst (a : ANum) (r b : SReg) (s : State) : Host.Outcome State Fault Refusal :=
  issueOne (.ctxst a r b) (slotCtxst a r b) s

/-- CTXLD (R396). -/
def execCtxld (a : ANum) (r b : SReg) (s : State) : Host.Outcome State Fault Refusal :=
  issueOne (.ctxld a r b) (slotCtxld a r b) s

/-- TLBINV (R397). -/
def execTlbinv (sc : Scope) (r b : SReg) (s : State) : Host.Outcome State Fault Refusal :=
  issueOne (.tlbinv sc r b) (slotTlbinv sc r b) s

/-- SHOOT (R398). -/
def execShoot (a : ANum) (sc : Scope) (r b : SReg) (s : State) : Host.Outcome State Fault Refusal :=
  issueOne (.shoot a sc r b) (slotShoot a sc r b) s

/-- MONRD (R394). -/
def execMonrd (d a : SReg) (s : State) : Host.Outcome State Fault Refusal :=
  issueOne (.monrd d a) (slotMonrd d a) s

/-- ATTEST (R399). -/
def execAttest (a : ANum) (m b : SReg) (s : State) : Host.Outcome State Fault Refusal :=
  issueOne (.attest a m b) (slotAttest a m b) s

/-- ERRPOP (R394). -/
def execErrpop (d : SReg) (w : BitVec 3) (pop : Bool) (s : State) : Host.Outcome State Fault Refusal :=
  issueOne (.errpop d w pop) (slotErrpop d w pop) s

/-- HALTC (R395). -/
def execHaltc (p : PNum) (r : SReg) (op : HaltOp) (s : State) : Host.Outcome State Fault Refusal :=
  issueOne (.haltc p r op) (slotHaltc p r op) s

end Sys2Proof.Machine
end

