-- ==== Sys2Proof/Machine/Vat.lean ====
section
/-! DEFINITION. The vat: priorities and pre-emption (R289, R290, R293), records and submission (R282 to R285, R318), and
cancels (R288). -/

namespace Sys2Proof.Machine

/-! ## Bounds (R289) and priorities (R290) -/

/-- The hold limit in mill ticks. -/
def Device.holdLimit (s : Device) : Nat := 2 ^ bitField s.vatcfg.toNat 48 8
/-- The time slice in sheet ticks. -/
def Device.quantum (s : Device) : Nat := 2 ^ bitField s.vatcfg.toNat 40 8
/-- The reservation threshold in mill ticks. -/
def Device.reserveAfter (s : Device) : Nat := 2 ^ bitField s.vatcfg.toNat 32 8
/-- The ageing step in mill ticks. -/
def Device.ageStep (s : Device) : Nat := 2 ^ bitField s.vatcfg.toNat 24 8

/-- PRIO. -/
def Launch.prio (x : Launch) : Nat := x.field 285 3

/-- EP (R290). -/
def Device.priority (s : Device) (l : Nat) : Nat :=
  let x := s.launch l
  if x.st = .active then x.prio else Nat.min 7 (x.prio + (s.mill - x.since) / s.ageStep)

/-- Whether a launch comes before another in the order of R290. -/
def Device.precedes (s : Device) (l m : Nat) : Bool :=
  let p := s.priority l
  let q := s.priority m
  let a := (s.launch l).since
  let b := (s.launch m).since
  decide (p > q) || (p == q && (decide (a < b) || (a == b && decide (l < m))))

/-- A launch slot in its place in a list in that order. -/
def Device.insertByPriority (s : Device) (l : Nat) : List Nat → List Nat
  | [] => [l]
  | m :: t => if s.precedes l m then l :: m :: t else m :: s.insertByPriority l t

/-- The launch slots that satisfy a test, in the order of R290. -/
def Device.byPriority (s : Device) (p : Launch → Bool) : List Nat :=
  ((s.launches.filter (fun (x : Nat × Launch) => p x.2)).map (fun x => x.1)).foldr s.insertByPriority []

/-- Whether two launches share a sheaf. -/
def Launch.meets (x y : Launch) : Bool := x.sheaves.any (fun g => y.sheaves.contains g)

/-! ## Pre-emption (R293, R383, R395) -/

/-- Whether a resident sheet may be chosen: in SHADOW, not parked, and what an abort left it waiting for has come. -/
def Launch.choosable (x : Launch) : Bool := x.st == .shadow && !x.park && x.need.isNone && x.streaming == .idle

/-- Whether a context image command copies a sheet, which stays as it is until the command ends (DESIGN CHOICE, log 130). -/
def Device.imaging (s : Device) (l : Nat) : Bool :=
  s.images.any (fun p => match p.2 with
    | some i => i.l == l && i.banks.isSome
    | none => false)

/-- Whether a reservation of another launch holds one of the sheaves of launch `l`. -/
def Device.reservedAgainst (s : Device) (l : Nat) : Bool := s.reservations.any (fun r => r != l && (s.launch r).meets (s.launch l))

/-- Whether a sheet at its boundary is pre-empted (R293, R395). -/
def Device.preempts (s : Device) (l : Nat) : Bool :=
  let x := s.launch l
  x.park || s.reservedAgainst l ||
    s.launches.any (fun (p : Nat × Launch) =>
      p.1 != l && p.2.choosable && !s.imaging p.1 && p.2.meets x &&
        (decide (s.priority p.1 > s.priority l) || (s.priority p.1 == s.priority l && decide (x.ran ≥ s.quantum))))

/-- A sheet that stands at a ream boundary pre-empted: in SHADOW, at its checkpoint. -/
def preempt (l : Nat) (s : Device) : Device :=
  let x := s.launch l
  s.setLaunch l
    { x with st := .shadow, mode := .parked, tick := x.restart, checked := x.restart, ticked := false, since := s.mill, switchAt := s.mill }

/-! ## Reading records (R282 to R285) -/

/-- Up to `n` bytes of one line at a virtual address, as the vat reads them; none where it cannot. -/
def vatChunk (asid va n : Nat) (s : Device) : Option (List Byte) × Device :=
  let s := noteWalk asid va s
  match s.walk asid va with
  | .error _ => (none, s)
  | .ok f =>
    let w0 := f.word0.toNat
    let g := leafAddr w0 f.bits va
    if rightsR.allowed w0 = false ∨ leafRes w0 = false ∨ paTarget g.pa = 2 then (none, s)
    else if paTarget g.pa = 0 then
      match readLine (dramMap g.pa g.im g.sw) s with
      | (some l, s) => (some (((lineBytes l).drop (g.pa % 64)).take n), s)
      | (none, s) => (none, s)
    else (some (Memory.readBytes s.hostMem (g.pa % 2 ^ 44) n), s)

/-- `n` bytes at a virtual address, over at most `fuel` lines. -/
def vatLines (asid : Nat) : Nat → Nat → Nat → Device → Option (List Byte) × Device
  | 0, _, _, s => (some [], s)
  | fuel + 1, va, n, s =>
    let m := Nat.min n (64 - va % 64)
    match vatChunk asid va m s with
    | (none, s) => (none, s)
    | (some b, s) =>
      if n ≤ m then (some b, s)
      else
        match vatLines asid fuel (va48 (va + m)) (n - m) s with
        | (some r, s) => (some (b ++ r), s)
        | (none, s) => (none, s)

/-- `n` bytes at a virtual address of an address space. -/
def vatRead (asid va n : Nat) (s : Device) : Option (List Byte) × Device := vatLines asid (n / 64 + 2) va n s

/-- The checks of a launch record (R284); `x` is a launch with the record and its index in its graph. -/
def Launch.recordOk (x : Launch) : Bool :=
  let ns := x.field 288 8
  let sp := x.field 255 6
  let ac := x.field 247 8
  let rv := x.field 262 2
  x.field 0 199 == 0 && x.field 199 48 % 64 == 0 && decide (1 ≤ ac) && decide (ac ≤ 128) && decide (1 ≤ sp) && decide (sp ≤ 32) &&
    (rv == 1 || rv == 2) && x.sbd != 3 && decide (1 ≤ ns) && decide (x.sheaf0 + ns ≤ 160) && x.field 304 64 / 2 ^ x.index == 0 &&
    x.field 368 48 % 65536 == 0

/-! ## Submission (R292, R318) -/

/-- A launch entered with its record, and whether the record passes. -/
def enterLaunch (l g index asid va : Nat) (msg : Option (Nat × Word)) (b : Option (List Byte)) (s : Device) : Bool × Device :=
  let r : BitVec 512 := match b with
    | some bytes => BitVec.ofNat 512 (ofBytes bytes)
    | none => 0
  let x := { Launch.free with
    st := .wait, gen := (s.launch l).gen, graph := g, index := index, asid := asid, record := r, recVa := va, msg := msg, since := s.mill }
  let ok := b.isSome && x.recordOk
  let x := if ok then { x with units := List.replicate x.ncores (0, false, false, false) } else { x with record := 0 }
  (ok, s.setLaunch l x)

/-- A record that fails a check reported (R284). -/
def refuseRecord (reason va : Nat) (s : Device) : Device := s.deviceEvent (evOf 30 reason va 0 0 0)

/-- The launches of a graph entered: pairs of a slot and a record's address; the slots whose records fail. -/
def enterRecords (g asid : Nat) (msg : Option (Nat × Word)) (index : Nat) : List (Nat × Nat) → Device → List Nat × Device
  | [], s => ([], s)
  | (l, va) :: t, s =>
    let (b, s) := vatRead asid va 64 s
    let (ok, s) := enterLaunch l g index asid va msg b s
    let s := if ok then s else refuseRecord 1 va s
    let (bad, s) := enterRecords g asid msg (index + 1) t s
    (if ok then bad else l :: bad, s)

/-- Launches that finish with ERR, unplaced. -/
def failLaunches : List Nat → Device → Device
  | [], s => s
  | l :: t, s => failLaunches t (finishLaunch l false true s)

/-- The launches of a graph entered, those with bad records finished, and what follows of it. -/
def enterGraph (g asid : Nat) (msg : Option (Nat × Word)) (recs : List (Nat × Nat)) (s : Device) : Device :=
  let s := s.setGraph g { s.graph g with launches := recs.map (fun p => p.1), pending := none }
  let (bad, s) := enterRecords g asid msg 0 recs s
  wakeLaunches 1024 (failLaunches bad s)

/-- The message an accepted request asks for (R317, R319). -/
def requestMessage (req key h : Nat) : Option (Nat × Word) := if bitAt req 52 then some (key, word h) else none

/-- Whether a graph may still be submitted for a phase of a job (R283). -/
def Job.takes (j : Job) (ph : Nat) : Bool :=
  decide (ph < j.nph) && !(match j.phases[ph]? with
    | some p => p.fin
    | none => true)

/-- A graph that fails its check finishes with FIN and ERR. -/
def failGraph (g va : Nat) (s : Device) : Device :=
  let s := refuseRecord 2 va s
  let x := { s.graph g with err := true, pending := none, launches := [] }
  wakeLaunches 1024 (sendMessage x.msg x.can true (finishGraph g (s.setGraph g x)))

/-- An accepted LAUNCH submitted (R318). -/
def submitLaunch (key asid l g req : Nat) (s : Device) : Device :=
  let va := bitField req 0 48
  let ph := bitField req 48 4
  let x := s.graph g
  let s := s.setGraph g { x with phase := ph }
  let msg := requestMessage req key (handleOf 1 l (s.launch l).gen)
  if (s.job x.job).takes ph then enterGraph g asid msg [(l, va)] s
  else
    let (_, s) := enterLaunch l g 0 asid va msg none (s.setGraph g { s.graph g with launches := [l] })
    wakeLaunches 1024 (failLaunches [l] (refuseRecord 2 va s))

/-- An accepted GRAPH submitted: its header is checked, and the graph waits for its launch slots (R285, R318). -/
def submitGraph (key asid g req : Nat) (s : Device) : Device :=
  let va := bitField req 0 48
  let (b, s) := vatRead asid va 64 s
  let h := ofBytes (b.getD [])
  let nl := bitField h 0 7
  let ph := bitField h 12 4
  let x := s.graph g
  let x := { x with phase := ph, msg := requestMessage req key (handleOf 2 g x.gen) }
  let ok := b.isSome && bitField h 16 496 == 0 && bitField h 7 5 == 0 && decide (1 ≤ nl) && decide (nl ≤ 64) && (s.job x.job).takes ph
  if ok then { s.setGraph g { x with pending := some nl } with admissions := s.admissions ++ [(1, g, va)] }
  else failGraph g va (s.setGraph g x)

/-! ## Admission (R318) -/

/-- `n` free launch slots taken, in the order of a graph's launches. -/
def takeSlots (g : Nat) : Nat → Device → List Nat × Device
  | 0, s => ([], s)
  | n + 1, s =>
    match s.choose s.freeLaunches with
    | (none, s) => ([], s)
    | (some l, s) =>
      let s := s.setLaunch l { Launch.free with st := .held, gen := (s.launch l).gen + 1, graph := g }
      let (r, s) := takeSlots g n s
      (l :: r, s)

/-- Whether the graph at the head of the admission queue has the slots it needs. -/
def Device.canAdmit (s : Device) : Bool :=
  match s.admissions with
  | [] => false
  | (0, _, _) :: _ => !s.freeGraphs.isEmpty && !s.freeLaunches.isEmpty
  | (_, g, _) :: _ => decide (((s.graph g).pending.getD 0) ≤ s.freeLaunches.length)

/-- GRAPH_ADMIT (R318): the graph at the head of the admission queue takes its slots, and its records are read; a job's
root launch enters as a graph of one launch (R282). -/
def graphAdmit (s : Device) : Device :=
  if s.canAdmit = false then s
  else
    match s.admissions with
    | [] => s
    | (0, j, va) :: t =>
      let s := { s with admissions := t }
      let (g, s) := s.choose s.freeGraphs
      let g := g.getD 0
      let s := s.setGraph g { Graph.free with used := true, gen := (s.graph g).gen + 1, job := j }
      let s := s.setJob j { s.job j with root := g }
      let (ls, s) := takeSlots g 1 s
      enterGraph g (s.job j).asid none (ls.map (fun l => (l, va))) s
    | (_, g, va) :: t =>
      let s := { s with admissions := t }
      let n := (s.graph g).pending.getD 0
      let (ls, s) := takeSlots g n s
      let recs := (ls.zip (rangeFrom 1 n)).map (fun p => (p.1, va48 (va + 64 * p.2)))
      enterGraph g (s.job (s.graph g).job).asid none recs s

/-! ## Jobs (R282, R283) -/

/-- The checks of a job record (R283). -/
def Job.recordOk (j : Job) : Bool :=
  decide (1 ≤ j.nph) && decide (j.nph ≤ 16) && j.field 256 147 == 0 && j.field 416 48 % 8 == 0 && j.field 464 48 % 64 == 0

/-- JOB_PORT_WRITE (R282): a job slot is taken, and the root launch waits for its slots; else the write is refused. The
port is open once a start has completed (R407). -/
def jobPortWrite (v : Nat) (s : Device) : Device :=
  let at_ := bitField v 6 42 * 64
  let (line, s) := if inDevice at_ then readLine (dramMap at_ 0 0) s else (none, s)
  let (slot, s) := s.choose s.freeJobs
  let r := line.getD 0
  let j := slot.getD 0
  let x : Job :=
    { used := true, gen := (s.job j).gen + 1, record := r, asid := bitField r.toNat 408 8, root := 512, rootDone := false,
      phases := [], count := 0, fin := false, can := false, err := false }
  let ok := bitAt s.startstat.toNat 63 && slot.isSome && line.isSome && bitField v 0 6 == 0 && bitField v 48 16 == 0 && x.recordOk
  if ok then
    let x := { x with phases := List.replicate x.nph { count := 0, fin := false, can := false, err := false, stop := false } }
    let s := s.setJob j x
    let s := { s with admissions := s.admissions ++ [(0, j, bitField r.toNat 464 48)], accepted := (s.accepted + 1) % 65536 }
    wakeLaunches 1024 (settleJob j s)
  else refuseRecord 4 at_ { s with refused := (s.refused + 1) % 65536 }

/-! ## Cancels (R288, R322) -/

/-- The commits with the last of a launch's changed. -/
def mapLast (l : Nat) (f : Commit → Commit) : List Commit → List Commit
  | [] => []
  | c :: t => if c.l = l ∧ t.all (fun d => d.l != l) = true then f c :: t else c :: mapLast l f t

/-- A launch cancelled (R288). One whose ream has committed ends with that commit, or at once where that commit has taken effect. -/
def cancelLaunch (l : Nat) (s : Device) : Device :=
  let x := s.launch l
  if x.fin then s
  else
    match x.st with
    | .free => s
    | .held => s
    | .done => { s with commits := mapLast l (fun c => { c with can := true }) s.commits }
    | .wait => completeLaunch l true false s
    | .ready => completeLaunch l true false s
    | .rsvd => completeLaunch l true false s
    | .out => endLaunch l true false s
    | .shadow => endLaunch l true false s
    | .active =>
      match x.mode with
      | .run => s.setLaunch l { x with cancel := true }
      | .early _ => s.setLaunch l { x with cancel := true }
      | .commit =>
        if s.committing l then { s with commits := mapLast l (fun c => { c with last := true, can := true }) s.commits }
        else completeLaunch l true false s
      | _ => endLaunch l true false s

/-- Some launches cancelled. -/
def cancelLaunches : List Nat → Device → Device
  | [], s => s
  | l :: t, s => cancelLaunches t (cancelLaunch l s)

/-- A graph cancelled: one that waits for its slots finishes at once. -/
def cancelGraph (g : Nat) (s : Device) : Device :=
  let x := s.graph g
  if x.used = false ∨ x.fin = true then s
  else if x.pending.isSome then
    let s := { s with admissions := s.admissions.filter (fun a => !(a.1 == 1 && a.2.1 == g)) }
    let x := { x with can := true, pending := none }
    wakeLaunches 1024 (sendMessage x.msg true x.err (finishGraph g (s.setGraph g x)))
  else cancelLaunches x.launches s

/-- Some graphs cancelled. -/
def cancelGraphs : List Nat → Device → Device
  | [], s => s
  | g :: t, s => cancelGraphs t (cancelGraph g s)

/-- The graph slots of a job that satisfy a test. -/
def Device.graphsOf (s : Device) (j : Nat) (p : Nat → Graph → Bool) : List Nat :=
  (s.graphs.filter (fun (x : Nat × Graph) => x.2.used && x.2.job == j && p x.1 x.2)).map (fun x => x.1)

/-- A phase marked as cancelled. -/
def Phase.cancelled (p : Phase) : Phase := if p.fin then p else { p with can := true, stop := true }

/-- A job cancelled, its root launch included. -/
def cancelJob (j : Nat) (s : Device) : Device :=
  let x := s.job j
  let waits := s.admissions.any (fun a => a.1 == 0 && a.2.1 == j)
  let s := { s with admissions := s.admissions.filter (fun a => !(a.1 == 0 && a.2.1 == j)) }
  let s := s.setJob j { x with can := true, rootDone := x.rootDone || waits, phases := x.phases.map Phase.cancelled }
  wakeLaunches 1024 (settleJob j (cancelGraphs (s.graphsOf j (fun _ _ => true)) s))

/-- A phase of a job cancelled. -/
def cancelPhase (j ph : Nat) (s : Device) : Device :=
  let x := s.job j
  match x.phases[ph]? with
  | none => s
  | some p =>
    if p.fin then s
    else
      let s := s.setJob j { x with phases := x.phases.set ph p.cancelled }
      wakeLaunches 1024 (settleJob j (cancelGraphs (s.graphsOf j (fun g y => y.phase == ph && g != x.root)) s))

/-- A unit cancelled: its core exits at its sheet's next boundary (R288), and its launch's counter shows it (R286). -/
def cancelUnit (l u : Nat) (s : Device) : Device :=
  let x := s.launch l
  match x.units[u]? with
  | some (n, fin, can, err) => s.setLaunch l { x with can := x.can || !fin, units := x.units.set u (n, fin, can || !fin, err) }
  | none => s

/-- The cancel of the item that a handle names; a stale handle is reported (R322). -/
def cancelItem (h : Nat) (s : Device) : Device :=
  let i := bitField h 20 9
  if s.stale h then refuseRecord 3 0 s
  else
    match bitField h 29 3 with
    | 0 => cancelUnit i (bitField h 0 10) s
    | 1 => cancelLaunch i s
    | 2 => cancelGraph i s
    | 3 => cancelPhase i (bitField h 10 4) s
    | _ => if (s.job i).fin then s else cancelJob i s

end Sys2Proof.Machine
end

