-- ==== Sys2Proof/Machine/Reseat.lean ====
section
/-! DEFINITION. What refers to a place in a sheet's partitions when the sheet takes other partitions (R295, R329): its results in
flight, its buffered effects, and the records and barriers of commands in progress. -/

namespace Sys2Proof.Machine

/-- A scratchpad key within a partition of a sheet seated as in `x`, where the sheet is seated as in `y`; any other key stays. -/
def moveKey (x y : Launch) (k : Nat) : Nat :=
  let core := k / spBytes
  let a := spKey core (x.seat core).spBase
  if x.hasCore core = true ∧ a ≤ k ∧ k < a + x.spSize then k - a + spKey core (y.seat core).spBase else k

/-- An accumulator slot's key likewise. -/
def moveSlot (x y : Launch) (k : Nat) : Nat :=
  let core := k / 128
  let a := accKey core (x.seat core).accBase
  if x.hasCore core = true ∧ a ≤ k ∧ k < a + x.accn then k - a + accKey core (y.seat core).accBase else k

/-- How a load or command completes, its keys moved. -/
def Finish.moved (f : Nat → Nat) : Finish → Finish
  | .scalar d a n => .scalar d (f a) n
  | .vector d l => .vector d (l.map f)
  | .gather d w l => .gather d w (l.map f)
  | .tile d pair l len six pack => .tile d pair (l.map f) len six pack
  | .codebook q a => .codebook q (f a)
  | .scale q a => .scale q (f a)
  | .window q a => .window q (f a)
  | .bufRegion b typ k n tag l len sc slen => .bufRegion b typ k n tag (l.map f) len (sc.map f) slen
  | x => x

/-- The action of an entry, its scratchpad keys and slots moved. -/
def FlyOp.moved (f g : Nat → Nat) : FlyOp → FlyOp
  | .capture t l => .capture t (l.map (fun p => (f p.1, p.2)))
  | .finish x => .finish (x.moved f)
  | .store a b => .store (f a) b
  | .header a w => .header (f a) w
  | .satom t op a n v c => .satom t op (f a) n v c
  | .signal a v => .signal (f a) v
  | .crossSignal key a v => .crossSignal key (f a) v
  | .consume a => .consume (f a)
  | .put lane st d a => .put lane st d (f a)
  | .takeSp lane st a => .takeSp lane st (f a)
  | .beat op l v => .beat op (l.map f) v
  | .streamRow b acc r z src a at_ len sAt sLen ca cb => .streamRow b (g acc) r z src a (f at_) len (f sAt) sLen ca cb
  | .accRow acc r z buf a ca cb => .accRow (g acc) r z buf a ca cb
  | .accMark acc w k => .accMark (g acc) w k
  | .drain d acc n row m lines scales => .drain d (g acc) n row m (lines.map f) (scales.map f)
  | .clear acc => .clear (g acc)
  | .storeFlags a b fl => .storeFlags (f a) b fl
  | .fredData e a n => .fredData e (f a) n
  | .nonce a m b => .nonce (f a) m (f b)
  | x => x

/-- Whether an entry's capture is addressed by scratchpad keys: a deckle value is not. -/
def FlyOp.keyed : FlyOp → Bool
  | .finish (.segment _ _) => false
  | _ => true

/-- An entry in flight, its keys and slots moved. -/
def Flight.moved (f g : Nat → Nat) (x : Flight) : Flight :=
  { x with
    op := x.op.moved f g
    buf := if x.op.keyed then x.buf.foldl (fun m c => Memory.write m (f c.1) c.2) [] else x.buf }

/-- A buffered effect that a launch other than `l` has made, the barrier of `l` that it signals moved. -/
def Effect.retarget (l : Nat) (f : Nat → Nat) : Effect → Effect
  | .signal key a v => .signal key (if key / 640 = l then f a else a) v
  | x => x

/-- A buffered effect of launch `l`, its keys moved. -/
def Effect.moved (l : Nat) (f : Nat → Nat) : Effect → Effect
  | .write spec md lines b => .write (if spec.fromSp then { spec with src := f spec.src } else spec) md lines b
  | .signal key a v => .signal key (if key / 640 = l then f a else a) v
  | .fred a bits d => .fred (f a) bits d
  | .image load l va a => .image load l va (f a)
  | .shoot sc asid page bar => .shoot sc asid page (f bar)
  | x => x

/-- What a context holds, its keys and slots moved. -/
def Live.moved (l : Nat) (f g : Nat → Nat) (v : Live) : Live :=
  { v with flights := v.flights.map (Flight.moved f g), store := v.store.map (fun b => { b with eff := b.eff.moved l f }) }

/-- What a context of another launch holds, the barriers of `l` that it signals moved. -/
def Live.retarget (l : Nat) (f : Nat → Nat) (v : Live) : Live :=
  { v with store := v.store.map (fun b => { b with eff := b.eff.retarget l f }) }

/-- An address of a core's scratchpad moved. -/
def moveOn (f : Nat → Nat) (core a : Nat) : Nat := f (spKey core a) - spKey core 0

/-- A command of a Viterbi engine, its addresses moved. -/
def VtCmd.moved (f : Nat → Nat) (c : VtCmd) : VtCmd :=
  let g := moveOn f (c.key % 640)
  { c with res := g c.res, bar := g c.bar, tgt := g c.tgt, got := [] }

/-- A signal under way, its keys moved. -/
def Signal.moved (f : Nat → Nat) (g : Signal) : Signal :=
  { g with at_ := f g.at_, data := g.data.map (fun p => (f p.1, p.2)), header := g.header.map (fun h => (f h.1, h.2)) }

/-- The values of some numbered commands changed where they are of a launch. -/
def mapMine {α : Type} (mine : α → Bool) (h : α → α) (l : Assoc (Option α)) : Assoc (Option α) :=
  l.map (fun p => (p.1, p.2.map (fun x => if mine x then h x else x)))

/-- Everything that refers to a place in the partitions of a launch's sheet, which was seated as in `x` and is seated as in
`y`. -/
def reseat (l : Nat) (x y : Launch) (s : Device) : Device :=
  let f := moveKey x y
  let g := moveSlot x y
  let own := fun (key : Nat) => key / 640 == l
  let bar := fun (p : Nat × Nat) => if own p.1 then (p.1, f p.2) else p
  { s with
    ctxs := s.ctxs.map (fun (p : Nat × Ctx) => if own p.1 then
      (p.1, { p.2 with live := p.2.live.moved l f g, ckpt := p.2.ckpt.moved l f g })
      else (p.1, { p.2 with live := p.2.live.retarget l f, ckpt := p.2.ckpt.retarget l f }))
    commits := s.commits.map (fun c => { c with signals := c.signals.map (fun (p : Nat × Effect) =>
      (p.1, if c.l = l then p.2.moved l f else p.2.retarget l f)) })
    ucopies := mapMine (fun (u : UCopy) => own u.key) (fun u => { u with bar := f u.bar }) s.ucopies
    signals := mapMine (fun (z : Signal) => own z.key) (Signal.moved f) s.signals
    vtQueues := s.vtQueues.map (fun p => (p.1, p.2.map (fun c => if own c.key then c.moved f else c)))
    vtBusy := mapMine (fun (b : VtBusy) => own b.cmd.key) (fun b => { b with cmd := b.cmd.moved f }) s.vtBusy
    freds := mapMine (fun (z : Fred) => own z.key) (fun z => { z with at_ := f z.at_ }) s.freds
    migrs := mapMine (fun (z : Migr) => own z.key) (fun z => { z with at_ := f z.at_, bar := f z.bar }) s.migrs
    images := mapMine (fun (z : Image) => own z.key) (fun z => { z with at_ := f z.at_ }) s.images
    attests := s.attests.map (fun z => if own z.key then { z with at_ := f z.at_, bar := f z.bar } else z)
    shootQ := s.shootQ.map (fun z => { z with bar := z.bar.map bar })
    shootNow := s.shootNow.map (fun z => { z with req := { z.req with bar := z.req.bar.map bar } }) }

/-- A side of an untimed copy that lies in a context which has been streamed out is lost for the copy, whether or not the
context returns (R343). -/
def loseSide (l : Nat) (p : Option (Nat × Nat)) : Option (Nat × Nat) :=
  p.map (fun q => if q.1 / 640 = l then (2 ^ 40 + q.1, q.2) else q)

/-- The untimed copies that reach into a sheet's partitions lose them. -/
def loseSides (l : Nat) (s : Device) : Device :=
  { s with ucopies := s.ucopies.map (fun p => (p.1, p.2.map (fun u => { u with srcCtx := loseSide l u.srcCtx, dstCtx := loseSide l u.dstCtx }))) }

end Sys2Proof.Machine
end

