-- ==== Sys2Proof/Machine/Engine.lean ====
section
/-! DEFINITION. What untimed engines do to global memory (R202, R217, R274), and the save area and context images: their
layout (R295, R396), streaming a sheet out and in, and CTXST and CTXLD. -/

namespace Sys2Proof.Machine

/-- An asynchronous error of a context (R380, code 29). -/
def asyncError (key reason i0 i1 i2 : Nat) (s : Device) : Device :=
  s.note 5 { pc := 0, tick := 0, asid := s.keyAsid key, lslot := key / 640, core := key % 640 } (evOf 29 reason i0 i1 i2 0)

/-- An asynchronous error that no context of the module can be named for. -/
def linkError (reason i0 i1 i2 : Nat) (s : Device) : Device := s.note 5 Where.device (evOf 29 reason i0 i1 i2 0)

/-- A link drops a flit: counted in the link's DROPPED field, and recorded (R346). -/
def dropFlit (l peer win : Nat) (s : Device) : Device :=
  let i : Fin 16 := Fin.ofNat 16 l
  let w := (s.wovectl[i]).toNat
  let n := (bitField w 16 16 + 1) % 65536
  let v := dbl (w / 2 ^ 32 * 2 ^ 32 + n * 2 ^ 16 + w % 2 ^ 16)
  linkError 4 peer win 0 { s with wovectl := s.wovectl.set i v }

/-- What leaves over a link; whether a flit of it is dropped is a free choice (R346). -/
def sendOver (l peer win : Nat) (o : Out) (s : Device) : Device :=
  let (k, s) := s.draw
  if Config.choice k then dropFlit l peer win s else { s with outbox := s.outbox ++ [o] }

/-- What arrives over a link: nothing does while the link carries no frames, and whether a flit of it was dropped is a free
choice (R346). -/
def receiveOver (l peer win : Nat) (f : Device → Device) (s : Device) : Device :=
  if s.linkUp l = false then s
  else
    let (k, s) := s.draw
    if Config.choice k then dropFlit l peer win s else f s

/-! ## The writes of untimed engines (R202) -/

/-- Whether no timed requester occupies the bank of a scratchpad key at the tick of the sheet active on its sheaf, which
may stand still. -/
def Device.bankFree (s : Device) (key : Nat) : Bool :=
  let core := key / spBytes
  match (s.sheaf (core / 4)).active with
  | none => true
  | some l =>
    let x := s.launch l
    x.st != .active ||
      (s.bankPlans l).all (fun b =>
        !(b.sp == core && b.bank == bankOf key && decide (b.lo ≤ x.tick) && decide (x.tick ≤ b.hi)))

/-- The header of a copy's destination: TYPE, and TAG + 1 (R159, R245). -/
def untimedHeader (at_ : Nat) (typ : Dbl) (s : Device) : Device :=
  spWrite (at_ + 8) [Memory.read s.spad (at_ + 8) + 1] (spWrite at_ (bytesOf 8 typ.toNat) s)

/-- Bytes from a key on, cut at the ends of lines. -/
def cutLines (a : Nat) : Nat → List Byte → List (Nat × List Byte)
  | 0, _ => []
  | n + 1, l =>
    if l.isEmpty then []
    else
      let k := 64 - a % 64
      (a, l.take k) :: cutLines (a + k) n (l.drop k)

/-- The pieces of a write, one for each line it meets. -/
def linePieces (a : Nat) (l : List Byte) : List (Nat × List Byte) := cutLines a (l.length / 64 + 2) l

/-- Pieces written one after another. -/
def writePieces : List (Nat × List Byte) → Device → Device
  | [], s => s
  | (a, l) :: t, s => writePieces t (spWrite a l s)

/-- The end of an engine's writes: the header, then the notification, then the signal. -/
def notifyEnd (g : Signal) (s : Device) : Device :=
  let s := match g.header with
    | some h => untimedHeader h.1 h.2 s
    | none => s
  let s := match g.note with
    | some (link, q, v) => pushQueue { link := some link, key := g.key, q := q, v := v } s
    | none => s
  if g.v = 0 then s else signalBarrier g.at_ g.v s

/-- A signal under way at one mill tick: the pieces whose banks are free are written, and when none is left and the banks
of the header and the barrier are free, the rest follows. It is lost when its context is gone (R343). -/
def deliverSignal (g : Signal) (s : Device) : Option Signal × Device :=
  if (s.ctxAt g.key).present = false then (none, asyncError g.key 6 0 0 0 s)
  else
    let left := g.data.filter (fun p => !s.bankFree p.1)
    let held := (match g.header with
      | some h => !s.bankFree h.1
      | none => false) || (g.v != 0 && !s.bankFree g.at_)
    let s := writePieces (g.data.filter (fun p => s.bankFree p.1)) s
    if left.isEmpty && !held then (none, notifyEnd g s) else (some { g with data := left }, s)

/-- The writes of an engine that has finished: performed at once where the banks are free, and otherwise as the banks
become free (R202). -/
def engineDone (g : Signal) (s : Device) : Device :=
  match deliverSignal g s with
  | (none, s) => s
  | (some g, s) => { s with signals := Assoc.set none s.signals s.seq (some g), seq := s.seq + 1 }

/-- A signal of an engine to a barrier of the context it serves (R253); it is lost when the context is gone. -/
def engineSignal (key bar : Nat) (s : Device) : Device :=
  engineDone { key := key, at_ := bar, v := 1, due := 0, data := [], header := none, note := none } s

/-- Bytes that an engine writes for a context, and the signal that follows. -/
def engineReport (key a : Nat) (l : List Byte) (bar : Nat) (s : Device) : Device :=
  engineDone { key := key, at_ := bar, v := 1, due := 0, data := linePieces a l, header := none, note := none } s

/-! ## Writes of engines (R274) -/

/-- Whether an entry for a line may enter its channel's queue now: there is room, and no commit has an entry waiting for the
line (R214, R274). -/
def Device.lineOpen (s : Device) (loc : Nat) : Bool := s.queueOpen loc && s.lineFree loc

/-- Whether an engine may write a translated address now. -/
def Device.engineRoom (s : Device) (g : GAddr) : Bool := paTarget g.pa != 0 || s.lineOpen (dramMap g.pa g.im g.sw)

/-- An entry of a command: it enters its channel's queue, or waits for room behind those of the channel that wait already
(R274). `owner` is the command's number. -/
def bulkPut (owner : Nat) (e : WqEntry) (s : Device) : Device :=
  if s.lineOpen e.loc && !s.bulk.any (fun p => p.2.sameChannel e) then enqueue e s
  else { s with bulk := s.bulk ++ [(owner, e)] }

/-- The entries of commands that wait, with every one that can now enter its queue entered; `before` are those that stay. -/
def enterBulk (before : List (Nat × WqEntry)) : List (Nat × WqEntry) → Device → Device
  | [], s => { s with bulk := before }
  | p :: t, s =>
    if s.lineOpen p.2.loc && !before.any (fun q => q.2.sameChannel p.2) then enterBulk before t (enqueue p.2 s)
    else enterBulk (before ++ [p]) t s

/-- Whether entries of a command wait for room. -/
def Device.writing (s : Device) (owner : Nat) : Bool := s.bulk.any (fun p => p.1 == owner)

/-- The number by which the streaming of a launch's sheet is known among those that write, and that of a command. -/
def streamOwner (l : Nat) : Nat := 2 * l
/-- The number of a command among those that write. -/
def commandOwner (n : Nat) : Nat := 2 * n + 1
/-- The number under which the writes of peers wait. -/
def peerOwner : Nat := 1024

/-- Some bytes within one line written by a command. -/
def bulkWrite (owner : Nat) (g : GAddr) (bs : List Byte) (s : Device) : Device :=
  if paTarget g.pa = 0 then bulkPut owner (spanEntry g bs) s
  else { s with hostMem := Memory.writeBytes s.hostMem (g.pa % 2 ^ 44) bs }

/-- The translation of an engine's access that no TLB serves: none where the walk faults, the page lacks a right or is not
resident, or it lies in a peer's memory. -/
def Device.engineAddr (s : Device) (asid va : Nat) (x : Rights) : Option GAddr :=
  match s.walk asid va with
  | .error _ => none
  | .ok f =>
    let w0 := f.word0.toNat
    let g := leafAddr w0 f.bits va
    if x.allowed w0 = false ∨ leafRes w0 = false ∨ paTarget g.pa = 2 then none else some g

/-- Bytes written from a virtual address on, over at most `fuel` lines; whether every line could be written. -/
def bulkLines (owner asid : Nat) : Nat → Nat → List Byte → Device → Bool × Device
  | 0, _, _, s => (true, s)
  | fuel + 1, va, bs, s =>
    let m := Nat.min bs.length (64 - va % 64)
    let s := noteWalk asid va s
    match s.engineAddr asid va rightsW with
    | none => (false, s)
    | some g =>
      let s := bulkWrite owner g (bs.take m) s
      if bs.length ≤ m then (true, s) else bulkLines owner asid fuel (va48 (va + m)) (bs.drop m) s

/-- Bytes written from a virtual address on. -/
def bulkStore (owner asid va : Nat) (bs : List Byte) (s : Device) : Bool × Device :=
  if bs.isEmpty then (true, s) else bulkLines owner asid (bs.length / 64 + 2) va bs s

/-! ## The register block (R295, R396) -/

/-- Some bytes of a save area: the DIRTY bit of their group, none for what is always saved, and their offset. -/
structure Piece where
  bit : Option Nat
  off : Nat
  bytes : List Byte
deriving DecidableEq, Repr

/-- The word of a dimension variable (R143). -/
def DimVar.word : DimVar → Nat
  | .unbound => 0
  | .bound v => 2 ^ 30 + v.toNat
  | .aliased d => 2 ^ 31 + d.val

/-- The dimension variable a word holds (R143). -/
def dimVarOf (w : Nat) : DimVar :=
  match bitField w 30 2 with
  | 1 => .bound (BitVec.ofNat 16 w)
  | 2 => .aliased (Fin.ofNat 16 w)
  | _ => .unbound

/-- A loop entry in the register block. -/
def LoopEntry.image (e : LoopEntry) : List Byte := bytesOf 8 e.start ++ bytesOf 8 e.stop ++ bytesOf 4 e.left ++ bytesOf 4 e.ix.toNat

/-- The bytes of some values, one after another. -/
def joinBytes (l : List (List Byte)) : List Byte := l.flatten

/-- The register block's pieces, but for the in-flight area (R396). -/
def regPieces (r : Regs) (lease : Nat) : List Piece :=
  (rangeFrom 0 8).map (fun g =>
    { bit := some g, off := 64 * g, bytes := joinBytes ((rangeFrom 0 8).map (fun i => bytesOf 8 r.s[Fin.ofNat 64 (8 * g + i)].toNat)) : Piece }) ++
  [{ bit := some 8, off := 0x200, bytes := joinBytes (r.a.toList.map (fun a =>
      bytesOf 4 a.addr.toNat ++ bytesOf 4 a.inc.toNat ++ bytesOf 4 a.wrap.toNat ++ bytesOf 4 0)) },
   { bit := some 9, off := 0x300, bytes := [BitVec.ofNat 8 (((rangeFrom 0 8).map (fun i =>
      bitOf (i == 0 || r.p[Fin.ofNat 8 i]) * 2 ^ i)).foldl (· + ·) 0)] },
   { bit := some 9, off := 0x400, bytes := joinBytes (r.m.toList.map (fun m => bytesOf 128 m.toNat)) },
   { bit := some 35, off := 0x800, bytes := joinBytes (r.k.toList.map lineBytes) },
   { bit := some 36, off := 0xA00, bytes := joinBytes (r.cb.toList.map (fun c => bytesOf 32 c.toNat)) },
   { bit := some 37, off := 0xA80, bytes := joinBytes (r.lw.toList.map (fun w => bytesOf 32 w.toNat)) },
   { bit := some 34, off := 0xB80, bytes := joinBytes (r.dv.toList.map (fun d => bytesOf 4 d.word)) },
   { bit := some 38, off := 0xBC0, bytes := joinBytes ((rangeFrom 0 6).map (fun i => match r.loops[i]? with
      | some e => e.image
      | none => List.replicate 24 0)) ++ bytesOf 4 r.loops.length },
   { bit := some 39, off := 0xC80, bytes := bytesOf 4 r.fctl.toNat ++ bytesOf 4 r.fstat.toNat ++ bytesOf 8 r.hkey.toNat },
   { bit := none, off := 0xC90, bytes := bytesOf 4 r.mmrev.toNat ++ bytesOf 4 lease }] ++
  (rangeFrom 0 16).map (fun j =>
    { bit := some (18 + j), off := 0xCC0 + 16 * j,
      bytes := bytesOf 8 r.t[Fin.ofNat 16 j].typ.toNat ++ [r.t[Fin.ofNat 16 j].tag] ++ List.replicate 7 0 : Piece }) ++
  (rangeFrom 0 8).map (fun g =>
    { bit := some (10 + g), off := 0x1000 + 4096 * g,
      bytes := joinBytes ((rangeFrom 0 8).map (fun i => bytesOf 512 r.v[Fin.ofNat 64 (8 * g + i)].toNat)) : Piece }) ++
  (rangeFrom 0 16).map (fun j =>
    { bit := some (18 + j), off := 0x9000 + 8192 * j, bytes := bytesOf 8192 r.t[Fin.ofNat 16 j].data.toNat : Piece })

/-- A little-endian value of a block. -/
def blockNat (b : Memory) (off n : Nat) : Nat := ofBytes (Memory.readBytes b off n)

/-- The loop entries of a register block. -/
def blockLoops (b : Memory) : List LoopEntry :=
  (rangeFrom 0 (Nat.min 6 (blockNat b 0xC50 4))).map (fun i =>
    let o := 0xBC0 + 24 * i
    { start := blockNat b o 8, stop := blockNat b (o + 8) 8, left := blockNat b (o + 16) 4, ix := word (blockNat b (o + 20) 4) })

/-- The type word that a save area or an image gives, its reserved bits zero (R7, R88). R396 names no check of it and no status
for one that is not well formed, and R91 says that the device never holds such a word: the register takes a free type, or the
empty one where that is not well formed either (DESIGN CHOICE, log 140). -/
def typeLoaded (n : Nat) : Dbl :=
  let w := n % 2 ^ 48
  let x := Config.loadedType (dbl w)
  if typeCheck w = none then dbl w else if typeCheck x.toNat = none then x else 0

/-- The laid window that a save area or an image gives, its reserved bits [45] and [37:26] zero (R7, R81). -/
def windowLoaded (n : Nat) : BitVec 192 := BitVec.ofNat 192 n &&& ~~~BitVec.ofNat 192 (2 ^ 45 + 0xFFF * 2 ^ 26)

/-- The registers of a register block (R396); what is reserved in FCTL, FSTAT, MMREV, type words and laid windows reads as zero
(R7, R81, R88, R93, R94). -/
def blockRegs (b : Memory) : Regs where
  s := Vector.ofFn (fun i => dbl (blockNat b (8 * i.val) 8))
  a := Vector.ofFn (fun i =>
    let o := 0x200 + 16 * i.val
    { addr := word (blockNat b o 4), inc := word (blockNat b (o + 4) 4), wrap := word (blockNat b (o + 8) 4) })
  p := Vector.ofFn (fun i => bitAt (blockNat b 0x300 1) i.val)
  v := Vector.ofFn (fun i => BitVec.ofNat 4096 (blockNat b (0x1000 + 512 * i.val) 512))
  m := Vector.ofFn (fun i => BitVec.ofNat 1024 (blockNat b (0x400 + 128 * i.val) 128))
  t := Vector.ofFn (fun i =>
    let o := 0xCC0 + 16 * i.val
    { data := BitVec.ofNat 65536 (blockNat b (0x9000 + 8192 * i.val) 8192), typ := typeLoaded (blockNat b o 8), tag := Memory.read b (o + 8) })
  dv := Vector.ofFn (fun i => dimVarOf (blockNat b (0xB80 + 4 * i.val) 4))
  k := Vector.ofFn (fun i => BitVec.ofNat 512 (blockNat b (0x800 + 64 * i.val) 64))
  cb := Vector.ofFn (fun i => BitVec.ofNat 256 (blockNat b (0xA00 + 32 * i.val) 32))
  lw := Vector.ofFn (fun i => windowLoaded (blockNat b (0xA80 + 32 * i.val) 24))
  loops := blockLoops b
  fctl := fctlWritten (dbl (blockNat b 0xC80 4))
  fstat := fstatWritten (dbl (blockNat b 0xC84 4))
  hkey := dbl (blockNat b 0xC88 8)
  mmrev := mmrevWritten Regs.init.mmrev (dbl (blockNat b 0xC90 4))

/-- The lease of a LEASE word at the end of tick `u` (R298). -/
def leaseOf (w u : Nat) : Lease :=
  if bitAt w 31 then
    { holder := some (Fin.ofNat 4 (bitField w 29 2)), ptr := Fin.ofNat 4 (bitField w 27 2), cmds := bitField w 20 7,
      term := u + bitField w 0 13,
      limit := u + bitField w 0 13, free := u + bitField w 0 13 + 1 }
  else { holder := none, ptr := Fin.ofNat 4 (bitField w 27 2), cmds := 0, term := 0, limit := 0, free := 0 }

/-! ## Save areas (R295) -/

/-- The size of a core's part of a save area. -/
def Launch.areaSize (x : Launch) : Nat := 0x30000 + x.spSize + x.accn * 0x8000

/-- The in-flight area that stands for a number of the model (R396: the part's own layout). -/
def flightArea (id : Nat) : List Byte := (rangeFrom 0 0x6B80).map (fun i => Config.flightImage (id * 2 ^ 16 + i))

/-- The lease of a core's sheaf as its sheet keeps it. -/
def Launch.leaseAt (x : Launch) (core : Nat) : Lease := x.leases.getD ((core - x.core0) / 4) Lease.init

/-- The pieces of a core's accumulator slots: data, type words, and the K-open bits in the last piece. -/
def accPieces (x : Launch) (core : Nat) (all : Bool) (s : Device) : List Piece :=
  let slot := fun (n : Nat) => accKey core ((x.seat core).accBase + n)
  let mine := (rangeFrom 0 x.accn).filter (fun n => all || Assoc.get false s.accDirty (slot n))
  mine.map (fun n =>
    { bit := none, off := 0x30000 + x.spSize + 0x8000 * n,
      bytes := joinBytes ((rangeFrom 0 8192).map (fun i => bytesOf 4 (Assoc.get 0 s.acc (slot n * 8192 + i)).toNat)) : Piece }) ++
  mine.map (fun n => { bit := none, off := 0x29000 + 8 * n, bytes := bytesOf 8 (Assoc.get 0 s.accType (slot n)).toNat : Piece }) ++
  [{ bit := none, off := 0x29000 + 8 * x.accn,
     bytes := bytesOf 16 (((rangeFrom 0 x.accn).map (fun n => bitOf (Assoc.get false s.accOpen (slot n)) * 2 ^ n)).foldl (· + ·) 0) }]

/-- Some pieces written to a save area at `va`; whether every one could be. -/
def savePieces (owner asid va : Nat) : List Piece → Device → Bool × Device
  | [], s => (true, s)
  | p :: t, s =>
    let (ok, s) := bulkStore owner asid (va48 (va + p.off)) p.bytes s
    let (rest, s) := savePieces owner asid va t s
    (ok && rest, s)

/-- The dirty flags of a core's partitions cleared. -/
def cleanCore (x : Launch) (core : Nat) (s : Device) : Device :=
  let b0 := spKey core (x.seat core).spBase / 4096
  let a0 := accKey core (x.seat core).accBase
  { s with
    spDirty := s.spDirty.filter (fun p => !(decide (b0 ≤ p.1) && decide (p.1 < b0 + x.spSize / 4096)))
    accDirty := s.accDirty.filter (fun p => !(decide (a0 ≤ p.1) && decide (p.1 < a0 + x.accn))) }

/-- The address in a save area, whose first core's part lies at `va`, of a core's part. -/
def Launch.areaAt (x : Launch) (va core : Nat) : Nat := va48 (va + (core - x.core0) * x.areaSize)

/-! ## Scratchpad partitions, bank by bank (R202) -/

/-- The banks of the partitions of a sheet, each by the key of its first line there. -/
def Launch.bankKeys (x : Launch) : List Nat :=
  x.cores.flatMap (fun core => (rangeFrom 0 32).map (fun b => spKey core (x.seat core).spBase + 64 * b))

/-- The lines of a partition that lie in the bank of a key. -/
def Launch.bankLines (x : Launch) (k : Nat) : List Nat := (rangeFrom 0 (x.spSize / 2048)).map (fun n => k + 2048 * n)

/-- The address in a save area of a line of a partition. -/
def Launch.lineVa (x : Launch) (va a : Nat) : Nat :=
  va48 (x.areaAt va (a / spBytes) + 0x30000 + (a - spKey (a / spBytes) (x.seat (a / spBytes)).spBase))

/-- Lines of a partition written to a save area; whether every one could be. -/
def savePartition (owner asid va : Nat) (x : Launch) : List Nat → Device → Bool × Device
  | [], s => (true, s)
  | a :: t, s =>
    let (ok, s) := bulkStore owner asid (x.lineVa va a) (Memory.readBytes s.spad a 64) s
    let (rest, s) := savePartition owner asid va x t s
    (ok && rest, s)

/-- The lines in some banks, where these are free, written to a save area: whether every one could be, and the banks still to
come. With `all` unset, only lines of the blocks written since the last stream-out are. -/
def saveBanks (owner asid va : Nat) (x : Launch) (all : Bool) : List Nat → Device → Bool × List Nat × Device
  | [], s => (true, [], s)
  | k :: t, s =>
    if s.bankFree k then
      let (ok, s) := savePartition owner asid va x ((x.bankLines k).filter (fun a => all || Assoc.get false s.spDirty (a / 4096))) s
      let (rest, left, s) := saveBanks owner asid va x all t s
      (ok && rest, left, s)
    else
      let (rest, left, s) := saveBanks owner asid va x all t s
      (rest, k :: left, s)

/-- Lines of a partition read from a save area; whether every one could be. The bytes of one that cannot are free. -/
def readPartition (asid va : Nat) (x : Launch) : List Nat → Device → Bool × Device
  | [], s => (true, s)
  | a :: t, s =>
    let (b, s) := vatChunk asid (x.lineVa va a) 64 s
    let (ok, bs, s) := match b with
      | some l => (true, l, s)
      | none =>
        let (l, s) := freeBytes 64 s
        (false, l, s)
    let (rest, s) := readPartition asid va x t (spWrite a bs s)
    (ok && rest, s)

/-- The lines in some banks, where these are free, read from a save area: whether every one could be, and the banks still to
come. -/
def loadBanks (asid va : Nat) (x : Launch) : List Nat → Device → Bool × List Nat × Device
  | [], s => (true, [], s)
  | k :: t, s =>
    if s.bankFree k then
      let (ok, s) := readPartition asid va x (x.bankLines k) s
      let (rest, left, s) := loadBanks asid va x t s
      (ok && rest, left, s)
    else
      let (rest, left, s) := loadBanks asid va x t s
      (rest, k :: left, s)

/-! ## Registers, results in flight and accumulator slots (R295, R396) -/

/-- A save area's bytes as read, from offset `off` on; whether every line could be. The bytes of one that cannot are free. -/
def readArea (asid va : Nat) : Nat → Nat → Memory → Device → Bool × Memory × Device
  | _, 0, m, s => (true, m, s)
  | off, n + 1, m, s =>
    let (b, s) := vatChunk asid (va48 (va + off)) 64 s
    let (ok, bs, s) := match b with
      | some l => (true, l, s)
      | none =>
        let (l, s) := freeBytes 64 s
        (false, l, s)
    let (rest, m, s) := readArea asid va (off + 64) n (Memory.writeBytes m off bs) s
    (ok && rest, m, s)

/-- A core's part of a save area but for its scratchpad. -/
def readCore (asid va : Nat) (x : Launch) (s : Device) : Bool × Memory × Device :=
  let (a, m, s) := readArea asid va 0 (0x30000 / 64) [] s
  let (b, m, s) := readArea asid va (0x30000 + x.spSize) (x.accn * 0x8000 / 64) m s
  (a && b, m, s)

/-- The accumulator slots of a core replaced by those of a save area, and marked as written. -/
def loadSlots (x : Launch) (core : Nat) (b : Memory) (s : Device) : Device :=
  let slot := fun (n : Nat) => accKey core ((x.seat core).accBase + n)
  let opens := blockNat b (0x29000 + 8 * x.accn) 16
  { s with
    acc := (rangeFrom 0 x.accn).foldl (fun m n => (rangeFrom 0 8192).foldl (fun m i =>
      Assoc.set 0 m (slot n * 8192 + i) (word (blockNat b (0x30000 + x.spSize + 0x8000 * n + 4 * i) 4))) m) s.acc
    accType := (rangeFrom 0 x.accn).foldl (fun m n => Assoc.set 0 m (slot n) (typeLoaded (blockNat b (0x29000 + 8 * n) 8))) s.accType
    accOpen := (rangeFrom 0 x.accn).foldl (fun m n => Assoc.set false m (slot n) (bitAt opens n)) s.accOpen
    accDirty := (rangeFrom 0 x.accn).foldl (fun m n => Assoc.set false m (slot n) true) s.accDirty }

/-- What was saved under the number of an in-flight area: the newest of the context `key` that is being loaded, else the
newest of any. -/
def Device.savedAs (s : Device) (key : Nat) (area : List Byte) : Option (Nat × Live) :=
  let l := s.saved.reverse.filter (fun p => flightArea p.1 == area)
  (l.find? (fun p => p.1 % 2 ^ 19 == key)).or l.head?

/-- What an in-flight area says: what was saved under its number, else one of the possibilities the device may make of bytes
that are not its own. -/
def savedLive (key : Nat) (b : Memory) (old : Live) (s : Device) : Live × Device :=
  let area := Memory.readBytes b 0x29480 0x6B80
  match s.savedAs key area with
  | some p => (p.2, s)
  | none =>
    let (k, s) := s.draw
    let all := old :: s.saved.map (fun p => p.2)
    (all.getD (Config.pick k % all.length) old, s)

/-- A core's lease word in a save area. -/
def leaseImage (x : Launch) (core : Nat) : Nat := leaseWord (x.leaseAt core) (x.restart - 1)

/-- The lease of a core's sheaf as a save area has it: as the sheet keeps it, where the word is its own. -/
def loadLease (l core : Nat) (b : Memory) (s : Device) : Device :=
  let x := s.launch l
  let w := blockNat b 0xC94 4
  if core % 4 ≠ 0 ∨ w = leaseImage x core % 2 ^ 32 then s
  else s.setLaunch l { x with leases := x.leases.set ((core - x.core0) / 4) (leaseOf w (x.restart - 1)) }

/-- The pieces of a core's part of a save area that say what its registers, its slots and its results in flight are; with
`all` unset, of what has been written since the last stream-out. -/
def saveCore (owner asid va l core : Nat) (all : Bool) (s : Device) : Bool × Device :=
  let x := s.launch l
  let c := s.ctx l core
  let id := s.fresh * 2 ^ 19 + ctxKey l core
  let fly : Piece := { bit := none, off := 0x29480, bytes := flightArea id }
  let regs := (regPieces c.live.regs (leaseImage x core)).filter (fun p => match p.bit with
    | some b => all || bitAt c.dirty.toNat b
    | none => true)
  savePieces owner asid (x.areaAt va core) (regs ++ accPieces x core all s ++ [fly])
    { s with fresh := s.fresh + 1, saved := s.saved ++ [(id, c.ckpt.moved l (moveKey x { x with seats := [] }) (moveSlot x { x with seats := [] }))] }

/-- The pieces of some cores saved. -/
def saveCores (owner asid va l : Nat) (all : Bool) : List Nat → Device → Bool × Device
  | [], s => (true, s)
  | core :: t, s =>
    let (ok, s) := saveCore owner asid va l core all s
    let (rest, s) := saveCores owner asid va l all t s
    (ok && rest, s)

/-- A context and its slots as a core's part of a save area says. -/
def loadCore (asid va l core : Nat) (s : Device) : Bool × Device :=
  let x := s.launch l
  let (ok, b, s) := readCore asid (x.areaAt va core) x s
  let c := s.ctx l core
  let there := { x with seats := [] }
  let (v, s) := savedLive (ctxKey l core) b (c.ckpt.moved l (moveKey x there) (moveSlot x there)) s
  let v := { v.moved l (moveKey there x) (moveSlot there x) with regs := blockRegs b }
  (ok, loadLease l core b (loadSlots x core b (s.setCtx l core { c with live := v, ckpt := v, dirty := BitVec.allOnes 41 })))

/-- Some contexts loaded. -/
def loadCores (asid va l : Nat) : List Nat → Device → Bool × Device
  | [], s => (true, s)
  | core :: t, s =>
    let (ok, s) := loadCore asid va l core s
    let (rest, s) := loadCores asid va l t s
    (ok && rest, s)

/-! ## Streaming (R295) -/

/-- SAVE. -/
def Launch.saveAt (x : Launch) : Nat := x.field 368 48

/-- Contexts that leave their cores: they are reached no more, and their promises are forgotten (R198). -/
def leaveCores (l : Nat) : List Nat → Device → Device
  | [], s => s
  | core :: t, s => leaveCores l t (s.setCtx l core { s.ctx l core with dirty := 0, present := false, promises := [] })

/-- The partitions of some cores with nothing written since the last stream-out. -/
def cleanCores (x : Launch) : List Nat → Device → Device
  | [], s => s
  | core :: t, s => cleanCores x t (cleanCore x core s)

/-- Contexts that a stream-in has completed, with nothing written since then. -/
def arriveCores (l : Nat) : List Nat → Device → Device
  | [], s => s
  | core :: t, s => arriveCores l t (s.setCtx l core { s.ctx l core with dirty := 0, present := true })

/-- A sheet streamed out: its contexts and partitions are free (R295); its turn is over (R293, DEDUCED, log 129). What
refers to a place in its partitions does so by the address within them. -/
def streamOut (l : Nat) (s : Device) : Device :=
  let x := s.launch l
  let s := reseat l x { x with seats := [] } (loseSides l (cleanCores x x.cores s))
  s.setLaunch l { s.launch l with st := .out, streaming := .idle, seats := [], since := s.mill, turn := false }

/-- A sheet streamed in: resident in SHADOW (R292, R295). -/
def streamIn (l : Nat) (s : Device) : Device :=
  let x := s.launch l
  let s := arriveCores l x.cores (cleanCores x x.cores s)
  s.setLaunch l { s.launch l with streaming := .idle, streamed := true, switchAt := s.mill }

/-- A sheet with its streaming at a stage. -/
def setStreaming (l : Nat) (x : Streaming) (s : Device) : Device := s.setLaunch l { s.launch l with streaming := x }

/-- CONTEXT_STREAM_COMPLETE (R202, R295): one tick of a sheet's stream-out or stream-in. Registers, slots and results in flight go
at its start, each bank of its partitions when it is free, and it ends when none is left and its last write has entered the
write queues. -/
def contextStreamComplete (l : Nat) (s : Device) : Device :=
  let x := s.launch l
  if x.st ≠ .shadow ∨ s.mill < x.switchAt then s
  else
    match x.streaming with
    | .idle => s
    | .leaving => setStreaming l (.saving x.bankKeys) (leaveCores l x.cores (saveCores (streamOwner l) x.asid x.saveAt l false x.cores s).2)
    | .saving banks =>
      let (_, left, s) := saveBanks (streamOwner l) x.asid x.saveAt x false banks s
      if left.isEmpty && !s.writing (streamOwner l) then streamOut l s else setStreaming l (.saving left) s
    | .returning => setStreaming l (.loading x.bankKeys) (loadCores x.asid x.saveAt l x.cores s).2
    | .loading banks =>
      let (_, left, s) := loadBanks x.asid x.saveAt x banks s
      if left.isEmpty then streamIn l s else setStreaming l (.loading left) s

/-! ## Context images (R396) -/

/-- The header of an image: PART, NSHEAF, SPSZ and ACCN. -/
def Launch.imageHeader (x : Launch) : List Byte :=
  bytesOf 4 0x0640 ++ bytesOf 4 x.nsheaf ++ bytesOf 4 (x.field 255 6) ++ bytesOf 4 x.accn

/-- Lines copied from one address space to another; whether every one could be. -/
def copyLines (owner from_ fromVa asid va : Nat) : Nat → Device → Bool × Device
  | 0, s => (true, s)
  | n + 1, s =>
    match vatChunk from_ fromVa 64 s with
    | (none, s) => (false, s)
    | (some b, s) =>
      let (ok, s) := bulkStore owner asid va b s
      let (rest, s) := copyLines owner from_ (va48 (fromVa + 64)) asid (va48 (va + 64)) n s
      (ok && rest, s)

/-- Whether every line of a range can be read. -/
def Device.readable (s : Device) (asid va : Nat) : Nat → Bool
  | 0 => true
  | n + 1 => (s.engineAddr asid va rightsR).isSome && s.readable asid (va48 (va + 65536)) n

/-- A context image command with its progress. -/
def setImage (n : Nat) (i : Option Image) (s : Device) : Device := { s with images := Assoc.set none s.images n i }

/-- A context image command ended: its status byte is written, and its barrier receives 1. -/
def endImage (n : Nat) (i : Image) (st : Nat) (s : Device) : Device :=
  engineReport i.key (i.at_ + 8) [BitVec.ofNat 8 st] i.at_ (setImage n none s)

/-- The status of an access to an image. -/
def imageStatus (ok : Bool) : Nat := if ok then 0 else 2

/-- CTXST begun: the header block, and each core's part but for its scratchpad; a sheet that is out has its save areas
copied. -/
def beginStore (n : Nat) (i : Image) (s : Device) : Device :=
  let x := s.launch i.l
  let w := commandOwner n
  let body := va48 (i.va + 65536)
  let (a, s) := bulkStore w i.asid i.va (x.imageHeader ++ List.replicate (65536 - 16) 0) s
  let (b, s) := if x.st = .out then copyLines w x.asid x.saveAt i.asid body (x.ncores * x.areaSize / 64) s
    else saveCores w i.asid body i.l true x.cores s
  setImage n (some { i with banks := some (if x.st = .out then [] else x.bankKeys), status := imageStatus (a && b) }) s

/-- CTXLD begun: its header is checked, and each core's part loaded but for its scratchpad; a sheet that is out takes the
image into its save areas. -/
def beginLoad (n : Nat) (i : Image) (s : Device) : Device :=
  let x := s.launch i.l
  let w := commandOwner n
  let body := va48 (i.va + 65536)
  match vatRead i.asid i.va 16 s with
  | (none, s) => endImage n i 2 s
  | (some h, s) =>
    if h ≠ x.imageHeader then endImage n i 3 s
    else if s.readable i.asid i.va (1 + ceilDiv (x.ncores * x.areaSize) 65536) = false then endImage n i 2 s
    else
      let (a, s) := if x.st = .out then copyLines w i.asid body x.asid x.saveAt (x.ncores * x.areaSize / 64) s
        else loadCores i.asid body i.l x.cores s
      setImage n (some { i with banks := some (if x.st = .out then [] else x.bankKeys), status := imageStatus a }) s

/-- One tick of a context image command under way: the banks that are free, and its end. -/
def stepImage (n : Nat) (i : Image) (banks : List Nat) (s : Device) : Device :=
  let x := s.launch i.l
  let body := va48 (i.va + 65536)
  let (ok, left, s) := if i.load then loadBanks i.asid body x banks s else saveBanks (commandOwner n) i.asid body x true banks s
  let st := Nat.max i.status (imageStatus ok)
  if left.isEmpty && !s.writing (commandOwner n) then endImage n i st s
  else setImage n (some { i with banks := some left, status := st }) s

/-- CTX_IMAGE_COMPLETE (R202, R396): one tick of a context image command. It waits while the sheet streams out or in, and ends with
status 1 where the sheet is neither in SHADOW nor OUT. -/
def ctxImageComplete (n : Nat) (s : Device) : Device :=
  match Assoc.get none s.images n with
  | none => s
  | some i =>
    let x := s.launch i.l
    if s.mill < i.due then s
    else if x.st ≠ .shadow ∧ x.st ≠ .out then endImage n i 1 s
    else
      match i.banks with
      | some banks => stepImage n i banks s
      | none => if x.streaming ≠ .idle then s else if i.load then beginLoad n i s else beginStore n i s

end Sys2Proof.Machine
end

