-- ==== Sys2Proof/Machine/Placement.lean ====
section
/-! DEFINITION. The vat's placement of launches (R284, R290, R291, R295, R345), reservations (R290, R294), and the switch
of the sheaves to a sheet (R292, R293, R332). -/

namespace Sys2Proof.Machine

/-! ## What a sheaf has free (R291, R295, R329, R330) -/

/-- The launches whose contexts are resident on a sheaf, with their seats there. -/
def Device.residents (s : Device) (g : Nat) : List (Nat × Seat) :=
  s.launches.filterMap (fun (p : Nat × Launch) =>
    if p.2.st = .active ∨ p.2.st = .shadow then (p.2.seats.find? (fun y => y.sheaf == g)).map (fun y => (p.1, y)) else none)

/-- Whether the range of `n` units at `a` is apart from some ranges. -/
def apart (a n : Nat) (l : List (Nat × Nat)) : Bool := l.all (fun p => decide (a + n ≤ p.1) || decide (p.1 + p.2 ≤ a))

/-- The starts at which a range of `n` of `total` units lies apart from some ranges. -/
def freeStarts (total n : Nat) (l : List (Nat × Nat)) : List Nat :=
  (rangeFrom 0 (total + 1 - n)).filter (fun a => decide (a + n ≤ total) && apart a n l)

/-- The scratchpad units that some residents hold. -/
def Device.spHeld (s : Device) (l : List (Nat × Seat)) : List (Nat × Nat) := l.map (fun p => (p.2.spBase / 65536, (s.launch p.1).field 255 6))
/-- The accumulator slots that some residents hold. -/
def Device.accHeld (s : Device) (l : List (Nat × Seat)) : List (Nat × Nat) := l.map (fun p => (p.2.accBase, (s.launch p.1).accn))

/-- Whether some residents leave space for a launch. -/
def Device.fits (s : Device) (x : Launch) (l : List (Nat × Seat)) : Bool :=
  !(freeStarts 32 (x.field 255 6) (s.spHeld l)).isEmpty && !(freeStarts 128 x.accn (s.accHeld l)).isEmpty

/-- The mill tick since which a sheet has been in SHADOW: since its pre-emption or abort, or since it came back from OUT. -/
def Launch.shadowSince (x : Launch) : Nat := Nat.max x.since x.backAt

/-- Whether one resident is streamed out before another: lower EP, longer in SHADOW, lower slot (R295). -/
def Device.leavesBefore (s : Device) (l m : Nat) : Bool :=
  let p := s.priority l
  let q := s.priority m
  let a := (s.launch l).shadowSince
  let b := (s.launch m).shadowSince
  decide (p < q) || (p == q && (decide (a < b) || (a == b && decide (l < m))))

/-- The first of some launches to be streamed out. -/
def Device.firstOut (s : Device) : List Nat → Option Nat
  | [] => none
  | l :: t =>
    match s.firstOut t with
    | none => some l
    | some m => if s.leavesBefore l m then some l else some m

/-- Whether a sheet is on its way out. -/
def Launch.departing (x : Launch) : Bool :=
  match x.streaming with
  | .leaving => true
  | .saving _ => true
  | _ => false

/-- Whether a launch is at the head of the reservation order. -/
def Device.headReserved (s : Device) (l : Nat) : Bool := s.reservations.head? == some l

/-- The resident to stream out of a sheaf for a launch: one that is not active, has a lower EP, and waits for nothing, since
a sheet that does holds its place (R383); one on its way out already comes first. For the head of the reservation order, which
R294 has placed in a bounded time, its EP need not be lower (DEDUCED, log 150). -/
def Device.victim (s : Device) (l : Nat) (rs : List (Nat × Seat)) : Option Nat :=
  match rs.find? (fun p => (s.launch p.1).departing) with
  | some p => some p.1
  | none =>
    s.firstOut ((rs.filter (fun p =>
      let x := s.launch p.1
      x.st == .shadow && x.need.isNone && x.streaming == .idle && !s.imaging p.1 &&
        (s.headReserved l || decide (s.priority p.1 < s.priority l)))).map (fun p => p.1))

/-- Whether the active sheet of a sheaf, if any, stands at a ream boundary that another launch may take (R291). -/
def Device.atBoundary (s : Device) (g : Nat) : Bool :=
  match (s.sheaf g).active with
  | none => true
  | some a =>
    let x := s.launch a
    x.st != .active || (x.mode == .commit && s.commits.all (fun c => !(c.l == a && c.last)))

/-- The reservations that come before a launch. -/
def Device.earlier (s : Device) (l : Nat) : List Nat := s.reservations.takeWhile (fun r => r != l)

/-- Whether results of a launch that a fault has ended still land on a sheaf (R56). -/
def Device.draining (s : Device) (g : Nat) : Bool :=
  s.ending.any (fun e => s.ctxs.any (fun p => p.1 / 640 == e.1 && p.1 % 640 / 4 == g))

/-- Whether a sheet has come back from OUT to a sheaf at this mill tick, which has made the sheaf unavailable to launches later in the
order (R291, R292). -/
def Device.returnedNow (s : Device) (g : Nat) : Bool :=
  (s.residents g).any (fun p => (s.launch p.1).streaming == .returning && (s.launch p.1).backAt == s.mill)

/-- Whether a sheaf is available to a launch (R291): none when it is not, else the resident to stream out first. For the head of the
reservation order a resident is streamed out for space too, one after another (DEDUCED, log 150). -/
def Device.available (s : Device) (l g : Nat) : Option (Option Nat) :=
  let x := s.launch l
  if (s.earlier l).any (fun r => (s.launch r).sheaves.contains g) ∨ (s.sheaf g).gated = true ∨ s.atBoundary g = false ∨ s.draining g = true ∨
      s.returnedNow g = true then none
  else
    let rs := s.residents g
    if rs.length < 3 ∧ s.fits x rs = true then some none
    else if rs.length < 3 ∧ s.headReserved l = false then none
    else
      match s.victim l rs with
      | none => none
      | some v => if s.headReserved l || s.fits x (rs.filter (fun p => p.1 != v)) then some (some v) else none

/-- What a launch needs on its sheaves: none when some sheaf is not available, else the residents to stream out. -/
def Device.placeable (s : Device) (l : Nat) : List Nat → Option (List Nat)
  | [] => some []
  | g :: t =>
    match s.available l g, s.placeable l t with
    | some (some v), some r => some (if r.contains v then r else v :: r)
    | some none, some r => some r
    | _, _ => none

/-- The stream-out of some residents begun. -/
def beginStreamOut : List Nat → Device → Device
  | [], s => s
  | v :: t, s =>
    let x := s.launch v
    if x.departing then beginStreamOut t s
    else
      let (due, s) := s.later
      beginStreamOut t (s.setLaunch v { x with streaming := .leaving, switchAt := due })

/-! ## Taking the sheaves -/

/-- A seat for a launch on each of some sheaves, which the vat chooses. -/
def chooseSeats (l : Nat) : List Nat → Device → List Seat × Device
  | [], s => ([], s)
  | g :: t, s =>
    let x := s.launch l
    let rs := s.residents g
    let (k, s) := s.choose ((rangeFrom 0 3).filter (fun n => rs.all (fun p => p.2.slotNo != n)))
    let (sp, s) := s.choose (freeStarts 32 (x.field 255 6) (s.spHeld rs))
    let (ac, s) := s.choose (freeStarts 128 x.accn (s.accHeld rs))
    let (r, s) := chooseSeats l t s
    ({ sheaf := g, slotNo := k.getD 0, spBase := 65536 * sp.getD 0, accBase := ac.getD 0 } :: r, s)

/-- The felt of a sheaf as zeros. -/
def clearFelt (g : Nat) (m : Memory) : Memory := m.filter (fun p => p.1 / 262144 != g)

/-- A sheaf given to a sheet with its lease. Its shared state is cleared at each switch (R332), one back to the same sheet after
a pre-emption or a wait among them; it stays as an aborted ream left it (R193, R386) where the sheet is chosen again at the
abort, with no wait and no other sheet in between (DEDUCED, log 139). -/
def takeSheaf (l g : Nat) (lease : Lease) (s : Device) : Device :=
  let x := s.sheaf g
  let y := { x with active := some l, lease := lease, leaseSeen := lease, requests := [] }
  if x.active = some l ∧ (s.launch l).turn = true then s.setSheaf g y
  else
    { s.setSheaf g { y with
        buf0 := PressBuf.empty, buf1 := PressBuf.empty, table := none, scale := none, stamps := [], deckle := [] } with
      felt := clearFelt g s.felt }

/-- Some sheaves given to a sheet. -/
def takeSheaves (l : Nat) : List (Nat × Lease) → Device → Device
  | [], s => s
  | (g, x) :: t, s => takeSheaves l t (takeSheaf l g x s)

/-- The other sheets active at their boundary on some sheaves pre-empted. -/
def displace (l : Nat) : List Nat → Device → Device
  | [], s => s
  | g :: t, s =>
    displace l t (match (s.sheaf g).active with
      | some a => if a ≠ l ∧ (s.launch a).st = .active then preempt a s else s
      | none => s)

/-- The sheets that share a sheaf with launch `l` no longer take their turn before others (R293). -/
def endTurns (l : Nat) (s : Device) : Device :=
  { s with launches := s.launches.map (fun (p : Nat × Launch) =>
      if p.1 ≠ l ∧ p.2.meets (s.launch l) = true then (p.1, { p.2 with turn := false }) else p) }

/-- A sheet made active on its sheaves; they switch within 100 mill ticks, all at one (R291, R292). -/
def activate (l : Nat) (s : Device) : Device :=
  let x := s.launch l
  let s := endTurns l (displace l x.sheaves s)
  let (k, s) := s.draw
  let s := s.setLaunch l { s.launch l with st := .active, mode := .parked, switchAt := s.mill + Config.pick k % 100 }
  takeSheaves l (x.sheaves.zip x.leases) s

/-! ## The tables of a launch (R284, R344, R345) -/

/-- Whether a dimension-variable word obeys R284; `j` is the variable's number. -/
def dvWordOk (j w : Nat) : Bool :=
  match bitField w 30 2 with
  | 0 => bitField w 0 30 == 0
  | 1 => bitField w 16 14 == 0 && bitField w 0 16 != 0
  | 2 => bitField w 4 26 == 0 && decide (bitField w 0 4 < j)
  | _ => false

/-- The dimension variables of core `u` in a table of `64` bytes each. -/
def tableVars (b : Memory) (u : Nat) : Dims := Vector.ofFn (fun j => dimVarOf (blockNat b (64 * u + 4 * j.val) 4))

/-- Whether every word of a dimension-variable table obeys R284. -/
def dvTableOk (b : Memory) (n : Nat) : Bool :=
  (rangeFrom 0 n).all (fun u => (rangeFrom 0 16).all (fun j => dvWordOk j (blockNat b (64 * u + 4 * j) 4)))

/-- Whether a window entry obeys R344, at its index (R345). -/
def windowOk (ix : Nat) (w : BitVec 256) : Bool :=
  let f := fun (lo n : Nat) => bitField w.toNat lo n
  let kind := f 0 2
  let low := f 2 2 == 0 && f 8 40 == 0
  let etype := typeCheck (f 192 64) == none && tRank (f 192 64) != 0
  if kind = 0 then w == 0
  else if kind = 1 then
    decide (ix < 16) && low && etype && f 181 11 == 0 && f 150 10 == 0 && decide (16 ≤ f 128 22) && decide (f 128 22 ≤ 0x200000) &&
      f 48 80 == 0 && f 4 4 == 0
  else if kind = 2 then
    low && etype && f 181 11 == 0 && f 128 32 == 0 && f 160 21 % 16 == 0 && f 117 11 == 0 && f 96 21 % 8 == 0 && f 74 22 == 0 &&
      decide (f 64 10 < 640) && decide (f 4 4 ≤ 2)
  else false

/-- The entries of a window table (R344). -/
def Device.windowEntries (s : Device) (asid n : Nat) : List (BitVec 256) :=
  (rangeFrom 0 n).map (fun i => BitVec.ofNat 256 (s.tableWords ((s.asWindows asid).1 + 32 * i) 4))

/-- The windows of kind 1 that a launch keeps; none when an entry breaks the table (R345). -/
def Device.launchWindows (s : Device) (asid : Nat) : Option (List (BitVec 256)) :=
  let all := s.windowEntries asid (s.asWindows asid).2
  if (all.zip (rangeFrom 0 all.length)).all (fun p => windowOk p.2 p.1) then
    some (all.filter (fun w => bitField w.toNat 0 2 == 1))
  else none

/-! ## Placement (R284, R291, R292) -/

/-- The accumulator slots of a core's partition with no type and their K-open bits clear (R168). -/
def freshSlots (x : Launch) (core : Nat) (s : Device) : Device :=
  let a := accKey core (x.seat core).accBase
  let mine := fun (n : Nat) => decide (a ≤ n) && decide (n < a + x.accn)
  { s with accType := s.accType.filter (fun p => !mine p.1), accOpen := s.accOpen.filter (fun p => !mine p.1) }

/-- The contexts of a launch created: each unit at its first bundle, with its arguments and dimension variables. -/
def createCores (l : Nat) (utab args dvs : Memory) (hasDv : Bool) : List Nat → Device → Device
  | [], s => s
  | core :: t, s =>
    let x := s.launch l
    let u := core - x.core0
    let pc := blockNat utab (8 * u) 8
    let r := Regs.init
    let regs := { r with
      s := Vector.ofFn (fun i => if 1 ≤ i.val ∧ i.val ≤ 8 then dbl (blockNat args (8 * (i.val - 1)) 8) else 0)
      dv := if hasDv then tableVars dvs u else r.dv
      mmrev := word (x.field 262 2 + x.field 261 1 * 2 ^ 8) }
    let v := { Live.init with regs := regs, pc := pc, exited := pc == 0, budget := x.budget, effects := 256 }
    let c := { Ctx.empty with present := true, live := v, ckpt := v, dirty := BitVec.allOnes 41 }
    createCores l utab args dvs hasDv t (freshSlots x core (cleanCore x core (s.setCtx l core c)))

/-- A launch that is not placed: it finishes with ERR; a broken record is reported (R284, R327, R345). -/
def failPlacement (l : Nat) (report : Bool) (s : Device) : Device :=
  completeLaunch l false true (if report then refuseRecord 1 (s.launch l).recVa s else s)

/-- A launch placed on its sheaves, which are all available. -/
def placeLaunch (l : Nat) (s : Device) : Device :=
  let x := s.launch l
  if s.asEnabled x.asid = false then failPlacement l false s
  else
    let read := fun (lo n : Nat) (s : Device) => if x.field lo 48 = 0 then (some [], s) else vatRead x.asid (x.field lo 48) n s
    let (utab, s) := vatRead x.asid (x.field 464 48) (8 * x.ncores) s
    let (args, s) := read 416 64 s
    let (dvs, s) := read 199 (64 * x.ncores) s
    match utab, args, dvs with
    | some utab, some args, some dvs =>
      let tab := Memory.writeBytes [] 0 dvs
      if x.field 199 48 ≠ 0 ∧ dvTableOk tab x.ncores = false then failPlacement l true s
      else
        let s := noteTable (s.asWindows x.asid).1 (32 * (s.asWindows x.asid).2) s
        match s.launchWindows x.asid with
        | none => failPlacement l false s
        | some ws =>
          let (seats, s) := chooseSeats l x.sheaves s
          let s := s.setLaunch l
            { x with
              seats := seats, windows := ws, backAt := 0, tick := 0, checked := 0, ran := 0, restart := 0, replaysCur := 0, replays := 0, traps := [],
              streamed := false, streaming := .idle, issuedAt := 0, asked := false, turn := false, leases := x.sheaves.map (fun _ => Lease.init), fences := 0, nextFences := 0,
              ticked := false, oversize := false }
          let s := { s with reservations := s.reservations.filter (fun r => r != l) }
          let s := createCores l (Memory.writeBytes [] 0 utab) (Memory.writeBytes [] 0 args) tab (x.field 199 48 != 0) x.cores s
          activate l s
    | _, _, _ => failPlacement l true s

/-- A sheet that is out given its place again, which makes its sheaves unavailable to launches later in the order (R291); its state then
streams in (R292). -/
def returnLaunch (l : Nat) (s : Device) : Device :=
  let x := s.launch l
  let (seats, s) := chooseSeats l x.sheaves s
  let (due, s) := s.later
  let s := reseat l x { x with seats := seats } s
  s.setLaunch l { s.launch l with st := .shadow, streaming := .returning, seats := seats, switchAt := due, backAt := s.mill }

/-- VAT_PLACEMENT (R291): a ready or reserved launch, or a sheet that is out, whose sheaves are all available. -/
def vatPlacement (l : Nat) (s : Device) : Device :=
  let x := s.launch l
  if x.st = .ready ∨ x.st = .rsvd ∨ x.st = .out then
    match s.placeable l x.sheaves with
    | none => s
    | some [] => if x.st = .out then returnLaunch l s else placeLaunch l s
    | some vs => beginStreamOut vs s
  else s

/-! ## Reservations (R290, R294, R297) -/

/-- An abort request of a sheet that holds or stands still (R297, R382). -/
def abortRequest (l reason began : Nat) (s : Device) : Device :=
  let x := s.launch l
  let core := x.core0
  takeReplayable l core (evOf 24 reason began 0 0 0) (x.place l core (s.ctx l core).live.pc) s

/-- The reservation abort requests of the sheets that hold on the sheaves of a reserved launch. -/
def reservationAborts (l : Nat) : List Nat → Device → Device
  | [], s => s
  | m :: t, s =>
    let x := s.launch m
    let s := match x.mode with
      | .hold began => if x.st = .active ∧ m ≠ l ∧ x.meets (s.launch l) then abortRequest m 2 began s else s
      | _ => s
    reservationAborts l t s

/-- VAT_RESERVATION (R290): a ready launch that has waited long enough becomes reserved. -/
def vatReservation (l : Nat) (s : Device) : Device :=
  let x := s.launch l
  if x.st = .ready ∧ s.mill - x.since ≥ s.reserveAfter then
    let s := { s.setLaunch l { x with st := .rsvd, rsvAt := s.mill } with reservations := s.reservations ++ [l] }
    reservationAborts l (s.launches.map (fun p => p.1)) s
  else s

/-! ## The switch (R292, R293) -/

/-- Whether a sheet in SHADOW can be made active: its sheaves are free of active sheets, of results that still land and of
reservations, and its last commit has entered its queues. -/
def Device.sheavesFree (s : Device) (l : Nat) : Bool :=
  let x := s.launch l
  x.choosable && !s.imaging l && !s.reservedAgainst l &&
    x.sheaves.all (fun g => !s.draining g && (match (s.sheaf g).active with
      | none => true
      | some a => (s.launch a).st != .active)) &&
    s.commits.all (fun c => c.l != l || c.pending.isEmpty)

/-- Whether a sheet in SHADOW may be made active. One whose ream has aborted has its turn before the others of its sheaves,
unless these pre-empt it (R293). -/
def Device.mayActivate (s : Device) (l : Nat) : Bool :=
  s.sheavesFree l && !s.launches.any (fun (p : Nat × Launch) =>
    p.1 != l && p.2.turn && p.2.meets (s.launch l) && s.sheavesFree p.1 &&
      !(decide (s.priority l > s.priority p.1) || (s.priority l == s.priority p.1 && decide (p.2.ran ≥ s.quantum))))

/-- A sheet at the start of a tick: it halts there when a halt has been asked for (R390, R395), and when one that an abort cut short
has not ended. -/
def startTick (l : Nat) (s : Device) : Device :=
  let x := s.launch l
  if x.kept = some true then s.setLaunch l { x with kept := none, halt := true }
  else if (x.halt = true ∨ x.kept = some false) ∧ x.mode = .run then enterHalt l s
  else s

/-- VAT_SWITCH_ACTIVE (R292, R293): a sheet in SHADOW is made active, or the sheaves of one made active switch to it. -/
def vatSwitchActive (l : Nat) (s : Device) : Device :=
  let x := s.launch l
  if x.st = .active ∧ x.mode = .parked then
    if s.mill < x.switchAt then s
    else startTick l (s.setLaunch l
      { x with mode := .run, switchAt := s.mill, ran := if x.turn then x.ran else 0, turn := false, ticked := false })
  else if s.mayActivate l then activate l s
  else s

end Sys2Proof.Machine
end

