-- ==== Sys2Proof/Machine/Phases.lean ====
section
/-! DEFINITION. The phases of a commit after its data (R192, R213, R287, R300): the queue entries still to enter, the
ream's advance, signals and completion; the ends of holds (R297); and debug halts (R390). -/

namespace Sys2Proof.Machine

/-! ## The data phase (R274) and the next ream (R192, R293) -/

/-- COMMIT_ENTRY_ENQUEUE (R274): the entries of a launch's commits enter their queues as far as there is room. -/
def commitEntryEnqueue (l : Nat) (s : Device) : Device :=
  let (cs, s) := enterCommits (fun c => c.l == l) [] s.commits s
  { s with commits := cs }

/-- REAM_ADVANCE (R192): every entry of the commit has entered its queue; the vat chooses (R293), and the next ream
begins unless the sheet is pre-empted or ends. -/
def reamAdvance (l : Nat) (s : Device) : Device :=
  let x := s.launch l
  let mine := s.commits.filter (fun c => c.l == l)
  if x.st = .active ∧ x.mode = .commit ∧ mine.all (fun c => c.pending.isEmpty && !c.last) then
    if s.preempts l then preempt l s
    else startTick l (s.setLaunch l { x with mode := .run, tick := x.restart, checked := x.restart, ticked := false, oversize := false })
  else s

/-! ## Signals (R213, R253, R256, R258, R323, R395) -/

/-- A signal to a barrier outside the sheet (R253); one whose context is gone is lost. -/
def outsideSignal (key at_ v : Nat) (s : Device) : Device :=
  if (s.ctxAt key).present then signalBarrier at_ v s else asyncError key 6 0 0 0 s

/-- A frame that leaves (R347): dropped and reported when no route is left. -/
def sendFrame (key : Nat) (f : WoveFrame) (s : Device) : Device :=
  match s.routeTo f.dest.toNat with
  | none => asyncError key 2 f.dest.toNat f.win.toNat 0 s
  | some link =>
    let f := { f with src := BitVec.ofNat 16 s.woveAddr, ptag := BitVec.ofNat 16 (s.asTag (s.keyAsid key)), hops := 0 }
    sendOver link f.dest.toNat f.win.toNat (.frame link f) s

/-- A contribution sent to some members; whether every one could be reached. -/
def sendContribution (f : FredFrame) (me : Nat) : List Nat → Device → Bool × Device
  | [], s => (true, s)
  | m :: t, s =>
    let (ok, s) := if m = me then (true, s)
      else
        match s.routeTo m with
        | none => (false, s)
        | some link => (true, sendOver link m 0 (.fred link { f with dest := BitVec.ofNat 16 m }) s)
    let (rest, s) := sendContribution f me t s
    (ok && rest, s)

/-- The place of a member in a group. -/
def rankOf (members : List Nat) (m : Nat) : Nat := (members.takeWhile (fun x => x != m)).length

/-- The held contributions for a FRED that leaves, with those left (R350). -/
def takeHeld (asid group k : Nat) (l : Assoc (Option Held)) : List FredFrame × Assoc (Option Held) :=
  let mine := fun (h : Held) => h.asid == asid && h.f.group.toNat == group && h.f.k.toNat == k
  ((l.filterMap (fun p => match p.2 with
      | some h => if mine h then some h.f else none
      | none => none)),
    l.filter (fun p => match p.2 with
      | some h => !mine h
      | none => true))

/-- Contributions added by rank, each member's once. -/
def addArrived (members : List Nat) (old : List (Nat × FredFrame)) : List FredFrame → List (Nat × FredFrame)
  | [] => old
  | f :: t =>
    let r := rankOf members f.src.toNat
    addArrived members (if old.any (fun p => p.1 == r) then old else old ++ [(r, f)]) t

/-- A FRED with the mill tick of its completion, once every member's contribution is there. -/
def Fred.ready (f : Fred) (due : Nat) : Fred := if f.due = 0 ∧ f.arrived.length = f.members.length then { f with due := due } else f

/-- A FRED that leaves (R258, R350, R418): it takes its number, its contribution goes to the other members, and those that
came early are combined. -/
def departFred (key at_ : Nat) (bits : BitVec 256) (data : List Byte) (s : Device) : Device :=
  let asid := s.keyAsid key
  let g := fredField bits 112 8
  let k := Assoc.get 0 s.fredCount (asid * 256 + g)
  let s := noteTable ((s.asGroups asid).1 + 128 * g) 128 s
  let members := s.groupMembers asid g
  let f : FredFrame :=
    { dest := 0, src := BitVec.ofNat 16 s.woveAddr, ptag := BitVec.ofNat 16 (s.asTag asid), hops := 0, group := BitVec.ofNat 8 g, k := BitVec.ofNat 16 k,
      bytes := fredField bits 96 16, op := BitVec.ofNat 3 (fredField bits 120 3), fmt := BitVec.ofNat 3 (fredField bits 123 3),
      data := BitVec.ofNat 32768 (ofBytes data) }
  let (ok, s) := sendContribution f s.woveAddr members { s with fredCount := Assoc.set 0 s.fredCount (asid * 256 + g) ((k + 1) % 65536) }
  let (early, held) := takeHeld asid g k s.held
  let (due, s) := s.later
  let x : Fred :=
    { key := key, asid := asid, at_ := at_, bits := bits, group := g, k := k, members := members,
      arrived := addArrived members [(rankOf members s.woveAddr, f)] early, left := s.mill, due := 0, lost := !ok }
  { s with held := held, freds := Assoc.set none s.freds s.seq (some (x.ready due)), seq := s.seq + 1 }

/-- Whether any context is resident on a sheaf. -/
def Device.occupied (s : Device) (g : Nat) : Bool := !(s.residents g).isEmpty

/-- The TLBs of some cores emptied (R303). -/
def emptyTlbs : List Nat → Device → Device
  | [], s => s
  | core :: t, s => emptyTlbs t { s with tlbs := Assoc.set [] s.tlbs core [] }

/-- The acknowledgements of some cores no longer waited for. -/
def acknowledge (cores : List Nat) (s : Device) : Device :=
  { s with shootNow := s.shootNow.map (fun n => { n with waiting := n.waiting.filter (fun c => !cores.contains c) }) }

/-- A halted sheet released (R390): the bundles due issue, after the events that waited; one that an abort has taken from its
sheaves no longer halts when it is active again. -/
def releaseHalt (l : Nat) (s : Device) : Device :=
  let x := s.launch l
  if x.kept.isSome then s.setLaunch l { x with kept := none, halt := false }
  else if x.halted ∧ x.st = .active then s.setLaunch l { x with mode := .run, halt := false }
  else s

/-- HALTC's effect (R395). -/
def haltEffect (core : Nat) (op : HaltOp) (s : Device) : Device :=
  let g := core / 4
  match op with
  | .halt =>
    match (s.sheaf g).active with
    | some l => if (s.launch l).st = .active then s.setLaunch l { s.launch l with halt := true } else s
    | none => s
  | .go =>
    match (s.sheaf g).active with
    | some l => releaseHalt l s
    | none => s
  | .gate =>
    if s.occupied g then s.deviceEvent (evOf 28 0 0 core 0 0)
    else
      let cores := rangeFrom (4 * g) 4
      acknowledge cores (emptyTlbs cores (s.setSheaf g { s.sheaf g with gated := true }))
  | .ungate => s.setSheaf g { s.sheaf g with gated := false }

/-- CTXSW's effect (R395): a launch that is not yet placed is parked once it is. -/
def parkEffect (l : Nat) (inn : Bool) (s : Device) : Device :=
  let x := s.launch l
  if x.st = .free ∨ x.st = .held ∨ x.st = .done then s else s.setLaunch l { x with park := !inn }

/-- One effect of a signal phase; `key` is the context that issued it. -/
def signalEffect (key : Nat) (e : Effect) (s : Device) : Device :=
  match e with
  | .signal k a v => outsideSignal k a v s
  | .hsig vec v => { s with hsigval := s.hsigval.set (Fin.ofNat 32 vec) v, outbox := s.outbox ++ [.msix vec] }
  | .send f => sendFrame key f s
  | .fred a bits data => departFred key a bits (data.getD []) s
  | .submit false lslot g req => submitLaunch key (s.keyAsid key) (lslot.getD 0) g req.toNat s
  | .submit true _ g req => submitGraph key (s.keyAsid key) g req.toNat s
  | .cancel h => cancelItem h.toNat s
  | .ctxsw l inn => parkEffect l inn s
  | .haltc core op => haltEffect core op s
  | .image load l va a =>
    let (due, s) := s.later
    let i : Image := { load := load, key := key, asid := s.keyAsid key, l := l, va := va, at_ := a, due := due, banks := none, status := 0 }
    { s with images := Assoc.set none s.images s.seq (some i), seq := s.seq + 1 }
  | .shoot sc asid page bar =>
    { s with shootQ := s.shootQ ++ [{ scope := sc, asid := asid, page := page, bar := some (key, bar) }] }
  | _ => s

/-- Whether an effect must wait: a SHOOT that finds the queue full (R398), a signal whose barrier's bank a timed requester
occupies (R202). -/
def Device.blocked (s : Device) : Effect → Bool
  | .shoot _ _ _ _ => decide (s.shootQ.length ≥ 64)
  | .signal k a _ => (s.ctxAt k).present && !s.bankFree a
  | _ => false

/-- The effects of a signal phase in commit order, up to one that must wait. -/
def signalEffects (l : Nat) : List (Nat × Effect) → Device → List (Nat × Effect) × Device
  | [], s => ([], s)
  | (core, e) :: t, s => if s.blocked e then ((core, e) :: t, s) else signalEffects l t (signalEffect (ctxKey l core) e s)

/-- The unit counters after a commit's signal phase (R287), and the launch's own. -/
def advanceCounters (l : Nat) (exits : List Nat) (s : Device) : Device :=
  let x := s.launch l
  let units := (x.units.zip (rangeFrom 0 x.units.length)).map (fun p =>
    let (n, fin, can, err) := p.1
    (n + 1, fin || exits.contains p.2, can, err))
  s.setLaunch l { x with units := units, count := x.count + (exits.filter (fun u => !(x.unit u).2.1)).length }

/-- The commits with the first of a launch replaced, or left out. -/
def replaceFirst (l : Nat) (r : Option Commit) : List Commit → List Commit
  | [] => []
  | c :: t => if c.l = l then r.toList ++ t else c :: replaceFirst l r t

/-- The first commit of a launch. -/
def Device.headCommit (s : Device) (l : Nat) : Option Commit := s.commits.find? (fun c => c.l == l)

/-- COMMIT_SIGNAL_PHASE (R213, R287): the signals of the launch's first commit, whose data phase has taken effect. -/
def commitSignalPhase (l : Nat) (s : Device) : Device :=
  match s.headCommit l with
  | none => s
  | some c =>
    if c.signalled = true ∨ c.pending.isEmpty = false ∨ s.mill < c.due then s
    else
      let (left, s) := signalEffects l c.signals s
      match s.headCommit l with
      | none => s
      | some c =>
        if left.isEmpty = false then { s with commits := replaceFirst l (some { c with signals := left }) s.commits }
        else
          let s := if c.early then s else advanceCounters l c.exits s
          let r := if c.last then some { c with signals := [], signalled := true } else none
          { s with commits := replaceFirst l r s.commits }

/-- COMMIT_COMPLETION_PHASE (R287): the launch's last commit has made its signals. -/
def commitCompletionPhase (l : Nat) (s : Device) : Device :=
  match s.headCommit l with
  | none => s
  | some c =>
    if c.last && c.signalled then completeLaunch l c.can c.err { s with commits := s.commits.filter (fun d => d.l != l) } else s

/-- EARLY_COMMIT_RESUME (R300): the early commit's phases have taken effect and no handler is left running; the excepting
bundle issues. -/
def earlyCommitResume (l : Nat) (s : Device) : Device :=
  let x := s.launch l
  match x.mode with
  | .early core =>
    if x.st = .active ∧ x.asked = false ∧ s.committing l = false ∧ s.handling l = false then
      issueCore l core (s.setLaunch l { x with mode := .run, ticked := true, issuedAt := s.mill })
    else s
  | _ => s

/-! ## Holds (R297) -/

/-- HOLD_TIMEOUT (R297): a hold that has reached its limit, or whose sheaves a reservation holds, makes an abort request. -/
def holdTimeout (l : Nat) (s : Device) : Device :=
  let x := s.launch l
  match x.mode with
  | .hold began =>
    if x.st ≠ .active then s
    else if s.mill - began ≥ s.holdLimit then abortRequest l 1 began s
    else if s.reservedAgainst l then abortRequest l 2 began s
    else s
  | _ => s

/-! ## Halts from the host (R390) -/

/-- HALTCTL_REQ: the sheet of a launch slot halts at its next sheet tick, which is still to come where it is not active. -/
def haltctlReq (l : Nat) (s : Device) : Device :=
  let s := { s with haltSlot := l }
  let x := s.launch l
  if x.st = .free ∨ x.st = .held ∨ x.st = .done then s else s.setLaunch l { x with halt := true }

/-- HALTCTL_GO: the halt of a launch slot's sheet is released. -/
def haltctlGo (l : Nat) (s : Device) : Device := releaseHalt l { s with haltSlot := l }

/-- HALTCTL_STEP: the halted sheet issues one sheet tick, then halts again; one that an abort has taken from its sheaves does so
once it is active. -/
def haltctlStep (l : Nat) (s : Device) : Device :=
  let s := { s with haltSlot := l }
  let x := s.launch l
  if x.kept.isSome then s.setLaunch l { x with kept := some true }
  else if x.halted ∧ x.st = .active then s.setLaunch l { x with mode := .run, halt := true }
  else s

end Sys2Proof.Machine
end

