-- ==== Sys2Proof/Machine/Timeline.lean ====
section
/-! DEFINITION. The static DRAM timeline (R265 to R280): its words and their checks, the timing rules, reads and
forwarding, write positions and drain runs, refreshes and scrubs, and the web. -/

namespace Sys2Proof.Machine

/-! ## Words (R266, R267) -/

/-- KIND. -/
def wordKind (w : Nat) : Nat := bitField w 61 3
/-- ACT. -/
def wordAct (w : Nat) : Bool := bitAt w 60
/-- AP. -/
def wordAp (w : Nat) : Bool := bitAt w 59
/-- SID, BG and BA. -/
def wordBank (w : Nat) : Nat := bitField w 53 6
/-- OWNER. -/
def wordOwner (w : Nat) : Nat := bitField w 26 8
/-- The web lane of WSLOT. -/
def wordLane (w : Nat) : Nat := bitField w 10 7

/-- Whether every field of a word holds a value that R266 allows. -/
def wordOk (w : Nat) : Bool :=
  match wordKind w with
  | 0 => w == 0
  | 1 => bitField w 0 10 == 0 && bitField w 17 9 == 0 && (decide (wordOwner w < 160) || wordOwner w == 255)
  | 2 => bitField w 0 61 == 0
  | 3 => bitField w 0 61 == 0
  | 4 => bitField w 0 61 == 0
  | 5 => bitField w 0 53 == 0 && bitField w 59 2 == 0
  | 6 => bitField w 0 9 == 0 && bitField w 10 24 == 0
  | _ => false

/-- The words of a ring. -/
def Stack.ring (x : Stack) : List (Nat × Nat) :=
  (x.words.filter (fun p => decide (p.1 < 32 * x.positions))).map (fun p => (p.1, p.2.toNat))

/-- Whether the read words of a position use different lanes, at most two of them for one owner (R269). -/
def lanesOk (l : List (Nat × Nat)) : Bool :=
  let rs := (l.filter (fun p => wordKind p.2 == 1)).map (fun p => p.2)
  let lanes := rs.map wordLane
  let owners := (rs.map wordOwner).filter (fun o => o != 255)
  lanes.all (fun a => decide ((lanes.filter (fun b => b == a)).length ≤ 1)) &&
    owners.all (fun a => decide ((owners.filter (fun b => b == a)).length ≤ 2))

/-- Whether the positions of some words, each next to the others of its position, obey R269. -/
def positionsOk : Nat → List (Nat × Nat) → Bool
  | 0, _ => true
  | _ + 1, [] => true
  | n + 1, p :: t =>
    let same := fun (q : Nat × Nat) => q.1 / 32 == p.1 / 32
    lanesOk (p :: t.takeWhile same) && positionsOk n (t.dropWhile same)

/-- Whether the write and drain words of a channel number at most P / 4 (R267). -/
def writesOk (x : Stack) (r : List (Nat × Nat)) (c : Nat) : Bool :=
  decide (4 * (r.filter (fun p => p.1 % 32 == c && (wordKind p.2 == 2 || wordKind p.2 == 3))).length ≤ x.positions)

/-- Whether a refresh word covers a bank (R267). -/
def coversBank (b : Nat) (w : Nat) : Bool := wordKind w == 4 || (wordKind w == 5 && wordBank w == b)

/-- Whether every bank of a channel is refreshed often enough (R267): two coverings of a bank lie at most P apart, which is
below 70,200. -/
def refreshOk (x : Stack) (r : List (Nat × Nat)) (c : Nat) : Bool :=
  let mine := (r.filter (fun p => p.1 % 32 == c)).map (fun p => p.2)
  (rangeFrom 0 64).all (fun b => decide (ceilDiv x.positions 7800 ≤ (mine.filter (coversBank b)).length))

/-- Whether a ring refreshes every bank that another refreshes often enough, too: what a write must keep while a ring is being
set up (DEDUCED, log 82). -/
def Stack.keepsRefresh (x y : Stack) : Bool := (rangeFrom 0 32).all (fun c => !refreshOk x x.ring c || refreshOk y y.ring c)

/-- The rules of R267 that a written word obeys in any ring. -/
def Stack.wordsOk (x : Stack) : Bool :=
  let r := x.ring
  r.all (fun p => wordOk p.2) && positionsOk r.length r && (rangeFrom 0 32).all (writesOk x r)

/-- Every rule of R267, which a running ring obeys. -/
def Stack.ringOk (x : Stack) : Bool := x.wordsOk && (rangeFrom 0 32).all (refreshOk x x.ring)

/-- A refused management write (R380, code 28). -/
def refuseWrite (off v : Nat) (s : Device) : Device := s.deviceEvent (evOf 28 0 off v 0 0)

/-- The management address of a timeline word. -/
def wordOffset (st ix : Nat) : Nat := 0x2000000 + 0x400000 * st + 8 * ix

/-- TIMELINE_WORD_WRITE (R267). -/
def timelineWordWrite (st ix : Nat) (v : Dbl) (s : Device) : Device :=
  let x := s.stack st
  let y := { x with words := Assoc.set 0 x.words ix v }
  let ok := wordOk v.toNat && (if x.running then y.ringOk else y.wordsOk && x.keepsRefresh y)
  if ok then s.setStack st y else refuseWrite (wordOffset st ix) v.toNat s

/-- Whether the fields of TLCTL are in range (R265, R268). -/
def tlctlOk (v : Nat) : Bool :=
  let lwm := bitField v 40 6
  let hwm := bitField v 33 7
  decide (lwm ≤ 62) && decide (lwm < hwm) && decide (hwm ≤ 64) && decide (39 ≤ bitField v 17 14)

/-- The bits of TLCTL that are written. -/
def tlctlMask : Nat := 0x3FFE7FFE0001

/-- A stack whose ring begins to run at a mill tick: positions count from a turn's first on, beyond any to which the timing rules look
back, and the commands already issued stand at the positions that their distance in time gives (R270). -/
def Stack.restart (x : Stack) (at_ : Nat) : Stack :=
  let base := x.positions * ceilDiv 1024 x.positions
  let now := x.base + 5 * (at_ - x.t0) / 3
  let move := fun (p : Nat) => base + p - now
  { x with
    t0 := at_, base := base, pos := base, drains := []
    cmds := x.cmds.map (fun p => (p.1, (p.2.filter (fun d => decide (now ≤ base + d.pos))).map (fun d => { d with pos := move d.pos })))
    rows := x.rows.map (fun p => (p.1, p.2.map (fun r => (r.1, r.2.map move)))) }

/-- A stack whose ring takes another number of positions while it runs: it goes on at its present position, or at position 0 where
the new ring has none of that number. R265 and R268 do not say where it stands (DESIGN CHOICE, log 149). -/
def Stack.resize (x y : Stack) : Stack :=
  let n := y.positions
  let p := x.pos % x.positions
  let next := (if p < n then p else 0) + n * ceilDiv x.pos n
  let move := fun (k : Nat) => k + (next - x.pos)
  { y with
    base := move x.base, pos := next
    cmds := x.cmds.map (fun c => (c.1, c.2.map (fun d => { d with pos := move d.pos })))
    rows := x.rows.map (fun c => (c.1, c.2.map (fun r => (r.1, r.2.map move)))) }

/-- TLCTL_WRITE (R267, R268): RUN changes only while the stack holds no pending claim, and each write is checked. -/
def tlctlWrite (st : Nat) (v : Dbl) (s : Device) : Device :=
  let x := s.stack st
  let n := v.toNat &&& tlctlMask
  let y := { x with tlctl := dbl n }
  let run := bitAt n 0
  let changes := run != x.running
  let ok := tlctlOk n && (!changes || x.claims.isEmpty) && (if run then y.ringOk else y.wordsOk && x.keepsRefresh y)
  if ok = false then refuseWrite (0x100000 + 8 * st) v.toNat s
  else if run && changes then
    s.setStack st (y.restart (s.mill + 1))
  else if run && y.positions != x.positions then s.setStack st (x.resize y)
  else s.setStack st y

/-! ## Timing (R270) -/

/-- BG of a bank. -/
def bankGroup (b : Nat) : Nat := bitField b 2 2

/-- Whether a command is a burst. -/
def CmdKind.burst (k : CmdKind) : Bool := k == .read || k == .write

/-- The first row of R270's table, counted from 1, that two commands of a channel break, `a` at or before `b`. -/
def brokenRow (a b : DramCmd) : Option Nat :=
  let d := b.pos - a.pos
  let same := a.bank == b.bank
  let group := bankGroup a.bank == bankGroup b.bank
  let acts := a.kind == .act && b.kind == .act
  let bursts := a.kind.burst && b.kind.burst
  if a.kind == .act && b.kind.burst && same && decide (d < 28) then some 1
  else if a.kind == .pre && b.kind == .act && same && decide (d < 28) then some 2
  else if a.kind == .act && b.kind == .pre && same && decide (d < 60) then some 3
  else if acts && same && decide (d < 88) then some 4
  else if acts && !group && decide (d < 4) then some 5
  else if acts && group && decide (d < 6) then some 6
  else if bursts && !group && decide (d < 1) then some 8
  else if bursts && group && decide (d < 2) then some 9
  else if a.kind == .write && b.kind == .pre && same && decide (d < 33) then some 10
  else if a.kind == .write && b.kind == .read && !group && decide (d < 5) then some 11
  else if a.kind == .write && b.kind == .read && group && decide (d < 15) then some 12
  else if a.kind == .read && b.kind == .write && decide (d < 4) then some 13
  else if a.kind == .refAb && b.kind == .act && decide (d < 700) then some 14
  else if a.kind == .refPb && b.kind == .act && same && decide (d < 320) then some 15
  else none

/-- The row broken by two commands in whichever order they come. -/
def clashRow (a b : DramCmd) : Option Nat := if a.pos ≤ b.pos then brokenRow a b else brokenRow b a

/-- Whether an activate would be the fifth within 24 positions (tFAW). -/
def fiveActs (c : DramCmd) (l : List DramCmd) : Bool :=
  let ps := c.pos :: (l.filter (fun a => a.kind == .act)).map (fun a => a.pos)
  c.kind == .act && ps.any (fun p => decide (p ≤ c.pos) && decide (c.pos < p + 24) &&
    decide ((ps.filter (fun q => decide (p ≤ q) && decide (q < p + 24))).length > 4))

/-- The least of some row numbers. -/
def leastRow : List Nat → Option Nat
  | [] => none
  | a :: t =>
    match leastRow t with
    | none => some a
    | some b => some (Nat.min a b)

/-- The first row of the table that a command breaks against some others. -/
def commandRow (c : DramCmd) (l : List DramCmd) : Option Nat :=
  leastRow (l.filterMap (clashRow c) ++ (if fiveActs c l then [7] else []))

/-- The position of the precharge that follows a burst: the earliest that tRAS and tWR allow; `write` is the last write of the
bank's open row, where there is one. -/
def prechargeAt (burst act : Nat) (write : Option Nat) : Nat :=
  Nat.max (Nat.max (burst + 1) (act + 60)) (match write with
    | some w => w + 33
    | none => 0)

/-- The last write of a bank among some commands. -/
def lastWrite (bank : Nat) (l : List DramCmd) : Option Nat :=
  ((l.filter (fun c => c.kind == .write && c.bank == bank)).map (fun c => c.pos)).max?

/-- The last activate of a bank among some commands. -/
def lastAct (bank : Nat) (l : List DramCmd) : Nat :=
  (l.filter (fun c => c.kind == .act && c.bank == bank)).foldl (fun m c => Nat.max m c.pos) 0

/-- The commands that a word of a ring fixes at the position `q` it will have, those at `now` or before left out. -/
def fixedBy (now q w : Nat) : List DramCmd :=
  let b := wordBank w
  let all : List DramCmd := match wordKind w with
    | 1 => { kind := .read, pos := q, bank := b } :: (if wordAct w then [{ kind := .act, pos := q - 28, bank := b }] else []) ++
        (if wordAp w then [{ kind := .pre, pos := prechargeAt q (q - 28) none, bank := b }] else [])
    | 4 => [{ kind := .refAb, pos := q, bank := 0 }]
    | 5 => [{ kind := .refPb, pos := q, bank := b }]
    | 6 => { kind := .read, pos := q, bank := b } :: (if wordAct w then [{ kind := .act, pos := q - 28, bank := b }] else []) ++
        (if wordAp w then [{ kind := .pre, pos := prechargeAt q (q - 28) none, bank := b }] else [])
    | _ => []
  all.filter (fun c => decide (now < c.pos))

/-- The commands of a channel that the ring has already fixed after position `now`. -/
def Stack.fixed (x : Stack) (c now : Nat) : List DramCmd :=
  let p := x.positions
  let l := (x.ring.filter (fun y => y.1 % 32 == c))
  (l.map (fun y =>
    let ahead := (y.1 / 32 + p - now % p) % p
    let turns := rangeFrom 0 (760 / p + 1)
    (turns.map (fun n =>
      let q := now + (if ahead = 0 then p else ahead) + n * p
      if q ≤ now + 760 then fixedBy now q y.2 else [])).flatten)).flatten

/-- The commands of a channel so far. -/
def Stack.issued (x : Stack) (c : Nat) : List DramCmd := Assoc.get [] x.cmds c

/-- A channel with a command added; what no rule looks back to is forgotten. -/
def Stack.command (x : Stack) (c : Nat) (l : List DramCmd) : Stack :=
  { x with cmds := Assoc.set [] x.cmds c ((x.issued c).filter (fun d => decide (x.pos ≤ d.pos + 1024)) ++ l) }

/-- The open row of a bank at a position. -/
def Stack.openRow (x : Stack) (c bank k : Nat) : Option Nat :=
  match Assoc.get none x.rows (64 * c + bank) with
  | some (r, none) => some r
  | some (r, some q) => if k < q then some r else none
  | none => none

/-- A bank with its row set. -/
def Stack.setRow (x : Stack) (c bank : Nat) (r : Option (Nat × Option Nat)) : Stack :=
  { x with rows := Assoc.set none x.rows (64 * c + bank) r }

/-- Everything a command of a channel at position `k` is checked against. -/
def Stack.against (x : Stack) (c k : Nat) : List DramCmd := x.issued c ++ x.fixed c k

/-! ## Timing faults (R270, R280) -/

/-- The turn of the ring, counted from the setting of RUN, to which a position belongs. -/
def Stack.turnOf (x : Stack) (k : Nat) : Nat := (k - x.base) / x.positions

/-- The record of a timing fault: stack, row, turn and word index; for a read, the address and location of the line. That the
turn stands in bits [47:32], modulo 2^16, is the model's choice (DESIGN CHOICE, log 131). -/
def timingEv (st row turn ix va loc : Nat) : Ev :=
  evOf 18 5 (st * 2 ^ 56 + row * 2 ^ 48 + turn % 2 ^ 16 * 2 ^ 32 + ix) va (locationWord loc) (locationWord loc)

/-- The claims on a word that its position serves: those whose request had reached the controller before it began. -/
def Stack.claimsOn (x : Stack) (ix k : Nat) : List Claim :=
  x.claims.filter (fun c => c.word == ix && decide (5 * c.mill < 5 * x.t0 + 3 * (k - x.base)))

/-- The place of a copy's owner. -/
def Device.copyPlace (s : Device) (c : Copy) : Where :=
  { pc := c.pc, tick := (s.launch (c.key / 640)).tick, asid := s.keyAsid c.key, lslot := c.key / 640, core := c.key % 640 }

/-- An event of a timed copy: its owner's ream aborts and the launch ends (R270, R278, R280). Where the launch has ended already,
the copy alone is lost. -/
def endCopy (c : Copy) (e : Ev) (s : Device) : Device :=
  let l := c.key / 640
  let s := (s.record e (s.copyPlace c) { cls := 4, ends := true, replay := false }).1
  if (s.launch l).st = .active then endLaunch l false true s else dropCopies (fun y => decide (y = c)) s

/-- A read word that a timing rule refuses: every copy that claimed it loses the line. -/
def refuseRead (st row turn ix loc : Nat) : List Claim → Device → Device
  | [], s => s
  | c :: t, s =>
    refuseRead st row turn ix loc t (match Assoc.get none s.copies c.copy with
      | some y =>
        let va := match y.lines[c.line]? with
          | some x => x.1
          | none => 0
        endCopy y (timingEv st row turn ix va loc) s
      | none => s)

/-- A refused command of a word of a kind reported: with its copies if it is a claimed read; a read's or scrub's is of class 4, and
any other's of class 6 (R380). -/
def timingFault (st row ix k loc kind : Nat) (s : Device) : Device :=
  let x := s.stack st
  let cs := if kind = 1 then x.claimsOn ix k else []
  let cls := if kind = 1 ∨ kind = 6 then 4 else 6
  if cs.isEmpty then (s.record (timingEv st row (x.turnOf k) ix 0 loc) Where.device (Verdict.note cls)).1
  else refuseRead st row (x.turnOf k) ix loc cs s

/-! ## Reads (R276, R278) -/

/-- Whether a timed copy sees an entry (R209, R276): one that had entered when the copy issued, or one of an early commit of its own
sheet at its tick or before, at which it may have issued already (R300). -/
def Copy.sees (y : Copy) (e : WqEntry) : Bool :=
  decide (e.stamp ≤ y.mill) || (match e.early with
    | some (l, t) => l == y.key / 640 && decide (t ≤ y.issued)
    | none => false)

/-- The entries of a sheet's early commits that still wait to enter their queues. -/
def Device.earlyPending (s : Device) (l : Nat) : List WqEntry :=
  ((s.commits.filter (fun c => c.l == l)).map (fun c => c.pending.filter (fun e => e.early.isSome))).flatten

/-- A line as a timed copy sees it under its channel's queue (R276). -/
def Device.forwarded (s : Device) (y : Copy) (loc : Nat) (l : Line) : Line :=
  overlay loc l (((s.queue (locStack loc) (locCh loc)) ++ s.earlyPending (y.key / 640)).filter y.sees)

/-- The line of a word sent over the web to some claims' copies; reading and decoding it take a free time within the 40 mill ticks
that R272 allows for them (log 87). -/
def serveClaims (st loc : Nat) (d : Line) : List Claim → Device → Device
  | [], s => s
  | c :: t, s =>
    let s := match Assoc.get none s.copies c.copy with
      | some y =>
        let v := s.forwarded y loc d
        let (n, s) := s.draw
        let w : WebLine :=
          { stack := st, copy := c.copy, line := c.line, data := v,
            arrive := s.mill + crossing (y.key % 640) st + Config.pick n % 40 }
        { s with web := s.web ++ [w] }
      | none => s
    serveClaims st loc d t (s.setStack st { s.stack st with claims := (s.stack st).claims.filter (fun x => x != c) })

/-- The claims of an uncorrectable line: their launches end (R278). -/
def failClaims (loc : Nat) : List Claim → Device → Device
  | [], s => s
  | c :: t, s =>
    failClaims loc t (match Assoc.get none s.copies c.copy with
      | some y => endCopy y (evOf 26 1 (locationWord loc) 0 0 0) s
      | none => s)

/-- A read word performed (R276). -/
def readWord (st ix k loc : Nat) (s : Device) : Device :=
  let cs := (s.stack st).claimsOn ix k
  match rsDecode (s.cells loc) with
  | .clean l => serveClaims st loc l cs s
  | .corrected l e => serveClaims st loc l cs (s.note 0 Where.device (correctedEv loc e))
  | .bad => if cs.isEmpty then s.deviceEvent (evOf 26 1 (locationWord loc) 0 0 0) else failClaims loc cs s

/-- A scrub read performed (R279). What is written back is the corrected line under the entries that wait for it, so that it
undoes none of them. -/
def scrubWord (wb : Bool) (loc : Nat) (s : Device) : Device :=
  match rsDecode (s.cells loc) with
  | .clean _ => s
  | .corrected l e =>
    let s := s.note 0 Where.device (correctedEv loc e)
    let d := overlay loc l (s.queue (locStack loc) (locCh loc))
    if wb && s.lineOpen loc then enqueue { loc := loc, data := d, mask := fullMask, stamp := 0, turns := 0 } s else s
  | .bad => s.deviceEvent (evOf 26 3 (locationWord loc) 0 0 0)

/-! ## Writes (R275) -/

/-- Whether a read of an entry's line that was requested before the entry's stamp is still pending. -/
def Device.readPending (s : Device) (st : Nat) (e : WqEntry) : Bool :=
  (s.stack st).claims.any (fun c => c.loc == e.loc && (match Assoc.get none s.copies c.copy with
    | some y => !y.sees e
    | none => false))

/-- The queue of a channel without its head. -/
def popEntry (st c : Nat) (s : Device) : Device := s.setQueue st c ((s.queue st c).drop 1)

/-- An entry written to its line, by read-merge if its mask is partial (R275). -/
def writeEntry (st c : Nat) (e : WqEntry) (s : Device) : Device :=
  let s := popEntry st c s
  if e.mask = fullMask then s.writeCells e.loc e.data
  else
    match rsDecode (s.cells e.loc) with
    | .clean l => s.writeCells e.loc (mergeLine l e.data e.mask)
    | .corrected l x => (s.note 0 Where.device (correctedEv e.loc x)).writeCells e.loc (mergeLine l e.data e.mask)
    | .bad => s.deviceEvent (evOf 26 2 (locationWord e.loc) e.mask.toNat 0 0)

/-- The commands with which a write at position `k` would be made, with the row it leaves: none where its bank holds
another row. -/
def Stack.writePlan (x : Stack) (c k : Nat) (e : WqEntry) : Option (List DramCmd × Option (Nat × Option Nat)) :=
  let b := locBank e.loc
  let w : DramCmd := { kind := .write, pos := k, bank := b }
  match x.openRow c b k with
  | some r => if r = locRow e.loc then some ([w], Assoc.get none x.rows (64 * c + b)) else none
  | none =>
    if k < x.base + 28 then none
    else
      let q := prechargeAt k (k - 28) (some k)
      some ([{ kind := .act, pos := k - 28, bank := b }, w, { kind := .pre, pos := q, bank := b }], some (locRow e.loc, some q))

/-- The first row of the table that any of some commands breaks. -/
def planRow (l others : List DramCmd) : Option Nat := leastRow (l.filterMap (fun c => commandRow c others))

/-- A write position of a channel (R275): the head entry is written, or the position idles. -/
def writePosition (st c ix k : Nat) (s : Device) : Device :=
  match s.queue st c with
  | [] => s
  | e :: _ =>
    if s.readPending st e then s
    else
      let x := s.stack st
      match x.writePlan c k e with
      | none => timingFault st 16 ix k e.loc 2 s
      | some (cmds, row) =>
        match planRow cmds (x.against c k) with
        | some r => timingFault st r ix k e.loc 2 s
        | none => writeEntry st c e (s.setStack st ((x.command c cmds).setRow c (locBank e.loc) row))

/-- HWM and LWM. -/
def Stack.hwm (x : Stack) : Nat := bitField x.tlctl.toNat 33 7
/-- LWM. -/
def Stack.lwm (x : Stack) : Nat := bitField x.tlctl.toNat 40 6

/-- A word of a ring. -/
def Stack.wordAt (x : Stack) (p c : Nat) : Nat := (Assoc.get 0 x.words (32 * (p % x.positions) + c)).toNat

/-- A drain position (R275): the run's first decides whether the run writes, until the count falls to LWM. -/
def drainPosition (st c ix k : Nat) (s : Device) : Device :=
  let x := s.stack st
  let first := wordKind (x.wordAt (k + x.positions - 1) c) != 3
  let on := if first then decide ((s.queue st c).length ≥ x.hwm) else Assoc.get false x.drains c
  let s := s.setStack st { x with drains := Assoc.set false x.drains c on }
  if on then
    let s := writePosition st c ix k s
    let y := s.stack st
    if (s.queue st c).length ≤ y.lwm then s.setStack st { y with drains := Assoc.set false y.drains c false } else s
  else s

/-! ## Positions (R265) -/

/-- The activate of a word whose burst comes 28 positions later. -/
def activateWord (st c k : Nat) (s : Device) : Device :=
  let x := s.stack st
  let w := x.wordAt (k + 28) c
  let ix := 32 * ((k + 28) % x.positions) + c
  if (wordKind w = 1 ∨ wordKind w = 6) ∧ wordAct w = true then
    let b := wordBank w
    let loc := wordLoc st ix w
    let cmd : DramCmd := { kind := .act, pos := k, bank := b }
    let broken := if (x.openRow c b k).isSome then some 16 else commandRow cmd (x.against c k)
    match broken with
    | some r => timingFault st r ix (k + 28) loc (wordKind w) s
    | none => s.setStack st ((x.command c [cmd]).setRow c b (some (bitField w 39 14, none)))
  else s

/-- A read or scrub word's burst, with the precharge that AP asks for. -/
def burstWord (st c ix k w : Nat) (s : Device) : Device :=
  let x := s.stack st
  let b := wordBank w
  let loc := wordLoc st ix w
  let q := prechargeAt k (lastAct b (x.issued c)) (lastWrite b (x.issued c))
  let cmds : List DramCmd := { kind := .read, pos := k, bank := b } :: (if wordAp w then [{ kind := .pre, pos := q, bank := b }] else [])
  let broken := match planRow cmds (x.against c k) with
    | some r => some r
    | none => if x.openRow c b k = some (bitField w 39 14) then none else some 16
  match broken with
  | some r => timingFault st r ix k loc (wordKind w) s
  | none =>
    let y := x.command c cmds
    let y := if wordAp w then y.setRow c b (some (bitField w 39 14, some q)) else y
    let s := s.setStack st y
    if wordKind w = 1 then readWord st ix k loc s else scrubWord (bitAt w 9) loc s

/-- A refresh word (R266). -/
def refreshWord (st c ix k w : Nat) (s : Device) : Device :=
  let x := s.stack st
  let cmd : DramCmd := { kind := if wordKind w = 4 then .refAb else .refPb, pos := k, bank := if wordKind w = 4 then 0 else wordBank w }
  match commandRow cmd (x.against c k) with
  | some r => timingFault st r ix k (wordLoc st ix w) (wordKind w) s
  | none => s.setStack st (x.command c [cmd])

/-- The word of a channel at position `k`. -/
def channelWord (st k : Nat) (c : Nat) (s : Device) : Device :=
  let s := activateWord st c k s
  let x := s.stack st
  let ix := 32 * (k % x.positions) + c
  let w := x.wordAt k c
  match wordKind w with
  | 1 => burstWord st c ix k w s
  | 2 => writePosition st c ix k s
  | 3 => drainPosition st c ix k s
  | 4 => refreshWord st c ix k w s
  | 5 => refreshWord st c ix k w s
  | 6 => burstWord st c ix k w s
  | _ => s

/-- The words of some channels. -/
def channelWords (st k : Nat) : List Nat → Device → Device
  | [], s => s
  | c :: t, s => channelWords st k t (channelWord st k c s)

/-- The head entries of a stack's queues after a turn (R301). -/
def countTurns (x : Stack) : Stack :=
  { x with queues := x.queues.map (fun p => (p.1, match p.2 with
      | [] => []
      | e :: t => { e with turns := if e.turns ≥ 65 then 65 else e.turns + 1 } :: t)) }

/-- The mill tick at which the next position of a stack begins. -/
def Stack.nextTick (x : Stack) : Nat := x.t0 + 3 * (x.pos - x.base) / 5

/-- TIMELINE_POSITION (R265): the next position of a stack's ring, each channel's word in turn. -/
def timelinePosition (st : Nat) (s : Device) : Device :=
  let x := s.stack st
  if x.running = false ∨ s.mill < x.nextTick then s
  else
    let k := x.pos
    let s := channelWords st k (rangeFrom 0 32) s
    let y := s.stack st
    let y := { y with pos := k + 1 }
    s.setStack st (if (k + 1) % x.positions = 0 then countTurns y else y)

/-- DRAIN_STALL (R301): a head entry that has not left after 64 turns is reported, once. -/
def drainStall (st ch : Nat) (s : Device) : Device :=
  match s.queue st ch with
  | [] => s
  | e :: t =>
    if e.turns = 64 then
      (s.setQueue st ch ({ e with turns := 65 } :: t)).deviceEvent (evOf 27 0 (locationWord e.loc) 0 0 0)
    else s

/-! ## The web (R269, R272) -/

/-- A copy with a line's data. -/
def Copy.arrived (c : Copy) (n : Nat) (d : Line) : Copy :=
  { c with lines := (c.lines.zip (rangeFrom 0 c.lines.length)).map (fun p =>
      if p.2 = n then (p.1.1, p.1.2.1, p.1.2.2.1, some d) else p.1) }

/-- Lines that reach their copies' port. -/
def deliverLines : List WebLine → Device → Device
  | [], s => s
  | w :: t, s =>
    deliverLines t (match Assoc.get none s.copies w.copy with
      | some c => { s with copies := Assoc.set none s.copies w.copy (some (c.arrived w.line w.data)) }
      | none => s)

/-- WEB_LINE_ARRIVAL (R269): the lines of a stack that reach their copy ports by now. -/
def webLineArrival (st : Nat) (s : Device) : Device :=
  let here := fun (w : WebLine) => w.stack == st && decide (w.arrive ≤ s.mill)
  deliverLines (s.web.filter here) { s with web := s.web.filter (fun w => !here w) }

end Sys2Proof.Machine
end

