-- ==== Sys2Proof/Machine/Untimed.lean ====
section
/-! DEFINITION. The untimed engines: copies (R202, R217, R245, R343, R348), signals to barriers of other sheaves (R253),
the Viterbi engines (R180, R181), queue entries that wait (R255), and shoot-downs (R303, R341, R398). -/

namespace Sys2Proof.Machine

/-! ## Untimed copies (R217, R245) -/

/-- The untimed copy of a number. -/
def Device.ucopy (s : Device) (n : Nat) : Option UCopy := Assoc.get none s.ucopies n

/-- The state with an untimed copy replaced. -/
def Device.setUcopy (s : Device) (n : Nat) (u : Option UCopy) : Device := { s with ucopies := Assoc.set none s.ucopies n u }

/-- Whether a context that a copy reaches has been streamed out or has ended (R343). -/
def Device.ctxGone (s : Device) : Option (Nat × Nat) → Bool
  | none => false
  | some (key, gen) => !(s.ctxAt key).present || (s.launch (key / 640)).gen != gen

/-- A copy whose target context is found gone: an asynchronous error, once (R343). -/
def noteGone (u : UCopy) (s : Device) : UCopy × Device :=
  if u.gone then (u, s) else ({ u with gone := true }, asyncError u.key 6 0 0 0 s)

/-- The part of a destination row that lies in a line: the first byte's address and the number of bytes. -/
def CopySpec.pieceOf (c : CopySpec) (row line : Nat) : Nat × Nat :=
  let a := c.rowAt row
  let lo := Nat.max a line
  (lo, Nat.min (a + c.rowBytes) (line + 64) - lo)

/-- The source lines of the elements of a destination row that have bytes in a piece. -/
def CopySpec.sourceLines (c : CopySpec) (row lo n : Nat) : List Nat :=
  let first := (lo - c.rowAt row) / c.eb
  let last := (lo + n - 1 - c.rowAt row) / c.eb
  rising (((rangeFrom first (last + 1 - first)).map (fun i0 =>
    let c0 := c.field 224 16 + (if c.transposes then row else i0)
    let c1 := c.field 240 16 + (if c.transposes then i0 else row)
    if c0 ≥ c.field 160 16 ∨ c1 ≥ c.field 176 16 then []
    else (spanLines (c.src + c1 * c.field 128 32 + c0 * c.eb) c.eb).map (fun a => if c.fromSp then a else va48 a))).flatten)

/-- A byte of the source as read so far. -/
def UCopy.byte (u : UCopy) (a : Nat) : Byte :=
  let b := if u.spec.fromSp then a else va48 a
  match u.got.find? (fun p => p.1 == b / 64 * 64) with
  | some p => (lineBytes p.2).getD (b % 64) 0
  | none => 0

/-- The bytes of a piece of a destination row. -/
def UCopy.pieceBytes (u : UCopy) (row lo n : Nat) : List Byte :=
  let c := u.spec
  let codes := (rangeFrom 0 c.d0).map (fun i0 => (c.code u.byte i0 row).getD 0)
  ((bytesOf c.rowBytes (ofElems (fmtWidth c.dfmt) codes)).drop (lo - c.rowAt row)).take n

/-- A request to the peer that a physical address names (R348), with the data of a write: whether the peer refuses it,
which it may, and then both ends record it. -/
def askPeer (u : UCopy) (g : GAddr) (w : Option (Line × BitVec 64)) (s : Device) : Bool × Device :=
  let r := (Assoc.get 0 s.route (bitField g.pa 38 6)).toNat
  let q : PeerReq :=
    { dest := BitVec.ofNat 16 (bitField r 0 16), src := BitVec.ofNat 16 s.woveAddr, ptag := BitVec.ofNat 16 (s.asTag u.asid), hops := 0, entry := BitVec.ofNat 8 (bitField g.pa 30 8),
      offset := BitVec.ofNat 30 (bitField g.pa 0 30), write := w }
  let link := bitField r 48 4
  let dest := bitField r 0 16
  if s.linkUp link = false then (true, asyncError u.key 2 dest 0 0 s)
  else
    let (k, s) := s.draw
    if Config.choice k then (true, dropFlit link dest 0 s)
    else
      let (k, s) := ({ s with outbox := s.outbox ++ [.peer link q] } : Device).draw
      if Config.choice k then (true, asyncError u.key 3 dest 0 0 s) else (false, s)

/-- A global source line: none where the copy fails on it (R278). -/
def readSource (u : UCopy) (a : Nat) (s : Device) : Option Line × Device :=
  match u.srcPages.find? (fun p => p.1 == a) with
  | none => (some 0, s)
  | some (_, g) =>
    if paTarget g.pa = 0 then readLine (dramMap g.pa g.im g.sw) s
    else if paTarget g.pa = 1 then (some (lineOf (Memory.readBytes s.hostMem (g.pa % 2 ^ 44) 64)), s)
    else
      let (no, s) := askPeer u g none s
      if no then (some 0, s)
      else
        let (b, s) := freeBytes 64 s
        (some (lineOf b), s)

/-- A source line of a copy read (R217); a scratchpad line through a free bank-tick. -/
def copySourceLine (n a : Nat) (u : UCopy) (s : Device) : Device :=
  if u.spec.fromSp then
    if s.ctxGone u.srcCtx then
      let (u, s) := noteGone u s
      s.setUcopy n (some { u with got := u.got ++ [(a, 0)] })
    else if s.bankFree a = false then s
    else
      let (due, s) := s.later
      s.setUcopy n (some { u with got := u.got ++ [(a, lineOf (Memory.readBytes s.spad a 64))], due := due })
  else
    match readSource u a s with
    | (some d, s) =>
      let (due, s) := s.later
      s.setUcopy n (some { u with got := u.got ++ [(a, d)], due := due })
    | (none, s) => s.setUcopy n (some { u with failed := true })

/-- The bytes of a destination line that some rows write, each piece with its first address, in the order of the rows. -/
def UCopy.linePieces (u : UCopy) (line : Nat) (rows : List Nat) : List (Nat × List Byte) :=
  rows.map (fun row =>
    let p := u.spec.pieceOf row line
    (p.1, u.pieceBytes row p.1 p.2))

/-- Pieces of a global destination line written at one instant. -/
def writeGlobal (u : UCopy) (g : GAddr) (line : Nat) (ps : List (Nat × List Byte)) (s : Device) : Device :=
  let bs : List GByte := (ps.map (fun p => (p.2.zip (rangeFrom 0 p.2.length)).map (fun q =>
    { addr := g.plus (p.1 - line + q.2), val := q.1 }))).flatten
  let e := bytesEntry g bs
  if paTarget g.pa = 2 then (askPeer u g (some (e.data, e.mask)) s).2
  else if paTarget g.pa = 0 then enqueue e s
  else { s with hostMem := hostBytes s.hostMem bs }

/-- A destination line of a copy written at one instant, with the parts of every row in it (R217, R245); a scratchpad line
through a free bank-tick, a device line where its queue has room. -/
def copyDestLine (n line : Nat) (rows : List Nat) (rest : List (Nat × Nat)) (u : UCopy) (s : Device) : Device :=
  let ps := u.linePieces line rows
  let next := fun (u : UCopy) (s : Device) =>
    let (due, s) := s.later
    s.setUcopy n (some { u with todo := rest, due := due })
  if u.spec.global then
    match u.dstPages.find? (fun p => p.1 == va48 line) with
    | none => next u s
    | some (_, g) => if s.engineRoom g || paTarget g.pa == 2 then next u (writeGlobal u g line ps s) else s
  else if s.ctxGone u.dstCtx then
    let (u, s) := noteGone u s
    next u s
  else if s.bankFree line then next u (writePieces ps s)
  else s

/-- The requests of a core's copy engine ahead of the untimed copy of a number (R19): the lines that its timed copies have still to
read, and one of each untimed copy begun before it. -/
def Device.requestsAhead (s : Device) (core n : Nat) : Nat :=
  (s.copies.map (fun p => match p.2 with
    | some c => if c.key % 640 = core then (c.lines.filter (fun y => y.2.2.2.isNone)).length else 0
    | none => 0)).foldl (· + ·) 0 +
  (s.ucopies.filter (fun p => decide (p.1 < n) && (match p.2 with
    | some u => u.started && u.key % 640 == core
    | none => false))).length

/-- UNTIMED_COPY_LINE (R202, R217): a copy's next access. One that an abort has stopped ends here (R262). It waits while 1,024
requests of its engine are outstanding (R19; DESIGN CHOICE, log 133). -/
def untimedCopyLine (n : Nat) (s : Device) : Device :=
  match s.ucopy n with
  | none => s
  | some u =>
    if u.started = false ∨ s.mill < u.due then s
    else if u.stopped then s.setUcopy n none
    else if u.failed ∨ s.requestsAhead (u.key % 640) n ≥ 1024 then s
    else
      match u.todo with
      | [] => s
      | (_, line) :: _ =>
        let rows := (u.todo.filter (fun p => p.2 == line)).map (fun p => p.1)
        let rest := u.todo.filter (fun p => p.2 != line)
        let needs := (rows.map (fun row =>
          let p := u.spec.pieceOf row line
          u.spec.sourceLines row p.1 p.2)).flatten
        match needs.find? (fun a => !u.got.any (fun p => p.1 == a)) with
        | some a => copySourceLine n a u s
        | none => copyDestLine n line rows rest u s

/-- UNTIMED_COPY_COMPLETE (R245): every line is written; then the header, then the signal. A copy that found an
uncorrectable line ends without them (R278). -/
def untimedCopyComplete (n : Nat) (s : Device) : Device :=
  match s.ucopy n with
  | none => s
  | some u =>
    if u.started = false ∨ s.mill < u.due ∨ u.stopped = true then s
    else if u.failed then s.setUcopy n none
    else if u.todo.isEmpty = false then s
    else if (match u.header with
        | some h => !s.ctxGone u.dstCtx && !s.bankFree h
        | none => false) then s
    else
      let s := s.setUcopy n none
      let s := match u.header with
        | some h => if s.ctxGone u.dstCtx then s else untimedHeader h u.spec.typ s
        | none => s
      engineSignal u.key u.bar s

/-! ## Signals to other sheaves (R253) -/

/-- BARRIER_SIGNAL_DELIVERY (R202, R253): a signal under way writes what it may, and reaches its barrier through a free
bank-tick. -/
def barrierSignalDelivery (n : Nat) (s : Device) : Device :=
  match Assoc.get none s.signals n with
  | none => s
  | some g =>
    if s.mill < g.due then s
    else
      let (r, s) := deliverSignal g s
      { s with signals := Assoc.set none s.signals n r }

/-- QUEUE_ENTRY_ENTER (R255): the entries that wait for a queue of a core enter it in their order, as far as there is room. -/
def queueEntryEnter (core : Nat) (q : Fin 4) (s : Device) : Device := enterQueues core q [] s.queueWaits s

/-! ## The Viterbi engines (R180) -/

/-- A path's cost with the step that reached its state, if one did: the state before it and the bits appended. -/
structure VtNode where
  cost : Exact
  from_ : Option (Nat × Nat)
deriving DecidableEq, Repr

/-- An FP32 value rounded to nearest. -/
def fp32Exact (x : Exact) : Exact := decodeFloat .fp32 (toFp32 x).1

/-- The target that a window makes for weight `i`. -/
def vtTarget (w : BitVec 192) (sc : Nat → Byte) (i win : Nat) : Exact :=
  fp32Exact (laidWeight (laidValue win (lwMixm w) (lwMixc w)) (sc (i / 64)).toNat)

/-- The cost of a step with a squared error (R180). -/
def vtCost (old target y : Exact) : Exact :=
  let d := fp32Exact (target.sub y)
  fp32Exact (old.add (fp32Exact (d.mul d)))

/-- The lesser of a node and a candidate; the earlier stays on ties, and a NaN is not less. -/
def vtKeep (n : VtNode) (c : Exact) (st b : Nat) : VtNode :=
  if c ≠ .nan ∧ (n.cost.cmp c > 0) then { cost := c, from_ := some (st, b) } else n

/-- The node of state `s2` after a step: its windows in ascending order, so that its predecessors ascend. -/
def vtState (w : BitVec 192) (sc : Nat → Byte) (i : Nat) (target : Exact) (cost : List Exact) (s2 : Nat) : VtNode :=
  let k := lwKw w
  let m := 2 ^ (lwWl w - k)
  (rangeFrom (s2 * 2 ^ k) (2 ^ k)).foldl (fun n win =>
    vtKeep n (vtCost (cost.getD (win % m) (.inf false)) target (vtTarget w sc i win)) (win % m) (win / m))
    { cost := .inf false, from_ := none }

/-- A pass over the weights from `i` on: the final costs, and the kept steps of each weight. -/
def vtPass (w : BitVec 192) (sc : Nat → Byte) (tgt : Nat → Exact) (i : Nat) : Nat → List Exact → List Exact × List (List VtNode)
  | 0, cost => (cost, [])
  | n + 1, cost =>
    let nodes := (rangeFrom 0 (2 ^ (lwWl w - lwKw w))).map (vtState w sc i (tgt i) cost)
    let (fin, rest) := vtPass w sc tgt (i + 1) n (nodes.map (fun x => x.cost))
    (fin, nodes :: rest)

/-- The state of least cost, the lowest on ties. -/
def vtLeast (best : Nat) (c : Exact) (i : Nat) : List Exact → Nat
  | [] => best
  | x :: t => if c.cmp x > 0 then vtLeast i x (i + 1) t else vtLeast best c (i + 1) t

/-- The bits of each step of the path that ends at a state, last step first; a state that no step reached has been left
by a free one. -/
def vtTrace (w : BitVec 192) (free : Nat) (st : Nat) : List (List VtNode) → List Nat
  | [] => []
  | nodes :: t =>
    let k := lwKw w
    let m := 2 ^ (lwWl w - k)
    let win := st * 2 ^ k + Config.pick (free + t.length) % 2 ^ k
    let (p, b) := match nodes[st]? with
      | some x => x.from_.getD (win % m, win / m)
      | none => (win % m, win / m)
    b :: vtTrace w free p t

/-- The stream of the bits of each step (R180). -/
def vtStream (w : BitVec 192) (bits : List Nat) : Nat :=
  let k := lwKw w
  let total := lwBits w
  ((bits.zip (rangeFrom 0 bits.length)).map (fun p =>
    ((rangeFrom 0 k).map (fun j => bitField p.1 j 1 * 2 ^ ((lwWl w - k + p.2 * k + j) % total))).foldl (· + ·) 0)).foldl (· + ·) 0

/-- The encoding of some targets: the stream and the result word (R180). Its deliveries set no flag of a context, since
R112 names no tick of such a result (DESIGN CHOICE, log 146). -/
def vtEncode (w : BitVec 192) (sc : Nat → Byte) (tgt : Nat → Exact) (free : Nat) : Nat × Nat :=
  let n := lwN w
  let m := 2 ^ (lwWl w - lwKw w)
  let (c1, k1) := vtPass w sc tgt 0 n (List.replicate m (.zero false))
  let e1 := match c1 with
    | [] => 0
    | c :: t => vtLeast 0 c 1 t
  let (c2, k2) := vtPass w sc tgt 0 n ((rangeFrom 0 m).map (fun st => if st = e1 then .zero false else .inf false))
  let s1 := vtStream w (vtTrace w free e1 k1.reverse).reverse
  let s2 := vtStream w (vtTrace w (free + n) e1 k2.reverse).reverse
  (s2, (toFp32 (c2.getD e1 (.inf false))).1 + bitOf (decide (s1 ≠ s2)) * 2 ^ 32)

/-- The key of the first scale of a command. -/
def Device.vtScales (s : Device) (c : VtCmd) : Nat :=
  spKey (c.key % 640) ((s.launch (c.key / 640)).spPhys (c.key % 640) (lwGsptr c.lw))

/-- The lines that a command reads: its targets and its scales, one for each 64 weights. -/
def Device.vtLines (s : Device) (c : VtCmd) : List Nat :=
  distinct [] (spanLines (spKey (c.key % 640) c.tgt) (4 * lwN c.lw) ++ spanLines (s.vtScales c) (ceilDiv (lwN c.lw) 64))

/-- A byte of the lines that a command has read. -/
def VtCmd.byte (c : VtCmd) (a : Nat) : Byte :=
  match c.got.find? (fun p => p.1 == a / 64 * 64) with
  | some p => (lineBytes p.2).getD (a % 64) 0
  | none => 0

/-- A command with what it reads of some lines, each through a free bank-tick (R202). -/
def Device.vtRead (s : Device) (c : VtCmd) : VtCmd :=
  let new := (s.vtLines c).filter (fun a => !c.got.any (fun p => p.1 == a) && s.bankFree a)
  { c with got := c.got ++ new.map (fun a => (a, lineOf (Memory.readBytes s.spad a 64))) }

/-- VTENC_SERVICE (R179, R180): an idle engine reads the targets and scales of its oldest command; once they are there it
takes the command, and the service takes 2n + 64 ticks. -/
def vtencService (q : Nat) (s : Device) : Device :=
  match Assoc.get none s.vtBusy q, Assoc.get [] s.vtQueues q with
  | none, c :: t =>
    let c := s.vtRead c
    if (s.vtLines c).all (fun a => c.got.any (fun p => p.1 == a)) = false then { s with vtQueues := Assoc.set [] s.vtQueues q (c :: t) }
    else
      let sc := fun (j : Nat) => c.byte (s.vtScales c + j)
      let tgt := fun (i : Nat) =>
        decodeFloat .fp32 (ofBytes ((rangeFrom 0 4).map (fun k => c.byte (spKey (c.key % 640) c.tgt + 4 * i + k))))
      let n := lwN c.lw
      let (bits, r) := vtEncode c.lw sc tgt (2 ^ 129 + s.fresh * 2 ^ 30)
      let b : VtBusy := { cmd := c, done := s.mill + 2 * n + 64, bytes := bytesOf (lwBits c.lw / 8) bits, result := dbl r }
      { s with vtQueues := Assoc.set [] s.vtQueues q t, vtBusy := Assoc.set none s.vtBusy q (some b), fresh := s.fresh + 1 }
  | _, _ => s

/-- VTENC_COMPLETE (R180): the stream is written at SPTR, the result at RESA, and BAR is signalled. -/
def vtencComplete (q : Nat) (s : Device) : Device :=
  match Assoc.get none s.vtBusy q with
  | none => s
  | some b =>
    if s.mill < b.done then s
    else
      let s := { s with vtBusy := Assoc.set none s.vtBusy q none }
      let core := b.cmd.key % 640
      if (s.ctxAt b.cmd.key).present = false then asyncError b.cmd.key 6 0 0 0 s
      else
        let x := s.launch (b.cmd.key / 640)
        let data := linePieces (spKey core (x.spPhys core (lwSptr b.cmd.lw))) b.bytes ++ linePieces (spKey core b.cmd.res) (bytesOf 8 b.result.toNat)
        engineDone { key := b.cmd.key, at_ := spKey core b.cmd.bar, v := 1, due := 0, data := data, header := none, note := none, vt := true } s

/-! ## Shoot-downs (R303, R341, R398) -/

/-- SHOOTDOWN_START (R398): the shoot-down at the front of the queue begins at every copy engine; those of a gated sheaf
have acknowledged (R303). -/
def shootdownStart (s : Device) : Device :=
  match s.shootNow, s.shootQ with
  | none, r :: t =>
    let all := (rangeFrom 0 640).filter (fun core => !(s.sheaf (core / 4)).gated)
    let s := all.foldl (fun s core => invalidate core r.scope r.asid r.page s) { s with shootQ := t }
    { s with shootNow := some { req := r, waiting := all } }
  | _, _ => s

/-- Whether a request in flight uses an entry of a core within a scope (R303). -/
def Device.stillUsed (s : Device) (core : Nat) (r : Shoot) : Bool :=
  (s.tlb core).any (fun e => e.dying && e.within r.scope r.asid r.page && s.entryBusy core e)

/-- Whether a sheet stands in a state in which a shoot-down makes its abort request (R297, R303): a hold, a trap stop, a
debug halt. -/
def Launch.stands (x : Launch) : Bool :=
  x.st == .active && (match x.mode with
    | .hold _ => true
    | .stop => true
    | .halt _ => true
    | _ => false)

/-- Whether the buffered effects and timed copies of a sheet on a core use a dying entry within a scope (R297, R303). -/
def Device.ownUse (s : Device) (l core : Nat) (r : Shoot) : Bool :=
  (s.tlb core).any (fun e =>
    e.dying && e.within r.scope r.asid r.page && e.serves core (s.reamPages (fun key => key == ctxKey l core)))

/-- The mill tick at which a hold began; zero for a sheet that stands still otherwise (R380). -/
def Launch.heldSince (x : Launch) : Nat :=
  match x.mode with
  | .hold t => t
  | _ => 0

/-- Whether the sheet active on a core stands still. -/
def Device.standsOn (s : Device) (core : Nat) : Bool :=
  match (s.sheaf (core / 4)).active with
  | some l => (s.launch l).stands
  | none => false

/-- SHOOTDOWN_ACK (R303): a copy engine acknowledges once no request uses a dying entry, and at once where its sheet stands
still, which is made to abort if its own effects use one. -/
def shootdownAck (core : Nat) (s : Device) : Device :=
  match s.shootNow with
  | none => s
  | some n =>
    if n.waiting.contains core = false then s
    else
      let t := match (s.sheaf (core / 4)).active with
        | some l =>
          let x := s.launch l
          if x.stands && s.ownUse l core n.req then abortRequest l 3 x.heldSince s else s
        | none => s
      if t.stillUsed core n.req && !s.standsOn core then t
      else acknowledge [core] (t.reapTlb core)

/-- SHOOTDOWN_COMPLETE (R341, R398): every engine has acknowledged. -/
def shootdownComplete (s : Device) : Device :=
  match s.shootNow with
  | none => s
  | some n =>
    if n.waiting.isEmpty = false then s
    else
      let s := { s with shootNow := none }
      match n.req.bar with
      | some (key, bar) => engineSignal key bar s
      | none => { s with shootDone := s.shootDone + 1 }

end Sys2Proof.Machine
end

