-- ==== Sys2Proof/Machine/Wove.lean ====
section
/-! DEFINITION. What arrives over the wove (R256 to R258, R346 to R350, R418, R419): all-reduce contributions and their
results, frames for receive windows, accesses of peers to exported memory, and links that come up and go down. -/

namespace Sys2Proof.Machine

/-- The lowest enabled address space with a PTAG (R347). -/
def Device.tagSpace (s : Device) (tag : Nat) : Option Nat := (rangeFrom 0 256).find? (fun a => s.asEnabled a && s.asTag a == tag)

/-! ## All-reduce (R258, R349, R350, R418, R419) -/

/-- The progress of a number against a group's count: ahead of it, or already taken (R350). -/
def countAhead (k count : Nat) : Bool := decide ((k + 65536 - count % 65536) % 65536 < 32768)

/-- Whether a FRED in progress is that of a number of a group. -/
def Fred.isFor (x : Fred) (asid g k : Nat) : Bool := x.asid == asid && x.group == g && x.k == k

/-- A contribution added to the FRED of its number (R258). -/
def combine (n : Nat) (x : Fred) (f : FredFrame) (s : Device) : Device :=
  let y := { x with arrived := addArrived x.members x.arrived [f] }
  let (due, s) := s.later
  { s with freds := Assoc.set none s.freds n (some (y.ready due)) }

/-- A stale contribution dropped (R350). -/
def staleContribution (f : FredFrame) (s : Device) : Device := linkError 7 f.src.toNat 0 0 s

/-- A contribution for this module (R258, R350): combined, held for its number, or dropped. -/
def receiveContribution (f : FredFrame) (s : Device) : Device :=
  match s.tagSpace f.ptag.toNat with
  | none => linkError 2 f.src.toNat 0 0 s
  | some asid =>
    let g := f.group.toNat
    let k := f.k.toNat
    let s := noteTable ((s.asGroups asid).1 + 128 * g) 128 s
    if (s.groupMembers asid g).contains f.src.toNat = false then linkError 2 f.src.toNat 0 0 s
    else
      match s.freds.find? (fun p => match p.2 with
        | some x => x.isFor asid g k
        | none => false) with
      | some (n, some x) => if x.due = 0 then combine n x f s else staleContribution f s
      | _ =>
        if countAhead k (Assoc.get 0 s.fredCount (asid * 256 + g)) then
          { s with held := Assoc.set none s.held s.seq (some { f := f, asid := asid, at_ := s.mill }), seq := s.seq + 1 }
        else staleContribution f s

/-- What arrived for another module forwarded, unless it has made 15 hops or has no route (R346). -/
def forward (dest src win hops : Nat) (o : Nat → Out) (s : Device) : Device :=
  match (if hops ≥ 15 then none else s.routeTo dest) with
  | none => linkError 2 src win 0 s
  | some link => sendOver link dest win (o link) s

/-- FRED_CONTRIBUTION_ARRIVAL (R258, R346, R350): a contribution for another module is forwarded. -/
def fredContributionArrival (l : Nat) (f : FredFrame) (s : Device) : Device :=
  receiveOver l f.src.toNat 0 (fun s =>
    if f.dest.toNat = s.woveAddr then receiveContribution f s
    else forward f.dest.toNat f.src.toNat 0 f.hops (fun link => .fred link { f with hops := f.hops + 1 }) s) s

/-- The width and kind of a FRED format: FP32, BF16, I32, N32. -/
def fredWidth (fmt : Nat) : Nat := if fmt = 1 then 16 else 32

/-- The floating format of a FRED. -/
def fredFloat (fmt : Nat) : FloatFmt := if fmt = 1 then .bf16 else .fp32

/-- One element of the result from the members' elements (R129, R111, R126, R258). -/
def fredElem (op fmt : Nat) (xs : List Nat) : Nat :=
  if fmt ≤ 1 then
    let vs := xs.map (decodeFloat (fredFloat fmt))
    let r := if op = 0 then (reduceSum vs).1
      else if op = 1 then reduceBy maxExact (.inf true) vs
      else reduceBy minExact (.inf false) vs
    (deliver modesRne 0 (.fl (fredFloat fmt)) r).1
  else
    let signed := fmt == 2
    let vs := xs.map (fun x => if signed then signedOf 32 x else (x : Int))
    if op = 0 then
      let t := vs.foldl (· + ·) 0
      let lo : Int := if signed then -(2 ^ 31 : Nat) else 0
      let hi : Int := if signed then (2 ^ 31 - 1 : Nat) else (2 ^ 32 - 1 : Nat)
      codeOfInt 32 (if t < lo then lo else if t > hi then hi else t)
    else
      match vs with
      | [] => 0
      | v :: t => codeOfInt 32 (t.foldl (fun a b => if op = 1 then (if a < b then b else a) else (if b < a then b else a)) v)

/-- The bytes of the result of a FRED. -/
def Fred.result (x : Fred) : List Byte :=
  let n := fredField x.bits 96 16
  let fmt := fredField x.bits 123 3
  let op := fredField x.bits 120 3
  let w := fredWidth fmt
  bytesOf n (ofElems w ((rangeFrom 0 (8 * n / w)).map (fun i =>
    fredElem op fmt (x.arrived.map (fun p => elemAt w p.2.data.toNat i)))))

/-- Whether some member disagrees on BYTES, OP or FMT. -/
def Fred.mismatch (x : Fred) : Bool :=
  x.arrived.any (fun p => p.2.bytes != fredField x.bits 96 16 || p.2.op.toNat != fredField x.bits 120 3 ||
    p.2.fmt.toNat != fredField x.bits 123 3)

/-- The first member whose contribution has not arrived. -/
def Fred.missing (x : Fred) : Nat :=
  match (x.members.zip (rangeFrom 0 x.members.length)).find? (fun p => !x.arrived.any (fun q => q.1 == p.2)) with
  | some p => p.1
  | none => 0xFFFF

/-- A FRED ended with a status: DST when it is 0, STATUS in byte 16 of the record, and BAR (R258, R419). -/
def endFred (n : Nat) (x : Fred) (status : Nat) (s : Device) : Device :=
  let s := { s with freds := Assoc.set none s.freds n none }
  let s := if status = 2 then asyncError x.key 5 x.missing 0 0 s else s
  let core := x.key % 640
  let y := s.launch (x.key / 640)
  let key := fun (a : Nat) => spKey core (y.spPhys core a)
  let data := (if status = 0 then linePieces (key (fredField x.bits 32 32)) x.result else []) ++ [(x.at_ + 16, [BitVec.ofNat 8 status])]
  engineDone { key := x.key, at_ := key (fredField x.bits 64 32), v := 1, due := 0, data := data, header := none, note := none } s

/-- FRED_COMPLETE (R258): every contribution is there, or a member cannot be reached. -/
def fredComplete (n : Nat) (s : Device) : Device :=
  match Assoc.get none s.freds n with
  | none => s
  | some x =>
    if x.due ≠ 0 ∧ x.due ≤ s.mill then endFred n x (if x.mismatch then 1 else if x.lost then 2 else 0) s
    else if x.lost ∧ x.due = 0 ∧ x.left < s.mill then endFred n x 2 s
    else s

/-- FRED_TIMEOUT (R349): a contribution has not come within 2^HOLDL mill ticks. -/
def fredTimeout (n : Nat) (s : Device) : Device :=
  match Assoc.get none s.freds n with
  | none => s
  | some x => if x.due = 0 ∧ s.mill - x.left ≥ s.holdLimit then endFred n x 2 s else s

/-- FRED_HELD_EXPIRY (R350): a contribution held too long is dropped. -/
def fredHeldExpiry (n : Nat) (s : Device) : Device :=
  match Assoc.get none s.held n with
  | none => s
  | some h => if s.mill - h.at_ ≥ s.holdLimit then staleContribution h.f { s with held := Assoc.set none s.held n none } else s

/-! ## Receive windows (R257, R344, R347) -/

/-- A field of a window entry. -/
def windowField (w : BitVec 256) (lo n : Nat) : Nat := bitField w.toNat lo n

/-- Whether an extent of an expected type agrees with a received one: an unbound variable accepts any value (R257). -/
def extentFits (dv : Dims) (want got : Nat) : Bool :=
  match term dv want with
  | .var _ => true
  | .value a =>
    match term dv got with
    | .value b => a == b
    | .var _ => false

/-- The first field in which a received type word fails an expected type; none when it matches (R257, R148). -/
def typeMismatch (dv : Dims) (want got : Nat) : Option Nat :=
  let same := fun (f : Nat → Nat) (code : Nat) => if f want = f got then none else some code
  let ext := fun (i : Nat) => if i < tRank want ∧ extentFits dv (tExt want i) (tExt got i) = false then some (2 + i) else none
  (((((((same tRank 1).or (ext 0)).or (ext 1)).or (ext 2)).or (same tFmt 5)).or (same tLayout 6)).or (same tSblk 7)).or
    (((same tSaxis 8).or (same tSfmt 9)).or (same tCbx 10))

/-- A wove receive queue entry (R257). -/
def receiveEntry (err : Bool) (peer field win : Nat) : Dbl := dbl (bitOf err * 2 ^ 63 + peer * 2 ^ 32 + field % 256 * 2 ^ 24 + win * 2 ^ 16)

/-- What a window's notification still has to do once some bytes and a header are written (R257); an entry for a queue has come
over a link. -/
def notifyWindow (link key : Nat) (w : BitVec 256) (e : Dbl) (data : List (Nat × List Byte)) (header : Option (Nat × Dbl)) (s : Device) :
    Device :=
  let x := s.launch (key / 640)
  let core := key % 640
  let mode := windowField w 4 4
  let note : Option (Nat × Fin 4 × Dbl) := if mode = 0 then none else if mode = 1 then some (link, 0, e) else some (link, 1, e)
  engineDone { key := key, at_ := spKey core (x.spPhys core (windowField w 96 21)), v := if mode = 0 then 1 else 0, due := 0,
                data := data, header := header, note := note } s

/-- The data rows of a frame as its type lays them out in a region: the row length and the rows. -/
def frameRows (f : WoveFrame) (dv : Dims) (h : Header) : Except Shape (List (List Byte)) := do
  let w := f.typ.toNat
  if tLayout w = 3 then
    let all := (f.rows.map (fun r => bytesOf 256 r.toNat)).flatten
    .ok ((rangeFrom 0 h.pitch).map (fun j => (all.drop (64 * j)).take 64))
  else
    let st ← regionStorage dv w 5
    if st.len > 64 * h.pitch then shapeErr 5 12 st.len (64 * h.pitch)
    else .ok ((f.rows.take st.rows).map (fun r => bytesOf st.len r.toNat))

/-- The address step of a received row. -/
def rowStep (h : Header) (w : Nat) : Nat := if tLayout w = 3 then 64 else 64 * h.pitch

/-- The pieces of rows written one after another. -/
def rowPieces (step a : Nat) : List (List Byte) → List (Nat × List Byte)
  | [] => []
  | r :: t => linePieces a r ++ rowPieces step (a + step) t

/-- A send refused: an asynchronous error, and the notification with ERR = 1 (R257, R347). -/
def refuseSend (link key field : Nat) (w : BitVec 256) (f : WoveFrame) (s : Device) : Device :=
  notifyWindow link key w (receiveEntry true f.src.toNat field f.win.toNat) [] none (asyncError key 1 f.src.toNat f.win.toNat field s)

/-- A frame delivered to its window's context (R257); a type word that fails a check of R91 is refused as one that does not
match. -/
def deliverFrame (link key : Nat) (w : BitVec 256) (f : WoveFrame) (s : Device) : Device :=
  let core := key % 640
  let x := s.launch (key / 640)
  let dv := (s.ctxAt key).live.regs.dv
  let base := windowField w 160 21
  let at_ := spKey core (x.spPhys core base)
  let h := headerOf at_ base (Memory.readBytes s.spad at_ 16)
  match (typeMismatch dv (windowField w 192 64) f.typ.toNat).or (typeCheck f.typ.toNat) with
  | some field => refuseSend link key field w f s
  | none =>
    match frameRows f dv h with
    | .error e => refuseSend link key e.field w f s
    | .ok rows =>
      let step := rowStep h f.typ.toNat
      let inside := (rows.zip (rangeFrom 0 rows.length)).all (fun p => x.holds (h.data + step * p.2) p.1.length)
      if inside then
        notifyWindow link key w (receiveEntry false f.src.toNat 0 f.win.toNat) (rowPieces step (spKey core (x.spPhys core h.data)) rows) (some (at_, f.typ)) s
      else refuseSend link key 12 w f s

/-- A frame dropped and reported (R346, R347). -/
def dropFrame (f : WoveFrame) (s : Device) : Device := linkError 2 f.src.toNat f.win.toNat 0 s

/-- Whether the bank of the region header of a window is free, and no frame that came over the link before waits for its own (R202). -/
def Device.frameOpen (s : Device) (link key : Nat) (w : BitVec 256) : Bool :=
  s.bankFree (spKey (key % 640) ((s.launch (key / 640)).spPhys (key % 640) (windowField w 160 21))) &&
    !s.framesHeld.any (fun h => h.link == link)

/-- A frame that is to be delivered to its window's context, now or once the bank of its header is free. -/
def offerFrame (link key : Nat) (w : BitVec 256) (f : WoveFrame) (s : Device) : Device :=
  if s.frameOpen link key w then deliverFrame link key w f s
  else
    let h : HeldFrame := { link := link, key := key, gen := (s.launch (key / 640)).gen, window := w, frame := f }
    { s with framesHeld := s.framesHeld ++ [h] }

/-- The frames that wait, each offered again; one whose context is gone is dropped and reported. -/
def offerHeld : List HeldFrame → Device → Device
  | [], s => s
  | h :: t, s =>
    offerHeld t (if (s.ctxAt h.key).present && (s.launch (h.key / 640)).gen == h.gen then offerFrame h.link h.key h.window h.frame s
      else dropFrame h.frame s)

/-- A frame for this module matched and delivered (R347). -/
def receiveFrame (link : Nat) (f : WoveFrame) (s : Device) : Device :=
  match s.tagSpace f.ptag.toNat with
  | none => dropFrame f s
  | some asid =>
    let (base, n) := s.asWindows asid
    let s := noteTable (base + 32 * f.win.toNat) 32 s
    let w := BitVec.ofNat 256 (s.tableWords (base + 32 * f.win.toNat) 4)
    if f.win.toNat ≥ n ∨ windowField w 0 2 ≠ 2 then dropFrame f s
    else
      let core := windowField w 64 10
      match (if core < 640 then s.residentOn asid core else none) with
      | none => dropFrame f s
      | some l =>
        let x := s.launch l
        let fits := x.holds (windowField w 160 21) 16 && (windowField w 4 4 != 0 || x.holds (windowField w 96 21) 8)
        if fits = false then dropFrame f s
        else if windowField w 48 16 ≠ 0xFFFF ∧ windowField w 48 16 ≠ f.src.toNat then refuseSend link (ctxKey l core) 0 w f s
        else offerFrame link (ctxKey l core) w f s

/-- WOVE_FRAME_RECEIVE (R257, R346, R347): a frame for another module is forwarded, unless it has made 15 hops or has no
route. -/
def woveFrameReceive (l : Nat) (f : WoveFrame) (s : Device) : Device :=
  receiveOver l f.src.toNat f.win.toNat (fun s =>
    if f.dest.toNat = s.woveAddr then receiveFrame l f s
    else forward f.dest.toNat f.src.toNat f.win.toNat f.hops (fun link => .frame link { f with hops := f.hops + 1 }) s) s

/-! ## Accesses of peers (R348) -/

/-- The device address of an accepted access of a peer. -/
def Device.exported (s : Device) (r : PeerReq) : Option Nat :=
  match s.tagSpace r.ptag.toNat with
  | none => none
  | some asid =>
    let (base, n) := s.asExports asid
    let e := s.tableWords (base + 16 * r.entry.toNat) 2
    let f := fun (lo k : Nat) => bitField e lo k
    let right := if r.write.isSome then f 125 1 == 1 else f 126 1 == 1
    let size := f 0 15
    let ok := decide (r.entry.toNat < n) && f 127 1 == 1 && right && f 112 13 == 0 && f 94 2 == 0 && f 15 49 == 0 &&
      f 87 7 == 0 && decide (1 ≤ size) && decide (size ≤ 16384) && decide (r.offset.toNat < 65536 * size) &&
      (f 96 16 == 0xFFFF || f 96 16 == r.src.toNat)
    if ok then some (f 64 23 * 65536 + r.offset.toNat) else none

/-- The mapping of exported memory: stack-local and unswizzled, as the entry names none. -/
def exportAddr (pa : Nat) : GAddr := { pa := pa / 64 * 64, im := 0, sw := 0 }

/-- An access of a peer to this module (R348): served through an export entry, or refused and recorded. -/
def servePeer (r : PeerReq) (s : Device) : Device :=
  let s := match s.tagSpace r.ptag.toNat with
    | some asid => noteTable ((s.asExports asid).1 + 16 * r.entry.toNat) 16 s
    | none => s
  match s.exported r with
  | none => { linkError 3 r.src.toNat 0 0 s with outbox := s.outbox ++ [.peerRefused] }
  | some pa =>
    let g := exportAddr pa
    match r.write with
    | some (d, m) => bulkPut peerOwner { loc := dramMap g.pa g.im g.sw, data := d, mask := m, stamp := 0, turns := 0 } s
    | none =>
      let (b, s) := readLine (dramMap g.pa g.im g.sw) s
      match b with
      | some d => { s with outbox := s.outbox ++ [.peerData d] }
      | none => { s with outbox := s.outbox ++ [.peerRefused] }

/-- PEER_ACCESS_REQUEST (R346, R348): one for another module is forwarded. -/
def peerAccessRequest (l : Nat) (r : PeerReq) (s : Device) : Device :=
  receiveOver l r.src.toNat 0 (fun s =>
    if r.dest.toNat = s.woveAddr then servePeer r s
    else forward r.dest.toNat r.src.toNat 0 r.hops (fun link => .peer link { r with hops := r.hops + 1 }) s) s

/-! ## Links (R346) -/

/-- The state with WOVECTL of a link replaced. -/
def Device.setLink (s : Device) (l : Fin 16) (v : Dbl) : Device := { s with wovectl := s.wovectl.set l v }

/-- WOVE_LINK_UP (R346): an enabled link has trained. -/
def woveLinkUp (l : Fin 16) (s : Device) : Device :=
  let w := s.wovectl[l]
  if bitAt w.toNat 62 then s.setLink l (w ||| BitVec.ofNat 64 (2 ^ 63)) else s

/-- WOVE_LINK_DOWN (R346, R347): a link no longer carries flits. -/
def woveLinkDown (l : Fin 16) (s : Device) : Device := s.setLink l (s.wovectl[l] &&& BitVec.ofNat 64 (2 ^ 63 - 1))

end Sys2Proof.Machine
end

