-- ==== Sys2Proof/Machine/Migrate.lean ====
section
/-! DEFINITION. Migration (R260, R261, R336, R383), the SM3 digest, measurements and attestation (R356, R358, R399). -/

namespace Sys2Proof.Machine

/-! ## Migration (R260) -/

/-- The frame that MIGR reads for a page. -/
def leafSource (w0 w1 : Nat) : GAddr := { pa := bitField w1 16 30 * 65536, im := leafIm w0, sw := leafSw w0 }

/-- Lines of a page copied from one frame to another; whether every line could be read. -/
def copyFrame (owner : Nat) (src dst : GAddr) : Nat → Device → Bool × Device
  | 0, s => (true, s)
  | n + 1, s =>
    let (b, s) := if paTarget src.pa = 0 then
        match readLine (dramMap src.pa src.im src.sw) s with
        | (some l, s) => (some (lineBytes l), s)
        | (none, s) => (none, s)
      else (some (Memory.readBytes s.hostMem (src.pa % 2 ^ 44) 64), s)
    match b with
    | none => (false, s)
    | some bs => copyFrame owner (src.plus 64) (dst.plus 64) n (bulkWrite owner dst bs s)

/-- A page that has become resident: one more slip when the sheet tick is past the deadline (R260, R261). -/
def countSlip (key deadline : Nat) (s : Device) : Nat × Device :=
  let c := s.ctxAt key
  if (s.launch (key / 640)).tick > deadline then
    (1, if c.present then s.setCtxAt key { c with slip := if c.slip = BitVec.allOnes 32 then c.slip else c.slip + 1 } else s)
  else (0, s)

/-- A migration replaced. -/
def setMigr (n : Nat) (m : Option Migr) (s : Device) : Device := { s with migrs := Assoc.set none s.migrs n m }

/-- A page settled with a status: the migration goes on to the next. -/
def nextPage (n : Nat) (m : Migr) (bits st : Nat) (s : Device) : Device :=
  let (due, s) := s.later
  let va := va48 (m.va / 2 ^ bits * 2 ^ bits + 2 ^ bits)
  setMigr n (some { m with va := va, left := m.left - 1, status := Nat.max m.status st, due := due, stage := 0 }) s

/-- The lines of a page on their way to its destination frame; a line that cannot be read ends the migration (R278). -/
def beginPage (n : Nat) (m : Migr) (f : Leaf) (s : Device) : Device :=
  let w0 := f.word0.toNat
  let src := leafSource w0 f.word1.toNat
  let dst := leafAddr w0 f.bits (m.va / 2 ^ f.bits * 2 ^ f.bits)
  if leafRes w0 then nextPage n m f.bits 3 s
  else if leafMig w0 = false ∨ paTarget src.pa > 1 ∨ paTarget dst.pa > 1 ∨ (paTarget src.pa = 0 ∧ inDevice src.pa = false) then
    nextPage n m f.bits 2 s
  else
    let (ok, s) := copyFrame (commandOwner n) { src with pa := src.pa / 2 ^ f.bits * 2 ^ f.bits } dst (2 ^ f.bits / 64) s
    setMigr n (some (if ok then { m with stage := 1 } else { m with left := 0, status := Nat.max m.status 2 })) s

/-- The leaf of a page whose lines have entered the write queues, set resident. -/
def writeLeaf (n : Nat) (m : Migr) (f : Leaf) (s : Device) : Device :=
  let w0 := f.word0.toNat
  let word0 := w0 % 2 ^ 60 + 2 ^ 61 + w0 / 2 ^ 62 * 2 ^ 62
  setMigr n (some { m with stage := 2 }) (bulkWrite (commandOwner n) { pa := f.at_, im := 0, sw := 0 } (bytesOf 8 word0) s)

/-- A page whose leaf says that it is resident: the engine's own TLB entry for it goes, and a slip is counted. -/
def settlePage (n : Nat) (m : Migr) (f : Leaf) (s : Device) : Device :=
  let (st, s) := countSlip m.key m.deadline (invalidate (m.key % 640) .page m.asid (m.va / 65536) s)
  nextPage n m f.bits st s

/-- MIGR_PAGE (R260): one stage of the next page of a migration, when what the stage before it writes has entered the write
queues; a page without a leaf is not migratable. -/
def migrPage (n : Nat) (s : Device) : Device :=
  match Assoc.get none s.migrs n with
  | none => s
  | some m =>
    if s.mill < m.due ∨ m.left = 0 ∨ s.writing (commandOwner n) = true then s
    else
      let s := noteWalk m.asid m.va s
      match s.walk m.asid m.va, m.stage with
      | .error _, _ => nextPage n m 16 2 s
      | .ok f, 0 => beginPage n m f s
      | .ok f, 1 => writeLeaf n m f s
      | .ok f, _ => settlePage n m f s

/-- Whether the page a launch waits for is resident now (R383). -/
def Device.nowResident (s : Device) (asid va : Nat) : Bool :=
  match s.walk asid va with
  | .error _ => false
  | .ok f => leafRes f.word0.toNat

/-- The leaves that the sheets of an address space wait for read again (R383). -/
def rereadLeaves (asid : Nat) (s : Device) : Device :=
  { s with launches := s.launches.map (fun (p : Nat × Launch) => match p.2.need with
      | some (a, va) => if a = asid ∧ s.nowResident a va = true then (p.1, { p.2 with need := none }) else p
      | none => p) }

/-- MIGR_COMPLETE (R260, R383): every page is settled; STATUS is written, BAR receives 1, and the vat reads again the
leaves that sheets wait for. -/
def migrComplete (n : Nat) (s : Device) : Device :=
  match Assoc.get none s.migrs n with
  | none => s
  | some m =>
    if s.mill < m.due ∨ m.left ≠ 0 ∨ s.writing (commandOwner n) = true then s
    else
      let s := rereadLeaves m.asid (setMigr n none s)
      engineReport m.key (m.at_ + 28) [BitVec.ofNat 8 m.status] m.bar s

/-! ## SM3 (R356) -/

/-- A word rotated left by fewer than 32 places. -/
def rotl (x n : Nat) : Nat := (x * 2 ^ n) % 2 ^ 32 + x / 2 ^ (32 - n)

/-- The permutation P0. -/
def sm3P0 (x : Nat) : Nat := x ^^^ rotl x 9 ^^^ rotl x 17
/-- The permutation P1. -/
def sm3P1 (x : Nat) : Nat := x ^^^ rotl x 15 ^^^ rotl x 23

/-- The message words from the last sixteen on, newest first, `n` more of them. -/
def sm3Expand (l : List Nat) : Nat → List Nat
  | 0 => l
  | n + 1 =>
    let w := sm3P1 (nth l 15 ^^^ nth l 8 ^^^ rotl (nth l 2) 15) ^^^ rotl (nth l 12) 7 ^^^ nth l 5
    sm3Expand (w :: l) n

/-- The state of the compression: eight words. -/
structure Sm3 where
  a : Nat
  b : Nat
  c : Nat
  d : Nat
  e : Nat
  f : Nat
  g : Nat
  h : Nat
deriving DecidableEq, Repr

/-- Round `j` of the compression with a message word and the word four later. -/
def Sm3.round (x : Sm3) (j w w4 : Nat) : Sm3 :=
  let k := rotl (if j < 16 then 0x79CC4519 else 0x7A879D8A) (j % 32)
  let ss1 := rotl ((rotl x.a 12 + x.e + k) % 2 ^ 32) 7
  let ss2 := ss1 ^^^ rotl x.a 12
  let ff := if j < 16 then x.a ^^^ x.b ^^^ x.c else (x.a &&& x.b) ||| (x.a &&& x.c) ||| (x.b &&& x.c)
  let gg := if j < 16 then x.e ^^^ x.f ^^^ x.g else (x.e &&& x.f) ||| ((2 ^ 32 - 1 - x.e) &&& x.g)
  let t1 := (ff + x.d + ss2 + (w ^^^ w4)) % 2 ^ 32
  let t2 := (gg + x.h + ss1 + w) % 2 ^ 32
  { a := t1, b := x.a, c := rotl x.b 9, d := x.c, e := sm3P0 t2, f := x.e, g := rotl x.f 19, h := x.g }

/-- The rounds over the message words from round `j` on. -/
def Sm3.rounds (x : Sm3) (j : Nat) (w : List Nat) : Nat → Sm3
  | 0 => x
  | n + 1 => Sm3.rounds (x.round j (nth w 0) (nth w 4)) (j + 1) (w.drop 1) n

/-- The big-endian words of some bytes. -/
def beWords : Nat → List Byte → List Nat
  | 0, _ => []
  | n + 1, l => ofBytes (l.take 4).reverse :: beWords n (l.drop 4)

/-- The compression of a 64-byte block. -/
def Sm3.block (x : Sm3) (b : List Byte) : Sm3 :=
  let w := (sm3Expand (beWords 16 b).reverse 52).reverse
  let y := x.rounds 0 w 64
  { a := x.a ^^^ y.a, b := x.b ^^^ y.b, c := x.c ^^^ y.c, d := x.d ^^^ y.d, e := x.e ^^^ y.e, f := x.f ^^^ y.f, g := x.g ^^^ y.g,
    h := x.h ^^^ y.h }

/-- The blocks of a padded message, `n` of them. -/
def Sm3.blocks (x : Sm3) : Nat → List Byte → Sm3
  | 0, _ => x
  | n + 1, l => Sm3.blocks (x.block (l.take 64)) n (l.drop 64)

/-- A message with its padding: one bit, zeros, and its length in bits. -/
def sm3Pad (m : List Byte) : List Byte :=
  let z := (119 - m.length % 64) % 64
  m ++ (0x80 :: List.replicate z 0) ++ (bytesOf 8 (8 * m.length)).reverse

/-- The SM3 digest of some bytes. -/
def sm3 (m : List Byte) : List Byte :=
  let p := sm3Pad m
  let iv : Sm3 :=
    { a := 0x7380166F, b := 0x4914B2B9, c := 0x172442D7, d := 0xDA8A0600, e := 0xA96F30BC, f := 0x163138AA, g := 0xE38DEE4D,
      h := 0xB0FB0E4E }
  let y := iv.blocks (p.length / 64) p
  ([y.a, y.b, y.c, y.d, y.e, y.f, y.g, y.h].map (fun w => (bytesOf 4 w).reverse)).flatten

/-! ## Measurements (R356) -/

/-- A measurement register extended by a digest's bytes. -/
def extendMeas (i : Nat) (d : List Byte) (s : Device) : Device :=
  let old := bytesOf 32 (s.meas[Fin.ofNat 16 i]).toNat
  { s with meas := s.meas.set (Fin.ofNat 16 i) (BitVec.ofNat 256 (ofBytes (sm3 (old ++ d)))) }

/-! ## Attestation (R358, R399) -/

/-- The signed part of a report. -/
def Device.reportBody (s : Device) (mask : Nat) (nonce : List Byte) : List Byte :=
  bytesOf 4 1 ++ bytesOf 4 mask ++ nonce ++ bytesOf 8 s.serial.toNat ++ bytesOf 8 s.mill ++
    (((rangeFrom 0 16).filter (fun i => bitAt mask i)).map (fun i => bytesOf 32 (s.meas[Fin.ofNat 16 i]).toNat)).flatten

/-- The report: its body and 64 bytes of signature. -/
def Device.report (s : Device) (mask : Nat) (nonce : List Byte) : List Byte :=
  let b := s.reportBody mask nonce
  b ++ ((Config.sign s.fresh b) ++ List.replicate 64 0).take 64

/-- The front of the ATTEST queue due later than now. -/
def stampFront (s : Device) : Device :=
  match s.attests with
  | [] => s
  | a :: t =>
    let (due, s) := s.within 1200000
    { s with attests := { a with due := due } :: t }

/-- ATTEST_COMPLETE (R358, R399): the front request's report is written from ADDR on, and its barrier receives 1; the
report is signed within 1,200,000 mill ticks of reaching the front. -/
def attestComplete (s : Device) : Device :=
  match s.attests with
  | [] => s
  | a :: t =>
    if s.mill < a.due then s
    else
      let bytes := s.report a.mask a.nonce
      let s := stampFront { s with attests := t, fresh := s.fresh + 1 }
      engineReport a.key a.at_ bytes a.bar s

end Sys2Proof.Machine
end

