-- ==== Sys2Proof/Machine/Host.lean ====
section
/-! DEFINITION. What the host and system software do through the management space (R354, R401) and over CXL (R223, R351,
R352, R357), and what follows of it: the clock (R404), the configuration store (R410) and the monitors (R402, R403,
R405). -/

namespace Sys2Proof.Machine

/-! ## When the host is answered (R407, R408) -/

/-- STARTSTAT.DONE. -/
def Device.started (s : Device) : Bool := bitAt s.startstat.toNat 63

/-- STARTSTAT.SEED. -/
def Device.seedMode (s : Device) : Bool := bitAt s.startstat.toNat 62

/-- An action of the host on a device whose start has completed; before that it is discarded (R408). -/
def whenStarted (f : Device → Device) (s : Device) : Device := if s.started then f s else s

/-- An action that seed mode allows too. -/
def whenUp (f : Device → Device) (s : Device) : Device := if s.started || s.seedMode then f s else s

/-! ## Registers that the host writes -/

/-- HEAD of the error log moved: the records before it are removed, none past TAIL (R381). -/
def errptrHeadWrite (v : Dbl) (s : Device) : Device :=
  let n := (v.toNat % 1024 + 1024 - s.logHead) % 1024
  if n > s.log.length then refuseWrite 0x21008 v.toNat s
  else { s with log := s.log.drop n, logHead := v.toNat % 1024 }

/-- REQUEUE (R383): a sheet that waits for it may be chosen again; a leaf it waits for is read again. -/
def requeueWrite (v : Dbl) (s : Device) : Device :=
  let l := v.toNat % 512
  let x := s.launch l
  match x.need with
  | none => s
  | some (a, va) => if a = 256 ∨ s.nowResident a va = true then s.setLaunch l { x with need := none } else s

/-- Whether a field of VATCFG is in range (R289). -/
def vatcfgOk (v : Nat) : Bool :=
  let f := fun (lo a b : Nat) => decide (a ≤ bitField v lo 8) && decide (bitField v lo 8 ≤ b)
  f 48 16 40 && f 40 12 30 && f 32 16 40 && f 24 12 40

/-- VATCFG_WRITE (R289): refused as a whole when a field is out of range (R380, code 30). -/
def vatcfgWrite (v : Dbl) (s : Device) : Device :=
  if vatcfgOk v.toNat then { s with vatcfg := dbl (bitField v.toNat 24 32 * 2 ^ 24) }
  else s.deviceEvent (evOf 30 5 0 0 0 0)

/-- The bits of an ASCTL word that are written (R328). -/
def asctlMask (w : Nat) : Nat :=
  let table := (2 ^ 33 - 1) * 2 ^ 13
  match w with
  | 0 => 2 ^ 63 + table
  | 1 => (2 ^ 16 - 1) * 2 ^ 48 + table + 511
  | 2 => table + 255
  | _ => table + 63

/-- Whether an ASCTL word is in range: its table in device memory, its count within the limit (R328). -/
def asctlOk (w v : Nat) : Bool :=
  inDevice (bitField v 13 33 * 8192) && (w != 1 || decide (v % 512 ≤ 256)) && (w != 3 || decide (v % 64 ≤ 32))

/-- The FRED counts of an address space set to 0 (R350). -/
def clearFredCounts (a : Nat) (s : Device) : Device := { s with fredCount := s.fredCount.filter (fun p => p.1 / 256 != a) }

/-- ASCTL_WRITE (R328, R350). -/
def asctlWrite (a w : Nat) (v : Dbl) (s : Device) : Device :=
  let n := v.toNat &&& asctlMask w
  if asctlOk w n = false then refuseWrite (0x10000 + 32 * a + 8 * w) v.toNat s
  else
    let clears := w == 2 || (w == 0 && bitAt n 63 && !s.asEnabled a)
    let s := { s with asctl := Assoc.set 0 s.asctl (4 * a + w) (dbl n) }
    if clears then clearFredCounts a s else s

/-- MEASEXT_WRITE (R356): registers 8 to 15 are extended by the digest in MEASDATA; an index below 8 is refused whatever bit 63
holds. -/
def measextWrite (v : Dbl) (s : Device) : Device :=
  let i := v.toNat % 16
  if i < 8 then refuseWrite 0x320 v.toNat s
  else if bitAt v.toNat 63 = false then s
  else extendMeas i ((s.measdata.toList.map (fun d => bytesOf 8 d.toNat)).flatten) s

/-- The halted sheet that HALTCTL names, when it has the core of DBGSEL: its slot and the core. -/
def Device.debugged (s : Device) : Option (Nat × Nat) :=
  let x := s.launch s.haltSlot
  let core := bitField s.dbgsel.toNat 8 10
  if x.inHalt ∧ (x.st = .active ∨ x.st = .shadow) ∧ x.streaming = .idle ∧ x.hasCore core = true then some (s.haltSlot, core) else none

/-- Whether the handler's access writes a selector (R392). -/
def debugWritable (sel : Nat) : Bool := (decide (4 ≤ sel) && decide (sel ≤ 6)) || sel == 0x0B || decide (0x40 ≤ sel)

/-- DBGDATA_WRITE (R390): refused while the sheet is not halted. -/
def dbgdataWrite (v : Dbl) (s : Device) : Device :=
  let sel := s.dbgsel.toNat % 256
  match s.debugged with
  | none => refuseWrite 0x21028 v.toNat s
  | some (l, core) =>
    if debugWritable sel && decide (sel < 0x80) then
      match selWrite (s.ctx l core).live.regs sel v with
      | some w => writeRegs l core [w] s
      | none => s
    else refuseWrite 0x21028 v.toNat s

/-- CLKCTL_WRITE (R404): a change begins, and ends within 2^20 mill ticks. -/
def clkctlWrite (v : Dbl) (s : Device) : Device :=
  let f := v.toNat % 2048
  if s.clkBusy.isSome || f % 25 != 0 || decide (f < 300) || decide (f > 1200) then refuseWrite 0x21030 v.toNat s
  else
    let (due, s) := s.within (2 ^ 20)
    { s with clkBusy := some (f, due) }

/-- CLOCK_CHANGE_COMPLETE (R404). -/
def clockChangeComplete (s : Device) : Device :=
  match s.clkBusy with
  | none => s
  | some (f, due) => if s.mill < due then s else { s with clkMhz := f, clkBusy := none }

/-- CFGCTL_COMMIT (R410): a commit of the image window begins; without COMMIT the write sets LEN. -/
def cfgctlCommit (v : Dbl) (s : Device) : Device :=
  let n := v.toNat % 2 ^ 20
  if s.cfgBusy.isSome || n == 0 || decide (n > 524288) then refuseWrite 0x21040 v.toNat s
  else if bitAt v.toNat 63 = false then { s with cfgLen := n }
  else
    let (due, s) := s.later
    { s with cfgLen := n, cfgBusy := some due }

/-- Whether an image passes the checks of step 2, that its VERSION is at or above the floor among them (R407, R410). -/
def Device.imagePasses (s : Device) (b : List Byte) : Bool :=
  Config.imageOk b && decide (s.store.floor ≤ Config.imageVersion (ofBytes b))

/-- CFG_COMMIT_COMPLETE (R410): an image that passes is stored. -/
def cfgCommitComplete (s : Device) : Device :=
  match s.cfgBusy with
  | none => s
  | some due =>
    if s.mill < due then s
    else
      let b := Memory.readBytes s.window 0 s.cfgLen
      if s.imagePasses b then { s with cfgBusy := none, cfgOk := true, store := { s.store with image := some b } }
      else { s with cfgBusy := none, cfgOk := false }

/-- SEEDCTL_GENKEY (R409): an identity key is made and sealed when the store holds none. -/
def seedctlGenkey (s : Device) : Device :=
  if s.store.key.isSome then refuseWrite 0x21048 (2 ^ 62) s
  else
    let (k, s) := s.draw
    { s with store := { s.store with key := some (Config.publicKey k) }, keyOk := true, idpub := Config.publicKey k }

/-- The scope of a SHOOTREQ (R398). -/
def scopeOf (n : Nat) : Option Scope :=
  match n with
  | 0 => some .page
  | 1 => some .space
  | 2 => some .all
  | _ => none

/-- SHOOTREQ_WRITE (R398). -/
def shootreqWrite (v : Dbl) (s : Device) : Device :=
  let f := fun (lo n : Nat) => bitField v.toNat lo n
  match scopeOf (f 62 2) with
  | none => refuseWrite 0x21050 v.toNat s
  | some sc =>
    if f 48 6 ≠ 0 ∨ f 0 16 ≠ 0 ∨ s.shootQ.length ≥ 64 then refuseWrite 0x21050 v.toNat s
    else { s with shootQ := s.shootQ ++ [{ scope := sc, asid := f 54 8, page := f 16 32, bar := none }] }

/-! ## The other registers (R354, R401) -/

/-- A write of HDMCFG (R352). -/
def hdmcfgWrite (v : Dbl) (s : Device) : Device :=
  let n := v.toNat &&& (2 ^ 63 + 0x7FFFFF0000 + 0x3F0)
  let size := bitField n 16 12
  if bitField n 8 2 = 3 ∨ bitField n 28 11 + size > 2048 ∨ (bitAt n 63 = true ∧ size = 0) then refuseWrite 0x2000 v.toNat s
  else { s with hdmcfg := dbl n }

/-- A write of WOVECTL: EN; a link that is not enabled carries nothing (R346). -/
def wovectlWrite (l : Fin 16) (v : Dbl) (s : Device) : Device :=
  let old := (s.wovectl[l]).toNat
  let en := bitOf (bitAt v.toNat 62)
  s.setLink l (dbl (bitField old 63 1 * en * 2 ^ 63 + en * 2 ^ 62 + bitField old 16 16 * 2 ^ 16))

/-- Bytes of the image window written. -/
def windowWrite (off : Nat) (v : Dbl) (s : Device) : Device := { s with window := Memory.writeBytes s.window (off - 0x80000) (bytesOf 8 v.toNat) }

/-- HALTCTL written as a whole (R390). -/
def haltctlWrite (v : Dbl) (s : Device) : Device :=
  let l := v.toNat % 512
  let s := { s with haltSlot := l }
  let s := if bitAt v.toNat 62 then haltctlReq l s else s
  let s := if bitAt v.toNat 61 then haltctlGo l s else s
  if bitAt v.toNat 60 then haltctlStep l s else s

/-- SEEDCTL written outside a RETRY that seed mode accepts: GENKEY (R408, R409). -/
def seedctlWrite (v : Dbl) (s : Device) : Device :=
  if bitAt v.toNat 62 then seedctlGenkey s else if bitAt v.toNat 63 then refuseWrite 0x21048 v.toNat s else s

/-- An 8-byte write at an offset of the recovery range (R401). -/
def recoveryWrite (off : Nat) (v : Dbl) (s : Device) : Device :=
  let n := v.toNat
  if off < 0x20800 then { s with hvec := Assoc.set 0 s.hvec ((off - 0x20000) / 8) (dbl (n &&& (2 ^ 63 + (2 ^ 48 - 1)))) }
  else if off = 0x21000 then (if n % 256 = 0 then refuseWrite off n s else { s with rcfg := dbl (n % 256) })
  else if off = 0x21008 then errptrHeadWrite v s
  else if off = 0x21010 then requeueWrite v s
  else if off = 0x21018 then haltctlWrite v s
  else if off = 0x21020 then { s with dbgsel := dbl (n % 2 ^ 18) }
  else if off = 0x21028 then dbgdataWrite v s
  else if off = 0x21030 then clkctlWrite v s
  else if off = 0x21040 then cfgctlCommit v s
  else if off = 0x21048 then seedctlWrite v s
  else if off = 0x21050 then shootreqWrite v s
  else if 0x50000 ≤ off ∧ off < 0x54000 then { s with monthr := Assoc.set 0 s.monthr ((off - 0x50000) / 8) v }
  else if 0x80000 ≤ off ∧ off < 0x100000 then windowWrite off v s
  else s

/-- An 8-byte write at an offset of the management space of a started device (R354). -/
def mgmtWrite (off : Nat) (v : Dbl) (s : Device) : Device :=
  let n := v.toNat
  if 0x300 ≤ off ∧ off < 0x320 then { s with measdata := s.measdata.set (Fin.ofNat 4 (off / 8)) v }
  else if off = 0x320 then measextWrite v s
  else if off = 0x1000 then jobPortWrite n s
  else if off = 0x1018 then vatcfgWrite v s
  else if off = 0x2000 then hdmcfgWrite v s
  else if off = 0x3000 then { s with woveid := dbl (n % 2 ^ 16) }
  else if 0x3100 ≤ off ∧ off < 0x3180 then wovectlWrite (Fin.ofNat 16 ((off - 0x3100) / 8)) v s
  else if 0x4000 ≤ off ∧ off < 0x4200 then
    { s with route := Assoc.set 0 s.route ((off - 0x4000) / 8) (dbl (n &&& (2 ^ 63 + 0xF000000000000 + 0xFFFF))) }
  else if 0x10000 ≤ off ∧ off < 0x12000 then asctlWrite ((off - 0x10000) / 32) ((off / 8) % 4) v s
  else if 0x20000 ≤ off ∧ off < 0x100000 then recoveryWrite off v s
  else if 0x100000 ≤ off ∧ off < 0x100040 then tlctlWrite ((off - 0x100000) / 8) v s
  else if 0x2000000 ≤ off ∧ off < 0x4000000 then timelineWordWrite ((off - 0x2000000) / 0x400000) (off % 0x400000 / 8) v s
  else s

/-- Whether seed mode takes writes at an offset (R408). -/
def seedOffset (off : Nat) : Bool := off == 0x21040 || off == 0x21048 || (decide (0x80000 ≤ off) && decide (off < 0x100000))

/-- An aligned 8-byte write of the management space (R354, R401, R408). -/
def mgmtStore (off : Nat) (v : Dbl) (s : Device) : Device :=
  if s.started then mgmtWrite off v s
  else if s.seedMode && seedOffset off then recoveryWrite off v s
  else s

/-! ## What the registers read as (R354, R401) -/

/-- ERRPTR (R381). -/
def Device.errptr (s : Device) : Nat :=
  s.logHead % 1024 + (s.logHead + s.log.length) % 1024 * 2 ^ 16 + s.log.length * 2 ^ 32 + s.logLost % 2 ^ 16 * 2 ^ 48

/-- JOBSTAT (R282). -/
def Device.jobstat (s : Device) : Nat := s.freeJobs.length + s.accepted % 2 ^ 16 * 2 ^ 16 + s.refused % 2 ^ 16 * 2 ^ 32

/-- DBGDATA (R390): zero while the sheet is not halted. -/
def Device.dbgdata (s : Device) : Nat :=
  match s.debugged with
  | some (l, core) => (selValue s l core (s.launch l).tick (s.dbgsel.toNat % 256)).toNat
  | none => 0

/-- A register of the recovery range. -/
def Device.recoveryRead (s : Device) (off : Nat) : Nat :=
  if off < 0x20800 then (Assoc.get 0 s.hvec ((off - 0x20000) / 8)).toNat
  else if off = 0x21000 then s.rcfg.toNat
  else if off = 0x21008 then s.errptr
  else if off = 0x21018 then s.haltSlot + bitOf (s.launch s.haltSlot).inHalt * 2 ^ 63
  else if off = 0x21020 then s.dbgsel.toNat
  else if off = 0x21028 then s.dbgdata
  else if off = 0x21030 then s.clkMhz + bitOf s.clkBusy.isSome * 2 ^ 63
  else if off = 0x21038 then s.startstat.toNat
  else if off = 0x21040 then s.cfgLen + bitOf s.cfgOk * 2 ^ 61 + bitOf s.cfgBusy.isSome * 2 ^ 62
  else if off = 0x21048 then bitOf s.keyOk * 2 ^ 61
  else if off = 0x21058 then s.shootDone.toNat
  else if 0x30000 ≤ off ∧ off < 0x40000 then
    let i := ((off - 0x30000) / 64 + 1024 - s.logHead % 1024) % 1024
    match s.log[i]? with
    | some r => recField r (off % 64 * 8) 64
    | none => 0
  else if 0x40000 ≤ off ∧ off < 0x44000 then (Assoc.get 0 s.monval ((off - 0x40000) / 8)).toNat
  else if 0x50000 ≤ off ∧ off < 0x54000 then (Assoc.get 0 s.monthr ((off - 0x50000) / 8)).toNat
  else if 0x80000 ≤ off ∧ off < 0x100000 then ofBytes (Memory.readBytes s.window (off - 0x80000) 8)
  else 0

/-- What an aligned 8-byte read of the management space of a started device returns (R354). -/
def Device.mgmtValue (s : Device) (off : Nat) : Nat :=
  if off = 0 then 0x4D500640 * 2 ^ 32
  else if off = 8 then s.serial.toNat
  else if 0x40 ≤ off ∧ off < 0x80 then bitField s.idpub.toNat (8 * (off - 0x40)) 64
  else if 0x100 ≤ off ∧ off < 0x300 then bitField (s.meas[Fin.ofNat 16 ((off - 0x100) / 32)]).toNat (off % 32 * 8) 64
  else if 0x300 ≤ off ∧ off < 0x320 then (s.measdata[Fin.ofNat 4 (off / 8)]).toNat
  else if off = 0x1008 then s.jobstat
  else if off = 0x1010 then s.apfence.toNat
  else if off = 0x1018 then s.vatcfg.toNat
  else if 0x1100 ≤ off ∧ off < 0x1200 then (s.hsigval[Fin.ofNat 32 (off / 8)]).toNat
  else if off = 0x2000 then s.hdmcfg.toNat
  else if off = 0x3000 then s.woveid.toNat
  else if 0x3100 ≤ off ∧ off < 0x3180 then (s.wovectl[Fin.ofNat 16 ((off - 0x3100) / 8)]).toNat
  else if 0x4000 ≤ off ∧ off < 0x4200 then (Assoc.get 0 s.route ((off - 0x4000) / 8)).toNat
  else if 0x10000 ≤ off ∧ off < 0x12000 then s.asctlWord ((off - 0x10000) / 32) (off / 8 % 4)
  else if 0x20000 ≤ off ∧ off < 0x100000 then s.recoveryRead off
  else if 0x100000 ≤ off ∧ off < 0x100040 then (s.stack ((off - 0x100000) / 8)).tlctl.toNat
  else if 0x2000000 ≤ off ∧ off < 0x4000000 then
    (Assoc.get 0 (s.stack ((off - 0x2000000) / 0x400000)).words (off % 0x400000 / 8)).toNat
  else 0

/-- Whether seed mode answers a read of an offset with its register (R408). -/
def seedReadable (off : Nat) : Bool :=
  off == 0 || off == 8 || (decide (0x40 ≤ off) && decide (off < 0x80)) || off == 0x21038 || seedOffset off

/-- What an aligned 8-byte read of the management space returns: in seed mode zero but for a few registers (R354, R408). -/
def Device.mgmtRead (s : Device) (off : Nat) : Nat := if s.started || (s.seedMode && seedReadable off) then s.mgmtValue off else 0

/-! ## CXL (R223, R351, R352, R357) -/

/-- APFENCE_READ (R223): in one sequential order of steps every write accepted before is visible already. -/
def apfenceRead (s : Device) : Device := { s with apfence := s.apfence + 1, outbox := s.outbox ++ [.value s.apfence] }

/-- The device address of a CXL.mem access, within the exposed range (R352). -/
def Device.hdmAddr (s : Device) (off : Nat) : Option GAddr :=
  let h := s.hdmcfg.toNat
  if bitAt h 63 = true ∧ off < 2 ^ 28 * bitField h 16 12 then
    some { pa := (2 ^ 28 * bitField h 28 11 + off) / 64 * 64, im := bitField h 8 2, sw := bitField h 4 4 }
  else none

/-- CXL_MEM_WRITE (R274, R352): into the write queue; the host port holds back a write that finds it full. -/
def cxlMemWrite (off : BitVec 46) (data : Line) (mask : BitVec 64) (s : Device) : Device :=
  match s.hdmAddr off.toNat with
  | none => refuseWrite off.toNat (data.toNat % 2 ^ 64) s
  | some g =>
    let loc := dramMap g.pa g.im g.sw
    if s.lineOpen loc then enqueue { loc := loc, data := data, mask := mask, stamp := 0, turns := 0 } s
    else { s with cxlHeld := s.cxlHeld ++ [(off, data, mask)] }

/-- CXL_MEM_READ (R352): the line, or poisoned data. -/
def cxlMemRead (off : BitVec 46) (s : Device) : Device :=
  match s.hdmAddr off.toNat with
  | none => { s with outbox := s.outbox ++ [.cxlPoison] }
  | some g =>
    match readLine (dramMap g.pa g.im g.sw) s with
    | (some l, s) => { s with outbox := s.outbox ++ [.cxlData l] }
    | (none, s) => { s with outbox := s.outbox ++ [.cxlPoison] }

/-- CXL_UNSUPPORTED_REQUEST (R352): the error response, and nothing else. -/
def cxlUnsupportedRequest (s : Device) : Device := { s with outbox := s.outbox ++ [.cxlError] }

/-- HOST_SNOOP (R351): answered with no data. -/
def hostSnoop (s : Device) : Device := { s with outbox := s.outbox ++ [.snoopNoData] }

/-- The measurement blocks: MEAS0 to MEAS15 as blocks 1 to 16 (R357). -/
def Device.measBlocks (s : Device) : List (Nat × BitVec 256) := (List.finRange 16).map (fun i => (i.val + 1, s.meas[i]))

/-- The answer to a request on the DOE mailbox (R357, R358); `k` numbers it. -/
def Device.spdmAnswer (s : Device) (k : Nat) : SpdmReq → SpdmAnswer
  | .algorithms => .algorithms [.sm2P256] [.sm3] [.sm4Gcm]
  | .certificate slot => if slot = 0 then .certificate (Config.spdm k []) else .unsupported
  | .measurements => .measurements s.measBlocks
  | .report mask nonce => .report (s.report mask.toNat (bytesOf 32 nonce.toNat))
  | .setCertificate => .unsupported
  | .mutualAuth => .unsupported
  | .other req => .other (Config.spdm k req)

/-- SPDM_REQUEST (R357, R358). -/
def spdmRequest (req : SpdmReq) (s : Device) : Device :=
  let (k, s) := s.draw
  { s with outbox := s.outbox ++ [.spdm (s.spdmAnswer k req)] }

/-- HOST_MESSAGE_QUEUE_WRITE (R31, R219): an entry for s63 of the context active on a core. -/
def hostMessageQueueWrite (core : Nat) (v : Dbl) (s : Device) : Device :=
  match (s.sheaf (core / 4)).active with
  | some l => pushQueue { link := none, key := ctxKey l core, q := 3, v := v } s
  | none => s

/-! ## Monitors (R402, R403, R405) -/

/-- The monitors' indices. -/
def monitorIndices : List Nat :=
  ((rangeFrom 0 8).map (fun q => rangeFrom (128 * q) 88)).flatten ++ rangeFrom 1024 16 ++ rangeFrom 1040 8

/-- Whether a monitor reads a temperature. -/
def isTemperature (m : Nat) : Bool := decide (m ≥ 1024) || decide (m % 128 < 48)

/-- A monitor's value in its units. -/
def monitorValue (m x : Nat) : Int := if isTemperature m then signedOf 32 x else (x : Int)

/-- THTRIP_N driven low by a sample at the trip temperature (R405). -/
def checkTrip (m x : Nat) (s : Device) : Device :=
  match s.trip with
  | some t =>
    if isTemperature m && decide (monitorValue m x ≥ signedOf 32 t.toNat) && !s.tripped then
      { s with tripped := true, outbox := s.outbox ++ [.thermalTrip] }
    else s
  | none => s

/-- One monitor sampled. -/
def sampleOne (m : Nat) (s : Device) : Device :=
  let (k, s) := s.draw
  let x := (Config.sample k).toNat
  let old := (Assoc.get 0 s.monval m).toNat
  let thr := (Assoc.get 0 s.monthr m).toNat
  let v := monitorValue m x
  let above := decide (v > monitorValue m (bitField thr 32 32))
  let below := decide (v < monitorValue m (bitField thr 0 32))
  let alarm := above || below
  let s := if alarm && !bitAt old 62 then s.deviceEvent (evOf 31 (if above then 1 else 2) m x 0 0) else s
  let seq := (bitField old 32 16 + 1) % 2 ^ 16
  let s := { s with monval := Assoc.set 0 s.monval m (dbl (x + seq * 2 ^ 32 + bitOf alarm * 2 ^ 62 + 2 ^ 63)) }
  checkTrip m x s

/-- MONITOR_SAMPLE (R402): every 1,200 mill ticks. -/
def monitorSample (s : Device) : Device := monitorIndices.foldl (fun s m => sampleOne m s) s

end Sys2Proof.Machine
end

