-- ==== Sys2Proof/Machine/Start.lean ====
section
/-! DEFINITION. Starting the module (R405 to R409): the start sequence, its failures, and seed mode. -/

namespace Sys2Proof.Machine

/-- STARTSTAT from its fields (R407). -/
def startWord (done seed : Bool) (why step fails : Nat) : Dbl :=
  dbl (fails % 16 + step % 256 * 2 ^ 40 + why % 256 * 2 ^ 48 + bitOf seed * 2 ^ 62 + bitOf done * 2 ^ 63)

/-- The state as a start finds it: every register at its reset value and every memory of the package cleared. The store,
host memory, what has left the module, and the counters of the model stay. -/
def restarted (s : Device) : Device :=
  { Device.reset with
    mill := s.mill, hostMem := s.hostMem, outbox := s.outbox, store := s.store, seq := s.seq, fresh := s.fresh,
    tripped := s.tripped, keyOk := s.store.key.isSome }

/-- Seed mode entered (R407, R408): MEAS0 alone may hold a measurement, of an image that was there to measure, and IDPUB is zero
where the sealed key could not be unsealed. -/
def enterSeed (why step : Nat) (s : Device) : Device :=
  let (k, s) := s.draw
  let (u, s) := s.draw
  let pub := if Config.choice u then s.store.key.getD 0 else 0
  let s := { restarted s with startstat := startWord false true why step s.store.fails, idpub := pub }
  if s.store.image.isSome then extendMeas 0 (bytesOf 32 (Config.startDigest k).toNat) s else s

/-- The thresholds that an image gives the monitors (R403, R406). -/
def loadThresholds (image : Nat) : Assoc Dbl :=
  monitorIndices.foldl (fun m i => Assoc.set 0 m i (Config.threshold (image * 2048 + i))) []

/-- The registers that the start measures into, by digests that the spec does not lay out. -/
def measureStart : List Nat → Device → Device
  | [], s => s
  | i :: t, s =>
    let (k, s) := s.draw
    measureStart t (extendMeas i (bytesOf 32 (Config.startDigest k).toNat) s)

/-- IDPUB of a configuration image (R406, R407). -/
def imageKey (image : List Byte) : BitVec 512 := Config.publicKey (2 ^ 64 + ofBytes image)

/-- Step 8 of a start (R407): identity, thresholds and measurements from the image, the mill clock at 0, DONE. -/
def finishStart (image : List Byte) (s : Device) : Device :=
  let n := ofBytes image
  let store := { s.store with fails := 0, floor := Config.imageFloor n, starting := false }
  let s := measureStart (rangeFrom 0 8) (restarted s)
  { s with
    mill := 0, store := store, serial := Config.imageSerial n, idpub := imageKey image, monthr := loadThresholds n,
    trip := some (Config.tripTemp n), startstat := startWord true false store.why store.step 0 }

/-- The step of a failure code, with the stack that fails the memory test (R407). -/
def failStep (code k : Nat) : Nat :=
  if code ≤ 4 then 2
  else if code = 5 then 3
  else if code = 6 then 4
  else if code = 7 then 0x50 + Config.startStack k % 8
  else if code = 8 then 6
  else 7

/-- The failure code of a start, or another value for none (R407): the image's signature, format and part come before its VERSION,
these before the sealed key, which must be there and agree with the image's IDPUB, and that before what later steps find. -/
def Device.startCode (s : Device) (image : List Byte) (k : Nat) : Nat :=
  if Config.imageOk image = false then (if Config.choice k then 2 else 4)
  else if s.imagePasses image = false then 3
  else if s.store.key ≠ some (imageKey image) then 5
  else if 5 ≤ Config.startOutcome k then Config.startOutcome k
  else 0

/-- A failed start recorded in the store. -/
def recordFailure (code step : Nat) (s : Device) : Device := { s with store := { s.store with why := code, step := step, starting := false } }

/-- Starts from step 1, one after another, at most `fuel`: each ends in seed mode, in DONE, in a failure that begins the
next, or in a wait for the ROM's timer (R407). -/
def attemptStart : Nat → Device → Device
  | 0, s => enterSeed s.store.why s.store.step s
  | fuel + 1, s =>
    match s.store.image with
    | none => enterSeed 1 1 { s with store := { s.store with fails := 0, starting := false } }
    | some image =>
      if s.store.starting then attemptStart fuel (recordFailure 11 1 s)
      else if s.store.fails ≥ 3 then enterSeed s.store.why s.store.step s
      else
        let s := { s with store := { s.store with fails := s.store.fails + 1, starting := true } }
        let (k, s) := s.draw
        let code := s.startCode image k
        if 2 ≤ code ∧ code ≤ 9 then attemptStart fuel (recordFailure code (failStep code k) s)
        else if code = 10 then
          let (due, s) := s.later
          { restarted s with startstat := startWord false false s.store.why s.store.step s.store.fails, startDue := some due }
        else finishStart image s

/-- A start begun: at most five of them end before one waits or ends for good. -/
def beginStart (s : Device) : Device := attemptStart 5 (restarted s)

/-- POWER_ON_START (R405 to R407): nothing of the module but its store survives the lack of power. -/
def powerOnStart (s : Device) : Device := beginStart { s with tripped := false }

/-- CONVENTIONAL_RESET_START (R406): a start that it cuts off shows in the store as one in progress (R407). -/
def conventionalResetStart (s : Device) : Device := beginStart s

/-- START_TIMEOUT (R407): the ROM's timer ends a start that overruns, at some step of it, with code 10. -/
def startTimeout (s : Device) : Device :=
  match s.startDue with
  | none => s
  | some due =>
    if s.mill < due then s
    else
      let (k, s) := s.draw
      beginStart (recordFailure 10 (1 + Config.pick k % 8) s)

/-- POWER_LOSS (R405, R407): a start that was in progress leaves its mark in the store. -/
def powerLoss (s : Device) : Device := { restarted s with tripped := false }

/-- SEEDCTL_RETRY (R408): in seed mode, FAILS is cleared and a start begins. -/
def seedctlRetry (s : Device) : Device :=
  if s.seedMode then beginStart { s with store := { s.store with fails := 0 } } else refuseWrite 0x21048 (2 ^ 63) s

/-- A write to the management space, with RETRY (R354, R408). -/
def mgmtEvent (off : Nat) (v : Dbl) (s : Device) : Device :=
  if off = 0x21048 ∧ bitAt v.toNat 63 = true ∧ s.seedMode = true then
    seedctlRetry (if bitAt v.toNat 62 then seedctlGenkey s else s)
  else mgmtStore off v s

/-- A read of the management space, answered; one of APFENCE counts (R223). -/
def mgmtLoad (off : Nat) (s : Device) : Device :=
  if off = 0x1010 ∧ s.started = true then apfenceRead s else { s with outbox := s.outbox ++ [.value (dbl (s.mgmtRead off))] }

/-- MGMT_REGISTER_WRITE (R354): an access of the host to the management space. Only aligned accesses of 8 bytes are supported; any
other receives an unsupported-request completion. -/
def mgmtAccess (off : Nat) (acc : MgmtAccess) (s : Device) : Device :=
  if off % 8 ≠ 0 ∨ acc.size ≠ 8 then whenUp (fun s => { s with outbox := s.outbox ++ [.unsupported] }) s
  else
    match acc.data with
    | some v => mgmtEvent off v s
    | none => whenUp (mgmtLoad off) s

end Sys2Proof.Machine
end

