-- ==== Sys2Proof/Machine/Tick.lean ====
section
/-! DEFINITION. The end of a mill tick and the start of the next: sheets end their ticks and commit their reams (R186, R192),
leases are granted (R162, R298), and the steps of the new tick are laid out in the order in which they are taken. -/

namespace Sys2Proof.Machine

/-! ## Leases (R162, R298) -/

/-- LEASE_END (R162): the holder's term is over. -/
def leaseEnd (g : Nat) (s : Device) : Device :=
  let x := s.sheaf g
  match x.active with
  | none => s
  | some l =>
    let t := (s.launch l).tick
    if x.lease.holder.isSome ∧ t > x.lease.limit ∧ t + 1 ≥ x.lease.free then s.setSheaf g { x with lease := { x.lease with holder := none } }
    else s

/-- The first requester from the pointer on. -/
def firstFrom (ptr : Fin 4) (reqs : List (Fin 4)) : Option (Fin 4) :=
  ((rangeFrom 0 4).map (fun n => Fin.ofNat 4 (ptr.val + n))).find? (fun c => reqs.contains c)

/-- A sheaf at the end of sheet tick `t`: a free lease goes to the first requester from the pointer on, and the lease as it
stands is what the next tick sees (R162, R298), and a grant leaves the press without a tensor scale (R160); deckle values that have left their lanes are forgotten (R195). -/
def Sheaf.endTick (x : Sheaf) (t : Nat) : Sheaf :=
  let won := if t ≥ x.lease.free then firstFrom x.lease.ptr x.requests else none
  let lease := match won with
    | some c => { holder := some c, ptr := Fin.ofNat 4 (c.val + 1), cmds := 64, term := t + 4096, limit := t + 4096, free := t + 4097 }
    | none => x.lease
  { x with lease := lease, leaseSeen := lease, scale := if won.isSome then none else x.scale, requests := [], deckle := x.deckle.filter (fun v => decide (t ≤ v.tick + 11)) }

/-- Some sheaves at the end of a sheet tick. -/
def endSheaves (t : Nat) : List Nat → Device → Device
  | [], s => s
  | g :: r, s => endSheaves t r (s.setSheaf g ((s.sheaf g).endTick t))

/-! ## The end of a sheet tick (R186, R192) -/

/-- Whether a sheet's tick is over: its bundles have issued, or no core issues one. -/
def Device.tickDone (s : Device) (l : Nat) : Bool :=
  let x := s.launch l
  x.st == .active && x.mode == .run && decide (x.switchAt < s.mill) &&
    (x.ticked || x.cores.all (fun core =>
      let c := s.ctx l core
      c.live.exited || c.live.next != x.tick))

/-- A sheet's tick ended: its ream commits after the last tick, else the next tick begins. -/
def endTick (l : Nat) (s : Device) : Device :=
  let x := s.launch l
  let s := endSheaves x.tick x.sheaves s
  let s := s.setLaunch l { x with ran := x.ran + 1 }
  if (x.tick + 1) % x.ream = 0 then commitReam l s
  else startTick l (s.setLaunch l { s.launch l with tick := x.tick + 1, ticked := false, oversize := false })

/-- A sheet at the end of a mill tick: the early commit it has asked for is made, or its tick ends where it is over. -/
def endSheet (l : Nat) (s : Device) : Device :=
  let x := s.launch l
  match x.mode with
  | .early core => if x.asked then earlyCommit l core s else s
  | _ => if s.tickDone l then endTick l s else s

/-- The ends of a mill tick of some sheets: commits that fall on one mill tick are made in the order of the sheets (R214). -/
def endTicks : List Nat → Device → Device
  | [], s => s
  | l :: t, s => endTicks t (endSheet l s)

/-- The active sheets, in the order of their lowest sheaf. -/
def Device.activeSheets (s : Device) : List Nat :=
  (rangeFrom 0 160).filterMap (fun g => match (s.sheaf g).active with
    | some l => if (s.launch l).sheaf0 = g ∧ (s.launch l).st = .active then some l else none
    | none => none)

/-! ## The results of launches that a fault has ended (R35, R56) -/

/-- The results of some contexts due by a tick. -/
def landLeft (l t : Nat) : List Nat → Device → Device
  | [], s => s
  | core :: r, s =>
    let (x, s) := performAll l core (dueFlights (s.ctx l core) t) { flags := [], evs := [] } s
    landLeft l t r (settleFlags l core x s).2

/-- The contexts of a launch that is no longer there. -/
def Device.leftOf (s : Device) (l : Nat) : List (Nat × Ctx) := s.ctxs.filter (fun p => p.1 / 640 == l && !p.2.present)

/-- One tick of the launches that a fault has ended; the contexts and timed copies go when no result is left. -/
def landEnding : List (Nat × Nat) → Device → Device
  | [], s => s
  | (l, t) :: r, s =>
    if (s.leftOf l).any (fun p => !p.2.live.flights.isEmpty) then
      landEnding r (landLeft l (t + 1) ((s.leftOf l).map (fun p => p.1 % 640)) { s with ending := s.ending ++ [(l, t + 1)] })
    else landEnding r (dropCopies (fun c => c.key / 640 == l) { s with ctxs := s.ctxs.filter (fun p => p.1 / 640 != l || p.2.present) })

/-! ## The steps of a mill tick -/

/-- A core as an operand of a step. -/
def coreIx (n : Nat) : CoreIx := Fin.ofNat 640 n
/-- A launch slot as an operand of a step. -/
def lslotIx (n : Nat) : LSlot := Fin.ofNat 512 n
/-- A stack as an operand of a step. -/
def stackIx (n : Nat) : StackIx := Fin.ofNat 8 n

/-- The launch slots that satisfy a test. -/
def Device.launchesWith (s : Device) (p : Nat → Launch → Bool) : List LSlot :=
  (s.launches.filter (fun (x : Nat × Launch) => p x.1 x.2)).map (fun x => lslotIx x.1)

/-- The numbers of an engine's commands that satisfy a test. -/
def numbersOf {α : Type} (p : α → Bool) (l : Assoc (Option α)) : List Nat :=
  l.filterMap (fun x => match x.2 with
    | some y => if p y then some x.1 else none
    | none => none)

/-- The module's own units: a start that overruns, the clock, the store, the monitors. -/
def Device.unitSteps (s : Device) : List Instr :=
  (match s.startDue with
    | some d => if d ≤ s.mill then [.startTimeout] else []
    | none => []) ++
  (match s.clkBusy with
    | some (_, d) => if d ≤ s.mill then [.clockChangeComplete] else []
    | none => []) ++
  (match s.cfgBusy with
    | some d => if d ≤ s.mill then [.cfgCommitComplete] else []
    | none => []) ++
  (if s.started && s.mill % 1200 == 0 then [.monitorSample] else [])

/-- The memory's steps: the positions of each timeline due by now, stalls, and lines that reach their copies (R265, R269,
R301). -/
def Device.memorySteps (s : Device) : List Instr :=
  (s.hbm.map (fun p =>
    let x := p.2
    if x.running then
      ((rangeFrom 0 4).filter (fun n => decide (x.t0 + 3 * (x.pos - x.base + n) / 5 ≤ s.mill))).map (fun _ => Instr.timelinePosition (stackIx p.1))
    else [])).flatten ++
  (s.hbm.map (fun p => (p.2.queues.filter (fun q => match q.2 with
      | e :: _ => e.turns == 64
      | [] => false)).map (fun q => Instr.drainStall (stackIx p.1) (Fin.ofNat 32 q.1)))).flatten ++
  ((rangeFrom 0 8).filter (fun st => s.web.any (fun w => w.stack == st && decide (w.arrive ≤ s.mill)))).map (fun st =>
    Instr.webLineArrival (stackIx st))

/-- The vat's steps: admission, reservations, placements in the order of R290 and R291, and switches. -/
def Device.vatSteps (s : Device) : List Instr :=
  s.admissions.map (fun _ => Instr.graphAdmit) ++
  (s.launchesWith (fun _ x => x.st == .ready && decide (s.mill - x.since ≥ s.reserveAfter))).map Instr.vatReservation ++
  s.reservations.map (fun l => Instr.vatPlacement (lslotIx l)) ++
  (s.byPriority (fun x => x.st == .ready || x.st == .out)).map (fun l => Instr.vatPlacement (lslotIx l)) ++
  (s.launchesWith (fun _ x => x.st == .active && x.mode == .parked && decide (x.switchAt ≤ s.mill))).map Instr.vatSwitchActive ++
  (s.byPriority (fun x => x.choosable)).map (fun l => Instr.vatSwitchActive (lslotIx l))

/-- The launches with a commit under way, in the order of their commits. -/
def Device.committers (s : Device) : List LSlot := (distinct [] (s.commits.map (fun c => c.l))).map lslotIx

/-- The steps of commits that bundles wait for (R192, R274, R300): a ream begins at the earliest in the tick after the last entry of
the commit before it entered its queue. -/
def Device.commitSteps (s : Device) : List Instr :=
  (s.launchesWith (fun _ x => x.st == .active && x.mode == .commit)).map Instr.reamAdvance ++
  s.committers.map Instr.commitEntryEnqueue ++
  (s.launchesWith (fun _ x => x.st == .active && x.still && x.mode != .stop)).map Instr.earlyCommitResume

/-- Whether a launch holds. -/
def Launch.holding (x : Launch) : Bool :=
  x.st == .active && (match x.mode with
    | .hold _ => true
    | _ => false)

/-- The cores of the sheets that are active and not parked, in ascending index. -/
def Device.runningCores (s : Device) : List CoreIx :=
  ((rangeFrom 0 160).filter (fun g => match (s.sheaf g).active with
    | some l => (s.launch l).st == .active && (s.launch l).mode != .parked
    | none => false)).flatMap (fun g => (rangeFrom (4 * g) 4).map coreIx)

/-- The steps of the sheets: holds, results, leases, reissues, bundles, and handlers (R9, R175, R189, R297, R387). -/
def Device.sheetSteps (s : Device) : List Instr :=
  let holds := s.launchesWith (fun _ x => x.holding)
  holds.map Instr.holdEnd ++ holds.map Instr.holdTimeout ++
  s.runningCores.map Instr.resultLanding ++
  ((rangeFrom 0 160).filter (fun g => (s.sheaf g).lease.holder.isSome)).map (fun g => Instr.leaseEnd (Fin.ofNat 160 g)) ++
  s.runningCores.map Instr.repReissue ++
  s.runningCores.map Instr.issueBundle ++
  ((s.ctxs.filter (fun p => p.2.handler.isSome)).map (fun p => Instr.handlerIssueBundle (coreIx (p.1 % 640))))

/-- The queues of contexts for which entries wait. -/
def Device.waitingQueues (s : Device) : List Instr :=
  (distinct [] (s.queueWaits.map (fun w => w.key % 640 * 4 + w.q.val))).map (fun n => .queueEntryEnter (coreIx (n / 4)) (Fin.ofNat 4 n))

/-- The steps of signals, streaming and the untimed engines, which take the bank-ticks that the bundles of the tick have left (R202,
R213, R295). -/
def Device.engineSteps (s : Device) : List Instr :=
  s.committers.map Instr.commitSignalPhase ++
  s.committers.map Instr.commitCompletionPhase ++
  (s.launchesWith (fun _ x => x.streaming != .idle && decide (x.switchAt ≤ s.mill))).map Instr.contextStreamComplete ++
  let copies := numbersOf (fun u => u.started && decide (u.due ≤ s.mill)) s.ucopies
  copies.map Instr.untimedCopyLine ++ copies.map Instr.untimedCopyComplete ++
  (numbersOf (fun g => decide (g.due ≤ s.mill)) s.signals).map Instr.barrierSignalDelivery ++
  (s.vtQueues.map (fun p => Instr.vtencService (stackIx p.1))) ++
  (numbersOf (fun b => decide (b.done ≤ s.mill)) s.vtBusy).map (fun q => Instr.vtencComplete (stackIx q)) ++
  (numbersOf (fun (f : Fred) => f.lost || (f.due != 0 && decide (f.due ≤ s.mill))) s.freds).map Instr.fredComplete ++
  (numbersOf (fun (f : Fred) => decide (s.mill - f.left ≥ s.holdLimit)) s.freds).map Instr.fredTimeout ++
  (numbersOf (fun (h : Held) => decide (s.mill - h.at_ ≥ s.holdLimit)) s.held).map Instr.fredHeldExpiry ++
  (numbersOf (fun (m : Migr) => decide (m.due ≤ s.mill)) s.migrs).flatMap (fun n => [Instr.migrPage n, Instr.migrComplete n]) ++
  (numbersOf (fun (i : Image) => decide (i.due ≤ s.mill)) s.images).map Instr.ctxImageComplete ++
  (match s.attests with
    | a :: _ => if a.due ≤ s.mill then [Instr.attestComplete] else []
    | [] => []) ++
  (match s.shootNow with
    | some n => n.waiting.map (fun c => Instr.shootdownAck (coreIx c)) ++ [Instr.shootdownComplete]
    | none => if s.shootQ.isEmpty then [] else [Instr.shootdownStart]) ++
  s.waitingQueues

/-- The host writes that the port has held back, to be tried again (R352). -/
def Device.heldWrites (s : Device) : List Instr := s.cxlHeld.map (fun w => Instr.cxlMemWrite w.1 w.2.1 w.2.2)

/-- The device's own steps of the present mill tick. -/
def Device.stepsOfTick (s : Device) : List Instr :=
  s.unitSteps ++ s.memorySteps ++ s.vatSteps ++ s.commitSteps ++ s.sheetSteps ++ s.engineSteps

/-- The next mill tick of the device: frames that waited for a bank are offered, sheets end their ticks, what engines write and installs
that wait go on, the clock advances, and handlers' results and outcomes take effect. -/
def Device.advance (s : Device) : Device :=
  let s := offerHeld s.framesHeld { s with framesHeld := [] }
  let s := endTicks s.activeSheets s
  let s := retryInstalls s.launches (enterBulk [] s.bulk s)
  let s := landEnding s.ending { s with mill := s.mill + 1, ending := [] }
  let s := landHandlers s.ctxs s
  handlerOutcomes s.ctxs s

/-- The next mill tick: the device's, with its steps laid out in the order in which they are taken, before what comes from
outside, so that receives find the banks of the tick taken (R202). -/
def newTick (s : State) : State :=
  let d := s.dev.advance
  { dev := { d with cxlHeld := [] }
    agenda := d.stepsOfTick ++ d.heldWrites ++ (s.inputs.filter (fun p => decide (p.1 ≤ d.mill))).map (fun p => p.2)
    inputs := s.inputs.filter (fun p => !decide (p.1 ≤ d.mill)) }

end Sys2Proof.Machine
end

