-- ==== Sys2Proof/Machine/ExecEvents.lean ====
section
/-! DEFINITION. The meanings of the steps of the device and of what reaches it from outside (rows of the table that no
bundle holds): each always has a next state. -/

namespace Sys2Proof.Machine

/-- ISSUE_BUNDLE (R55). -/
def execIssueBundle (core : CoreIx) (s : State) : Host.Outcome State Fault Refusal :=
  s.on (issueBundle core.val s.dev)

/-- EARLY_COMMIT_RESUME (R300). -/
def execEarlyCommitResume (l : LSlot) (s : State) : Host.Outcome State Fault Refusal :=
  s.on (earlyCommitResume l.val s.dev)

/-- HOLD_END (R189). -/
def execHoldEnd (l : LSlot) (s : State) : Host.Outcome State Fault Refusal :=
  s.on (holdEnd l.val s.dev)

/-- HOLD_TIMEOUT (R297). -/
def execHoldTimeout (l : LSlot) (s : State) : Host.Outcome State Fault Refusal :=
  s.on (holdTimeout l.val s.dev)

/-- RESULT_LANDING (R9). -/
def execResultLanding (core : CoreIx) (s : State) : Host.Outcome State Fault Refusal :=
  s.on (resultLanding core.val s.dev)

/-- REP_REISSUE (R175). -/
def execRepReissue (core : CoreIx) (s : State) : Host.Outcome State Fault Refusal :=
  s.on (repReissue core.val s.dev)

/-- LEASE_END (R162). -/
def execLeaseEnd (g : SheafIx) (s : State) : Host.Outcome State Fault Refusal :=
  s.on (leaseEnd g.val s.dev)

/-- COMMIT_ENTRY_ENQUEUE (R274). -/
def execCommitEntryEnqueue (l : LSlot) (s : State) : Host.Outcome State Fault Refusal :=
  s.on (commitEntryEnqueue l.val s.dev)

/-- REAM_ADVANCE (R192). -/
def execReamAdvance (l : LSlot) (s : State) : Host.Outcome State Fault Refusal :=
  s.on (reamAdvance l.val s.dev)

/-- COMMIT_SIGNAL_PHASE (R213). -/
def execCommitSignalPhase (l : LSlot) (s : State) : Host.Outcome State Fault Refusal :=
  s.on (commitSignalPhase l.val s.dev)

/-- COMMIT_COMPLETION_PHASE (R287). -/
def execCommitCompletionPhase (l : LSlot) (s : State) : Host.Outcome State Fault Refusal :=
  s.on (commitCompletionPhase l.val s.dev)

/-- HANDLER_ISSUE_BUNDLE (R387). -/
def execHandlerIssueBundle (core : CoreIx) (s : State) : Host.Outcome State Fault Refusal :=
  s.on (handlerIssueBundle core.val s.dev)

/-- TIMELINE_POSITION (R265). -/
def execTimelinePosition (st : StackIx) (s : State) : Host.Outcome State Fault Refusal :=
  s.on (timelinePosition st.val s.dev)

/-- DRAIN_STALL (R301). -/
def execDrainStall (st : StackIx) (ch : Fin 32) (s : State) : Host.Outcome State Fault Refusal :=
  s.on (drainStall st.val ch.val s.dev)

/-- WEB_LINE_ARRIVAL (R269). -/
def execWebLineArrival (st : StackIx) (s : State) : Host.Outcome State Fault Refusal :=
  s.on (webLineArrival st.val s.dev)

/-- UNTIMED_COPY_LINE (R217). -/
def execUntimedCopyLine (n : Nat) (s : State) : Host.Outcome State Fault Refusal :=
  s.on (untimedCopyLine n s.dev)

/-- UNTIMED_COPY_COMPLETE (R245). -/
def execUntimedCopyComplete (n : Nat) (s : State) : Host.Outcome State Fault Refusal :=
  s.on (untimedCopyComplete n s.dev)

/-- BARRIER_SIGNAL_DELIVERY (R253). -/
def execBarrierSignalDelivery (n : Nat) (s : State) : Host.Outcome State Fault Refusal :=
  s.on (barrierSignalDelivery n s.dev)

/-- VTENC_SERVICE (R180). -/
def execVtencService (q : StackIx) (s : State) : Host.Outcome State Fault Refusal :=
  s.on (vtencService q.val s.dev)

/-- VTENC_COMPLETE (R180). -/
def execVtencComplete (q : StackIx) (s : State) : Host.Outcome State Fault Refusal :=
  s.on (vtencComplete q.val s.dev)

/-- FRED_COMPLETE (R258). -/
def execFredComplete (n : Nat) (s : State) : Host.Outcome State Fault Refusal :=
  s.on (fredComplete n s.dev)

/-- FRED_TIMEOUT (R349). -/
def execFredTimeout (n : Nat) (s : State) : Host.Outcome State Fault Refusal :=
  s.on (fredTimeout n s.dev)

/-- FRED_HELD_EXPIRY (R350). -/
def execFredHeldExpiry (n : Nat) (s : State) : Host.Outcome State Fault Refusal :=
  s.on (fredHeldExpiry n s.dev)

/-- QUEUE_ENTRY_ENTER (R255). -/
def execQueueEntryEnter (core : CoreIx) (q : Fin 4) (s : State) : Host.Outcome State Fault Refusal :=
  s.on (queueEntryEnter core.val q s.dev)

/-- CXL_MEM_WRITE (R352). -/
def execCxlMemWrite (off : BitVec 46) (data : Line) (mask : BitVec 64) (s : State) :
    Host.Outcome State Fault Refusal :=
  s.on (whenStarted (cxlMemWrite off data mask) s.dev)

/-- VAT_PLACEMENT (R291). -/
def execVatPlacement (l : LSlot) (s : State) : Host.Outcome State Fault Refusal :=
  s.on (vatPlacement l.val s.dev)

/-- VAT_RESERVATION (R290). -/
def execVatReservation (l : LSlot) (s : State) : Host.Outcome State Fault Refusal :=
  s.on (vatReservation l.val s.dev)

/-- CONTEXT_STREAM_COMPLETE (R295). -/
def execContextStreamComplete (l : LSlot) (s : State) : Host.Outcome State Fault Refusal :=
  s.on (contextStreamComplete l.val s.dev)

/-- VAT_SWITCH_ACTIVE (R293). -/
def execVatSwitchActive (l : LSlot) (s : State) : Host.Outcome State Fault Refusal :=
  s.on (vatSwitchActive l.val s.dev)

/-- SHOOTDOWN_ACK (R303). -/
def execShootdownAck (core : CoreIx) (s : State) : Host.Outcome State Fault Refusal :=
  s.on (shootdownAck core.val s.dev)

/-- MIGR_PAGE (R260). -/
def execMigrPage (n : Nat) (s : State) : Host.Outcome State Fault Refusal :=
  s.on (migrPage n s.dev)

/-- MIGR_COMPLETE (R260). -/
def execMigrComplete (n : Nat) (s : State) : Host.Outcome State Fault Refusal :=
  s.on (migrComplete n s.dev)

/-- CTX_IMAGE_COMPLETE (R396). -/
def execCtxImageComplete (n : Nat) (s : State) : Host.Outcome State Fault Refusal :=
  s.on (ctxImageComplete n s.dev)

/-- FRED_CONTRIBUTION_ARRIVAL (R350). -/
def execFredContributionArrival (a : Arriving FredFrame) (s : State) : Host.Outcome State Fault Refusal :=
  s.on (whenStarted (fredContributionArrival a.link.val a.body) s.dev)

/-- WOVE_FRAME_RECEIVE (R347). -/
def execWoveFrameReceive (a : Arriving WoveFrame) (s : State) : Host.Outcome State Fault Refusal :=
  s.on (whenStarted (woveFrameReceive a.link.val a.body) s.dev)

/-- PEER_ACCESS_REQUEST (R348). -/
def execPeerAccessRequest (a : Arriving PeerReq) (s : State) : Host.Outcome State Fault Refusal :=
  s.on (whenStarted (peerAccessRequest a.link.val a.body) s.dev)

/-- HOST_MESSAGE_QUEUE_WRITE (R219). -/
def execHostMessageQueueWrite (core : CoreIx) (v : Dbl) (s : State) : Host.Outcome State Fault Refusal :=
  s.on (whenStarted (hostMessageQueueWrite core.val v) s.dev)

/-- CXL_MEM_READ (R352). -/
def execCxlMemRead (off : BitVec 46) (s : State) : Host.Outcome State Fault Refusal :=
  s.on (whenStarted (cxlMemRead off) s.dev)

/-- MGMT_REGISTER_WRITE (R354). -/
def execMgmtRegisterWrite (off : BitVec 26) (acc : MgmtAccess) (s : State) : Host.Outcome State Fault Refusal :=
  s.on (mgmtAccess off.toNat acc s.dev)

/-- JOB_PORT_WRITE (R282). -/
def execJobPortWrite (v : Dbl) (s : State) : Host.Outcome State Fault Refusal :=
  s.on (whenStarted (jobPortWrite v.toNat) s.dev)

/-- VATCFG_WRITE (R289). -/
def execVatcfgWrite (v : Dbl) (s : State) : Host.Outcome State Fault Refusal :=
  s.on (whenStarted (vatcfgWrite v) s.dev)

/-- TIMELINE_WORD_WRITE (R267). -/
def execTimelineWordWrite (st : StackIx) (ix : Fin 524288) (v : Dbl) (s : State) : Host.Outcome State Fault Refusal :=
  s.on (whenStarted (timelineWordWrite st.val ix.val v) s.dev)

/-- TLCTL_WRITE (R268). -/
def execTlctlWrite (st : StackIx) (v : Dbl) (s : State) : Host.Outcome State Fault Refusal :=
  s.on (whenStarted (tlctlWrite st.val v) s.dev)

/-- ASCTL_WRITE (R328). -/
def execAsctlWrite (a : Fin 256) (w : Fin 4) (v : Dbl) (s : State) : Host.Outcome State Fault Refusal :=
  s.on (whenStarted (asctlWrite a.val w.val v) s.dev)

/-- MEASEXT_WRITE (R356). -/
def execMeasextWrite (v : Dbl) (s : State) : Host.Outcome State Fault Refusal :=
  s.on (whenStarted (measextWrite v) s.dev)

/-- ERRPTR_HEAD_WRITE (R381). -/
def execErrptrHeadWrite (v : Dbl) (s : State) : Host.Outcome State Fault Refusal :=
  s.on (whenStarted (errptrHeadWrite v) s.dev)

/-- REQUEUE_WRITE (R383). -/
def execRequeueWrite (v : Dbl) (s : State) : Host.Outcome State Fault Refusal :=
  s.on (whenStarted (requeueWrite v) s.dev)

/-- HALTCTL_REQ (R390). -/
def execHaltctlReq (l : LSlot) (s : State) : Host.Outcome State Fault Refusal :=
  s.on (whenStarted (haltctlReq l.val) s.dev)

/-- HALTCTL_GO (R390). -/
def execHaltctlGo (l : LSlot) (s : State) : Host.Outcome State Fault Refusal :=
  s.on (whenStarted (haltctlGo l.val) s.dev)

/-- HALTCTL_STEP (R390). -/
def execHaltctlStep (l : LSlot) (s : State) : Host.Outcome State Fault Refusal :=
  s.on (whenStarted (haltctlStep l.val) s.dev)

/-- DBGDATA_WRITE (R390). -/
def execDbgdataWrite (v : Dbl) (s : State) : Host.Outcome State Fault Refusal :=
  s.on (whenStarted (dbgdataWrite v) s.dev)

/-- CLKCTL_WRITE (R404). -/
def execClkctlWrite (v : Dbl) (s : State) : Host.Outcome State Fault Refusal :=
  s.on (whenStarted (clkctlWrite v) s.dev)

/-- CFGCTL_COMMIT (R410). -/
def execCfgctlCommit (v : Dbl) (s : State) : Host.Outcome State Fault Refusal :=
  s.on (whenUp (cfgctlCommit v) s.dev)

/-- SHOOTREQ_WRITE (R398). -/
def execShootreqWrite (v : Dbl) (s : State) : Host.Outcome State Fault Refusal :=
  s.on (whenStarted (shootreqWrite v) s.dev)

/-- SPDM_REQUEST (R357). -/
def execSpdmRequest (req : SpdmReq) (s : State) : Host.Outcome State Fault Refusal :=
  s.on (whenUp (spdmRequest req) s.dev)

/-- WOVE_LINK_UP (R346). -/
def execWoveLinkUp (l : Fin 16) (s : State) : Host.Outcome State Fault Refusal :=
  s.on (whenStarted (woveLinkUp l) s.dev)

/-- WOVE_LINK_DOWN (R347). -/
def execWoveLinkDown (l : Fin 16) (s : State) : Host.Outcome State Fault Refusal :=
  s.on (whenStarted (woveLinkDown l) s.dev)

/-- CXL_UNSUPPORTED_REQUEST (R352). -/
def execCxlUnsupportedRequest (s : State) : Host.Outcome State Fault Refusal :=
  s.on (whenUp cxlUnsupportedRequest s.dev)

/-- APFENCE_READ (R223). -/
def execApfenceRead (s : State) : Host.Outcome State Fault Refusal :=
  s.on (whenStarted apfenceRead s.dev)

/-- CLOCK_CHANGE_COMPLETE (R404). -/
def execClockChangeComplete (s : State) : Host.Outcome State Fault Refusal :=
  s.on (clockChangeComplete s.dev)

/-- CFG_COMMIT_COMPLETE (R410). -/
def execCfgCommitComplete (s : State) : Host.Outcome State Fault Refusal :=
  s.on (cfgCommitComplete s.dev)

/-- SEEDCTL_RETRY (R408). -/
def execSeedctlRetry (s : State) : Host.Outcome State Fault Refusal :=
  s.on (seedctlRetry s.dev)

/-- SEEDCTL_GENKEY (R409). -/
def execSeedctlGenkey (s : State) : Host.Outcome State Fault Refusal :=
  s.on (whenUp seedctlGenkey s.dev)

/-- GRAPH_ADMIT (R318). -/
def execGraphAdmit (s : State) : Host.Outcome State Fault Refusal :=
  s.on (graphAdmit s.dev)

/-- SHOOTDOWN_START (R398). -/
def execShootdownStart (s : State) : Host.Outcome State Fault Refusal :=
  s.on (shootdownStart s.dev)

/-- SHOOTDOWN_COMPLETE (R341). -/
def execShootdownComplete (s : State) : Host.Outcome State Fault Refusal :=
  s.on (shootdownComplete s.dev)

/-- ATTEST_COMPLETE (R399). -/
def execAttestComplete (s : State) : Host.Outcome State Fault Refusal :=
  s.on (attestComplete s.dev)

/-- MONITOR_SAMPLE (R402). -/
def execMonitorSample (s : State) : Host.Outcome State Fault Refusal :=
  s.on (monitorSample s.dev)

/-- POWER_ON_START (R407). -/
def execPowerOnStart (s : State) : Host.Outcome State Fault Refusal :=
  s.on (powerOnStart s.dev)

/-- CONVENTIONAL_RESET_START (R406). -/
def execConventionalResetStart (s : State) : Host.Outcome State Fault Refusal :=
  s.on (conventionalResetStart s.dev)

/-- START_TIMEOUT (R407). -/
def execStartTimeout (s : State) : Host.Outcome State Fault Refusal :=
  s.on (startTimeout s.dev)

/-- POWER_LOSS (R407). -/
def execPowerLoss (s : State) : Host.Outcome State Fault Refusal :=
  s.on (powerLoss s.dev)

/-- HOST_SNOOP (R351). -/
def execHostSnoop (s : State) : Host.Outcome State Fault Refusal :=
  s.on (whenStarted hostSnoop s.dev)

end Sys2Proof.Machine
end

