-- ==== Sys2Proof/Machine/ExecMemory.lean ====
section
/-! DEFINITION. The meanings of the memory, copy and link instructions (R228 to R260): each is the issue of a bundle whose one slot
that does anything is the instruction. -/

namespace Sys2Proof.Machine

/-- LDB (R231). -/
def execLdb (r : SReg) (a : ANum) (o : BitVec 10) (s : State) : Host.Outcome State Fault Refusal :=
  issueOne (.ldb r a o) (slotLdb r a o) s

/-- LDH (R231). -/
def execLdh (r : SReg) (a : ANum) (o : BitVec 10) (s : State) : Host.Outcome State Fault Refusal :=
  issueOne (.ldh r a o) (slotLdh r a o) s

/-- LDW (R231). -/
def execLdw (r : SReg) (a : ANum) (o : BitVec 10) (s : State) : Host.Outcome State Fault Refusal :=
  issueOne (.ldw r a o) (slotLdw r a o) s

/-- LDD (R231). -/
def execLdd (r : SReg) (a : ANum) (o : BitVec 10) (s : State) : Host.Outcome State Fault Refusal :=
  issueOne (.ldd r a o) (slotLdd r a o) s

/-- STB (R231). -/
def execStb (r : SReg) (a : ANum) (o : BitVec 10) (s : State) : Host.Outcome State Fault Refusal :=
  issueOne (.stb r a o) (slotStb r a o) s

/-- STH (R231). -/
def execSth (r : SReg) (a : ANum) (o : BitVec 10) (s : State) : Host.Outcome State Fault Refusal :=
  issueOne (.sth r a o) (slotSth r a o) s

/-- STW (R231). -/
def execStw (r : SReg) (a : ANum) (o : BitVec 10) (s : State) : Host.Outcome State Fault Refusal :=
  issueOne (.stw r a o) (slotStw r a o) s

/-- STD (R231). -/
def execStd (r : SReg) (a : ANum) (o : BitVec 10) (s : State) : Host.Outcome State Fault Refusal :=
  issueOne (.std r a o) (slotStd r a o) s

/-- VLD (R231). -/
def execVld (r : VNum) (a : ANum) (o : BitVec 10) (s : State) : Host.Outcome State Fault Refusal :=
  issueOne (.vld r a o) (slotVld r a o) s

/-- VST (R231). -/
def execVst (r : VNum) (a : ANum) (o : BitVec 10) (s : State) : Host.Outcome State Fault Refusal :=
  issueOne (.vst r a o) (slotVst r a o) s

/-- TLD (R232). -/
def execTld (r : TNum) (a : ANum) (o : BitVec 10) (s : State) : Host.Outcome State Fault Refusal :=
  issueOne (.tld r a o) (slotTld r a o) s

/-- TST (R233). -/
def execTst (r : TNum) (a : ANum) (o : BitVec 10) (s : State) : Host.Outcome State Fault Refusal :=
  issueOne (.tst r a o) (slotTst r a o) s

/-- FLRD (R234). -/
def execFlrd (r : VNum) (a : ANum) (o : BitVec 10) (s : State) : Host.Outcome State Fault Refusal :=
  issueOne (.flrd r a o) (slotFlrd r a o) s

/-- VLDS (R236). -/
def execVlds (v : VNum) (a : ANum) (r : SReg) (s : State) : Host.Outcome State Fault Refusal :=
  issueOne (.vlds v a r) (slotVlds v a r) s

/-- VSTS (R236). -/
def execVsts (v : VNum) (a : ANum) (r : SReg) (s : State) : Host.Outcome State Fault Refusal :=
  issueOne (.vsts v a r) (slotVsts v a r) s

/-- VGTH (R237). -/
def execVgth (v : VNum) (a : ANum) (i : VNum) (w : GWidth) (s : State) : Host.Outcome State Fault Refusal :=
  issueOne (.vgth v a i w) (slotVgth v a i w) s

/-- VSCT (R237). -/
def execVsct (v : VNum) (a : ANum) (i : VNum) (w : GWidth) (s : State) : Host.Outcome State Fault Refusal :=
  issueOne (.vsct v a i w) (slotVsct v a i w) s

/-- DKPUT (R238). -/
def execDkput (l : BitVec 4) (v : VNum) (seg : BitVec 3) (s : State) : Host.Outcome State Fault Refusal :=
  issueOne (.dkput l v seg) (slotDkput l v seg) s

/-- DKPUT_SP (R238). -/
def execDkputSp (l : BitVec 4) (a : ANum) (s : State) : Host.Outcome State Fault Refusal :=
  issueOne (.dkputSp l a) (slotDkputSp l a) s

/-- DKTAKE (R238). -/
def execDktake (l : BitVec 4) (v : VNum) (seg : BitVec 3) (s : State) : Host.Outcome State Fault Refusal :=
  issueOne (.dktake l v seg) (slotDktake l v seg) s

/-- DKTAKE_SP (R238). -/
def execDktakeSp (l : BitVec 4) (a : ANum) (s : State) : Host.Outcome State Fault Refusal :=
  issueOne (.dktakeSp l a) (slotDktakeSp l a) s

/-- CPY (R244). -/
def execCpy (a : ANum) (so dof : SReg) (s : State) : Host.Outcome State Fault Refusal :=
  issueOne (.cpy a so dof) (slotCpy a so dof) s

/-- CPYU (R245). -/
def execCpyu (a : ANum) (so dof : SReg) (s : State) : Host.Outcome State Fault Refusal :=
  issueOne (.cpyu a so dof) (slotCpyu a so dof) s

/-- CPYW (R246). -/
def execCpyw (a : ANum) (so dof : SReg) (s : State) : Host.Outcome State Fault Refusal :=
  issueOne (.cpyw a so dof) (slotCpyw a so dof) s

/-- SATOM (R249). -/
def execSatom (a : ANum) (d : SReg) (op : AtomOp) (w : Bool) (cis : BitVec 2) (s : State) :
    Host.Outcome State Fault Refusal :=
  issueOne (.satom a d op w cis) (slotSatom a d op w cis) s

/-- GATOM (R250). -/
def execGatom (d a : SReg) (op : AtomOp) (w rt : Bool) (s : State) : Host.Outcome State Fault Refusal :=
  issueOne (.gatom d a op w rt) (slotGatom d a op w rt) s

/-- FENCE (R251). -/
def execFence (k : FenceKind) (s : State) : Host.Outcome State Fault Refusal :=
  issueOne (.fence k) (slotFence k) s

/-- BINIT (R252). -/
def execBinit (a : ANum) (v : SReg) (s : State) : Host.Outcome State Fault Refusal :=
  issueOne (.binit a v) (slotBinit a v) s

/-- BSIG (R253). -/
def execBsig (a : ANum) (v sc : SReg) (c : Bool) (s : State) : Host.Outcome State Fault Refusal :=
  issueOne (.bsig a v sc c) (slotBsig a v sc c) s

/-- BWAIT (R254). -/
def execBwait (a : ANum) (bare keep : Bool) (s : State) : Host.Outcome State Fault Refusal :=
  issueOne (.bwait a bare keep) (slotBwait a bare keep) s

/-- FSEND (R256, R347). -/
def execFsend (v : Bool) (r : BitVec 6) (x : SReg) (s : State) : Host.Outcome State Fault Refusal :=
  issueOne (.fsend v r x) (slotFsend v r x) s

/-- FRED (R258, R349). -/
def execFred (a : ANum) (s : State) : Host.Outcome State Fault Refusal :=
  issueOne (.fred a) (slotFred a) s

/-- QCNT (R255). -/
def execQcnt (d : SReg) (q : BitVec 2) (s : State) : Host.Outcome State Fault Refusal :=
  issueOne (.qcnt d q) (slotQcnt d q) s

/-- BXFM (R259). -/
def execBxfm (a : ANum) (op : Xfm) (v : SReg) (cnt : BitVec 4) (s : State) : Host.Outcome State Fault Refusal :=
  issueOne (.bxfm a op v cnt) (slotBxfm a op v cnt) s

/-- MIGR (R260). -/
def execMigr (a : ANum) (s : State) : Host.Outcome State Fault Refusal :=
  issueOne (.migr a) (slotMigr a) s

end Sys2Proof.Machine
end

