-- ==== Sys2Proof/Machine/ExecScalar.lean ====
section
/-! DEFINITION. The meanings of the scalar, predicate and address instructions (R119 to R124): each is the issue of a bundle whose one slot
that does anything is the instruction. -/

namespace Sys2Proof.Machine

/-- ADD (R119). -/
def execAdd (d a b : SReg) (s : State) : Host.Outcome State Fault Refusal :=
  issueOne (.add d a b) (slotAdd d a b) s

/-- SUB (R119). -/
def execSub (d a b : SReg) (s : State) : Host.Outcome State Fault Refusal :=
  issueOne (.sub d a b) (slotSub d a b) s

/-- AND (R119). -/
def execAnd (d a b : SReg) (s : State) : Host.Outcome State Fault Refusal :=
  issueOne (.and d a b) (slotAnd d a b) s

/-- OR (R119). -/
def execOr (d a b : SReg) (s : State) : Host.Outcome State Fault Refusal :=
  issueOne (.or d a b) (slotOr d a b) s

/-- XOR (R119). -/
def execXor (d a b : SReg) (s : State) : Host.Outcome State Fault Refusal :=
  issueOne (.xor d a b) (slotXor d a b) s

/-- ANDN (R119). -/
def execAndn (d a b : SReg) (s : State) : Host.Outcome State Fault Refusal :=
  issueOne (.andn d a b) (slotAndn d a b) s

/-- SHL (R119). -/
def execShl (d a b : SReg) (s : State) : Host.Outcome State Fault Refusal :=
  issueOne (.shl d a b) (slotShl d a b) s

/-- SHR (R119). -/
def execShr (d a b : SReg) (s : State) : Host.Outcome State Fault Refusal :=
  issueOne (.shr d a b) (slotShr d a b) s

/-- SRA (R119). -/
def execSra (d a b : SReg) (s : State) : Host.Outcome State Fault Refusal :=
  issueOne (.sra d a b) (slotSra d a b) s

/-- ROL (R119). -/
def execRol (d a b : SReg) (s : State) : Host.Outcome State Fault Refusal :=
  issueOne (.rol d a b) (slotRol d a b) s

/-- MIN (R119). -/
def execMin (d a b : SReg) (s : State) : Host.Outcome State Fault Refusal :=
  issueOne (.min d a b) (slotMin d a b) s

/-- MAX (R119). -/
def execMax (d a b : SReg) (s : State) : Host.Outcome State Fault Refusal :=
  issueOne (.max d a b) (slotMax d a b) s

/-- MINN (R119). -/
def execMinn (d a b : SReg) (s : State) : Host.Outcome State Fault Refusal :=
  issueOne (.minn d a b) (slotMinn d a b) s

/-- MAXN (R119). -/
def execMaxn (d a b : SReg) (s : State) : Host.Outcome State Fault Refusal :=
  issueOne (.maxn d a b) (slotMaxn d a b) s

/-- CLZ (R119). -/
def execClz (d a : SReg) (s : State) : Host.Outcome State Fault Refusal :=
  issueOne (.clz d a) (slotClz d a) s

/-- CTZ (R119). -/
def execCtz (d a : SReg) (s : State) : Host.Outcome State Fault Refusal :=
  issueOne (.ctz d a) (slotCtz d a) s

/-- POPC (R119). -/
def execPopc (d a : SReg) (s : State) : Host.Outcome State Fault Refusal :=
  issueOne (.popc d a) (slotPopc d a) s

/-- SEXT (R119). -/
def execSext (d a : SReg) (w : ExtW) (s : State) : Host.Outcome State Fault Refusal :=
  issueOne (.sext d a w) (slotSext d a w) s

/-- ZEXT (R119). -/
def execZext (d a : SReg) (w : ExtW) (s : State) : Host.Outcome State Fault Refusal :=
  issueOne (.zext d a w) (slotZext d a w) s

/-- CMP (R121). -/
def execCmp (c : Cond) (p : PNum) (a b : SReg) (s : State) : Host.Outcome State Fault Refusal :=
  issueOne (.cmp c p a b) (slotCmp c p a b) s

/-- PAND (R121). -/
def execPand (d a b : PNum) (s : State) : Host.Outcome State Fault Refusal :=
  issueOne (.pand d a b) (slotPand d a b) s

/-- POR (R121). -/
def execPor (d a b : PNum) (s : State) : Host.Outcome State Fault Refusal :=
  issueOne (.por d a b) (slotPor d a b) s

/-- PNOT (R121). -/
def execPnot (d a : PNum) (s : State) : Host.Outcome State Fault Refusal :=
  issueOne (.pnot d a) (slotPnot d a) s

/-- SEL (R119). -/
def execSel (d a b : SReg) (q : PNum) (s : State) : Host.Outcome State Fault Refusal :=
  issueOne (.sel d a b q) (slotSel d a b q) s

/-- NOP (R120). -/
def execNop (s : State) : Host.Outcome State Fault Refusal :=
  issueOne .nop slotNop s

/-- MUL (R119). -/
def execMul (d a b : SReg) (s : State) : Host.Outcome State Fault Refusal :=
  issueOne (.mul d a b) (slotMul d a b) s

/-- MULH (R119). -/
def execMulh (d a b : SReg) (s : State) : Host.Outcome State Fault Refusal :=
  issueOne (.mulh d a b) (slotMulh d a b) s

/-- MULHN (R119). -/
def execMulhn (d a b : SReg) (s : State) : Host.Outcome State Fault Refusal :=
  issueOne (.mulhn d a b) (slotMulhn d a b) s

/-- DIV (R119). -/
def execDiv (d a b : SReg) (s : State) : Host.Outcome State Fault Refusal :=
  issueOne (.div d a b) (slotDiv d a b) s

/-- DIVN (R119). -/
def execDivn (d a b : SReg) (s : State) : Host.Outcome State Fault Refusal :=
  issueOne (.divn d a b) (slotDivn d a b) s

/-- REM (R119). -/
def execRem (d a b : SReg) (s : State) : Host.Outcome State Fault Refusal :=
  issueOne (.rem d a b) (slotRem d a b) s

/-- REMN (R119). -/
def execRemn (d a b : SReg) (s : State) : Host.Outcome State Fault Refusal :=
  issueOne (.remn d a b) (slotRemn d a b) s

/-- ADDI (R120). -/
def execAddi (d a : SReg) (i : Imm) (s : State) : Host.Outcome State Fault Refusal :=
  issueOne (.addi d a i) (slotAddi d a i) s

/-- ANDI (R120). -/
def execAndi (d a : SReg) (i : Imm) (s : State) : Host.Outcome State Fault Refusal :=
  issueOne (.andi d a i) (slotAndi d a i) s

/-- ORI (R120). -/
def execOri (d a : SReg) (i : Imm) (s : State) : Host.Outcome State Fault Refusal :=
  issueOne (.ori d a i) (slotOri d a i) s

/-- XORI (R120). -/
def execXori (d a : SReg) (i : Imm) (s : State) : Host.Outcome State Fault Refusal :=
  issueOne (.xori d a i) (slotXori d a i) s

/-- SHLI (R120). -/
def execShli (d a : SReg) (n : BitVec 6) (s : State) : Host.Outcome State Fault Refusal :=
  issueOne (.shli d a n) (slotShli d a n) s

/-- SHRI (R120). -/
def execShri (d a : SReg) (n : BitVec 6) (s : State) : Host.Outcome State Fault Refusal :=
  issueOne (.shri d a n) (slotShri d a n) s

/-- SRAI (R120). -/
def execSrai (d a : SReg) (n : BitVec 6) (s : State) : Host.Outcome State Fault Refusal :=
  issueOne (.srai d a n) (slotSrai d a n) s

/-- CMPI (R121). -/
def execCmpi (c : Cond) (p : PNum) (a : SReg) (i : Imm) (s : State) : Host.Outcome State Fault Refusal :=
  issueOne (.cmpi c p a i) (slotCmpi c p a i) s

/-- MOVI (R120). -/
def execMovi (d : SReg) (i : Imm) (s : State) : Host.Outcome State Fault Refusal :=
  issueOne (.movi d i) (slotMovi d i) s

/-- LUI (R120). -/
def execLui (d : SReg) (u : BitVec 20) (s : State) : Host.Outcome State Fault Refusal :=
  issueOne (.lui d u) (slotLui d u) s

/-- ADDPC (R120). -/
def execAddpc (d : SReg) (u : BitVec 20) (s : State) : Host.Outcome State Fault Refusal :=
  issueOne (.addpc d u) (slotAddpc d u) s

/-- AMOV (R124). -/
def execAmov (d : ANum) (a : SReg) (s : State) : Host.Outcome State Fault Refusal :=
  issueOne (.amov d a) (slotAmov d a) s

/-- AADD (R124). -/
def execAadd (d a : ANum) (b : SReg) (s : State) : Host.Outcome State Fault Refusal :=
  issueOne (.aadd d a b) (slotAadd d a b) s

/-- AINC (R124). -/
def execAinc (d : ANum) (a : SReg) (s : State) : Host.Outcome State Fault Refusal :=
  issueOne (.ainc d a) (slotAinc d a) s

/-- AMOD (R124). -/
def execAmod (d : ANum) (a : SReg) (s : State) : Host.Outcome State Fault Refusal :=
  issueOne (.amod d a) (slotAmod d a) s

/-- AGET (R124). -/
def execAget (d : SReg) (a : ANum) (f : AField) (s : State) : Host.Outcome State Fault Refusal :=
  issueOne (.aget d a f) (slotAget d a f) s

/-- AADDI (R124). -/
def execAaddi (d a : ANum) (i : Imm) (s : State) : Host.Outcome State Fault Refusal :=
  issueOne (.aaddi d a i) (slotAaddi d a i) s

end Sys2Proof.Machine
end

