-- ==== Sys2Proof/Machine/ExecTile.lean ====
section
/-! DEFINITION. The meanings of the tile, press and logical-tile instructions (R149 to R181): each is the issue of a bundle whose one slot
that does anything is the instruction. -/

namespace Sys2Proof.Machine

/-- TTYPE (R151). -/
def execTtype (t : TNum) (r : SReg) (s : State) : Host.Outcome State Fault Refusal :=
  issueOne (.ttype t r) (slotTtype t r) s

/-- TGETT (R151). -/
def execTgett (d : SReg) (t : TNum) (r : Bool) (s : State) : Host.Outcome State Fault Refusal :=
  issueOne (.tgett d t r) (slotTgett d t r) s

/-- TBIND (R152). -/
def execTbind (v : DNum) (r : SReg) (s : State) : Host.Outcome State Fault Refusal :=
  issueOne (.tbind v r) (slotTbind v r) s

/-- TBIND_U (R152). -/
def execTbindU (v u : DNum) (s : State) : Host.Outcome State Fault Refusal :=
  issueOne (.tbindU v u) (slotTbindU v u) s

/-- TFREE (R152). -/
def execTfree (t : TNum) (s : State) : Host.Outcome State Fault Refusal :=
  issueOne (.tfree t) (slotTfree t) s

/-- TFREE_DV (R152). -/
def execTfreeDv (v : DNum) (s : State) : Host.Outcome State Fault Refusal :=
  issueOne (.tfreeDv v) (slotTfreeDv v) s

/-- TRESH (R150, R153). -/
def execTresh (d a : TNum) (r : SReg) (s : State) : Host.Outcome State Fault Refusal :=
  issueOne (.tresh d a r) (slotTresh d a r) s

/-- TTRANS (R150, R154). -/
def execTtrans (d a : TNum) (lt : Bool) (s : State) : Host.Outcome State Fault Refusal :=
  issueOne (.ttrans d a lt) (slotTtrans d a lt) s

/-- TCAST (R150, R155). -/
def execTcast (d a : TNum) (f : BitVec 5) (rnd sat : BitVec 2) (re : Bool) (off : BitVec 31) (s : State) :
    Host.Outcome State Fault Refusal :=
  issueOne (.tcast d a f rnd sat re off) (slotTcast d a f rnd sat re off) s

/-- TZERO (R157). -/
def execTzero (d : TNum) (s : State) : Host.Outcome State Fault Refusal :=
  issueOne (.tzero d) (slotTzero d) s

/-- TEXP (R150, R156). -/
def execTexp (d a : TNum) (k : KNum) (out : Bool) (s : State) : Host.Outcome State Fault Refusal :=
  issueOne (.texp d a k out) (slotTexp d a k out) s

/-- TMOV (R157). -/
def execTmov (d a : TNum) (s : State) : Host.Outcome State Fault Refusal :=
  issueOne (.tmov d a) (slotTmov d a) s

/-- LACQ. -/
def execLacq (p : PNum) (s : State) : Host.Outcome State Fault Refusal :=
  issueOne (.lacq p) (slotLacq p) s

/-- LREL (R162). -/
def execLrel (s : State) : Host.Outcome State Fault Refusal :=
  issueOne .lrel slotLrel s

/-- PLDB (R164, R165). -/
def execPldb (t : TNum) (mode : BitVec 2) (b : Bool) (x : TNum) (noff : BitVec 3) (k : KNum) (s : State) :
    Host.Outcome State Fault Refusal :=
  issueOne (.pldb t mode b x noff k) (slotPldb t mode b x noff k) s

/-- PLDB_SP (R164). -/
def execPldbSp (a : ANum) (b : Bool) (s : State) : Host.Outcome State Fault Refusal :=
  issueOne (.pldbSp a b) (slotPldbSp a b) s

/-- PLAID (R166). -/
def execPlaid (l : LwNum) (b : Bool) (r : SReg) (adv : Bool) (s : State) : Host.Outcome State Fault Refusal :=
  issueOne (.plaid l b r adv) (slotPlaid l b r adv) s

/-- PMMA (R167). -/
def execPmma (c : AccNum) (t : TNum) (b : Bool) (k : KNum) (s : State) : Host.Outcome State Fault Refusal :=
  issueOne (.pmma c t b k) (slotPmma c t b k) s

/-- PMMZ (R167). -/
def execPmmz (c : AccNum) (t : TNum) (b : Bool) (k : KNum) (s : State) : Host.Outcome State Fault Refusal :=
  issueOne (.pmmz c t b k) (slotPmmz c t b k) s

/-- PCLR (R168). -/
def execPclr (c : AccNum) (s : State) : Host.Outcome State Fault Refusal :=
  issueOne (.pclr c) (slotPclr c) s

/-- PTSC (R169). -/
def execPtsc (r : SReg) (off : Bool) (s : State) : Host.Outcome State Fault Refusal :=
  issueOne (.ptsc r off) (slotPtsc r off) s

/-- PDRN (R170, R171). -/
def execPdrn (c : AccNum) (dst : Bool) (cb : CbNum) (r : SReg) (x : DrainX) (s : State) :
    Host.Outcome State Fault Refusal :=
  issueOne (.pdrn c dst cb r x) (slotPdrn c dst cb r x) s

/-- CBLD (R172). -/
def execCbld (q : CbNum) (a : ANum) (o : BitVec 10) (s : State) : Host.Outcome State Fault Refusal :=
  issueOne (.cbld q a o) (slotCbld q a o) s

/-- CBLD_PT (R172). -/
def execCbldPt (a b : CbNum) (ea eb : Bool) (s : State) : Host.Outcome State Fault Refusal :=
  issueOne (.cbldPt a b ea eb) (slotCbldPt a b ea eb) s

/-- KLD (R173). -/
def execKld (k : KNum) (a : ANum) (o : BitVec 10) (s : State) : Host.Outcome State Fault Refusal :=
  issueOne (.kld k a o) (slotKld k a o) s

/-- LWSET (R174). -/
def execLwset (l : LwNum) (a : ANum) (o : BitVec 10) (s : State) : Host.Outcome State Fault Refusal :=
  issueOne (.lwset l a o) (slotLwset l a o) s

/-- LWSTEP (R174). -/
def execLwstep (l : LwNum) (r : SReg) (ab : Bool) (s : State) : Host.Outcome State Fault Refusal :=
  issueOne (.lwstep l r ab) (slotLwstep l r ab) s

/-- LTMMA (R176). -/
def execLtmma (c : AccNum) (a b : ANum) (z : Bool) (s : State) : Host.Outcome State Fault Refusal :=
  issueOne (.ltmma c a b z) (slotLtmma c a b z) s

/-- LTDRN (R177). -/
def execLtdrn (c : AccNum) (d : ANum) (r : SReg) (x : LDrainX) (s : State) : Host.Outcome State Fault Refusal :=
  issueOne (.ltdrn c d r x) (slotLtdrn c d r x) s

/-- VTENC (R179). -/
def execVtenc (p : PNum) (l : LwNum) (a : ANum) (s : State) : Host.Outcome State Fault Refusal :=
  issueOne (.vtenc p l a) (slotVtenc p l a) s

/-- REP (R175). -/
def execRep (cnt per : BitVec 6) (tstep astep : BitVec 3) (s : State) : Host.Outcome State Fault Refusal :=
  issueOne (.rep cnt per tstep astep) (slotRep cnt per tstep astep) s

end Sys2Proof.Machine
end

