-- ==== Sys2Proof/Machine/ExecVector.lean ====
section
/-! DEFINITION. The meanings of the vector instructions (R125 to R142): each is the issue of a bundle whose one slot
that does anything is the instruction. -/

namespace Sys2Proof.Machine

/-- VADD (R126). -/
def execVadd (e : FpFmt) (d a b : VNum) (m : VMod) (roff : BitVec 16) (s : State) :
    Host.Outcome State Fault Refusal :=
  issueOne (.vadd e d a b m roff) (slotVadd e d a b m roff) s

/-- VSUB (R126). -/
def execVsub (e : FpFmt) (d a b : VNum) (m : VMod) (roff : BitVec 16) (s : State) :
    Host.Outcome State Fault Refusal :=
  issueOne (.vsub e d a b m roff) (slotVsub e d a b m roff) s

/-- VMUL (R126). -/
def execVmul (e : FpFmt) (d a b : VNum) (m : VMod) (roff : BitVec 16) (s : State) :
    Host.Outcome State Fault Refusal :=
  issueOne (.vmul e d a b m roff) (slotVmul e d a b m roff) s

/-- VFMA (R126). -/
def execVfma (e : FpFmt) (d a b : VNum) (m : VMod) (roff : BitVec 16) (s : State) :
    Host.Outcome State Fault Refusal :=
  issueOne (.vfma e d a b m roff) (slotVfma e d a b m roff) s

/-- VFMS (R126). -/
def execVfms (e : FpFmt) (d a b : VNum) (m : VMod) (roff : BitVec 16) (s : State) :
    Host.Outcome State Fault Refusal :=
  issueOne (.vfms e d a b m roff) (slotVfms e d a b m roff) s

/-- VMIN (R126). -/
def execVmin (e : FpFmt) (d a b : VNum) (m : VMod) (s : State) : Host.Outcome State Fault Refusal :=
  issueOne (.vmin e d a b m) (slotVmin e d a b m) s

/-- VMAX (R126). -/
def execVmax (e : FpFmt) (d a b : VNum) (m : VMod) (s : State) : Host.Outcome State Fault Refusal :=
  issueOne (.vmax e d a b m) (slotVmax e d a b m) s

/-- VCMP (R127). -/
def execVcmp (e : FpFmt) (c : VCond) (d : MNum) (a b : VNum) (m : VMod) (s : State) :
    Host.Outcome State Fault Refusal :=
  issueOne (.vcmp e c d a b m) (slotVcmp e c d a b m) s

/-- VABS (R126). -/
def execVabs (e : FpFmt) (d a : VNum) (m : VMod) (s : State) : Host.Outcome State Fault Refusal :=
  issueOne (.vabs e d a m) (slotVabs e d a m) s

/-- VNEG (R126). -/
def execVneg (e : FpFmt) (d a : VNum) (m : VMod) (s : State) : Host.Outcome State Fault Refusal :=
  issueOne (.vneg e d a m) (slotVneg e d a m) s

/-- VSEL (R126). -/
def execVsel (e : FpFmt) (d a b : VNum) (m : VMod) (selm : MNum) (s : State) : Host.Outcome State Fault Refusal :=
  issueOne (.vsel e d a b m selm) (slotVsel e d a b m selm) s

/-- VRND (R126). -/
def execVrnd (e : FpFmt) (d a : VNum) (n : SReg) (m : VMod) (s : State) : Host.Outcome State Fault Refusal :=
  issueOne (.vrnd e d a n m) (slotVrnd e d a n m) s

/-- VEXP2 (R128). -/
def execVexp2 (e : FpFmt) (d a : VNum) (n : SReg) (m : VMod) (s : State) : Host.Outcome State Fault Refusal :=
  issueOne (.vexp2 e d a n m) (slotVexp2 e d a n m) s

/-- VLOG2 (R128). -/
def execVlog2 (e : FpFmt) (d a : VNum) (n : SReg) (m : VMod) (s : State) : Host.Outcome State Fault Refusal :=
  issueOne (.vlog2 e d a n m) (slotVlog2 e d a n m) s

/-- VRCP (R128). -/
def execVrcp (e : FpFmt) (d a : VNum) (n : SReg) (m : VMod) (s : State) : Host.Outcome State Fault Refusal :=
  issueOne (.vrcp e d a n m) (slotVrcp e d a n m) s

/-- VRSQ (R128). -/
def execVrsq (e : FpFmt) (d a : VNum) (n : SReg) (m : VMod) (s : State) : Host.Outcome State Fault Refusal :=
  issueOne (.vrsq e d a n m) (slotVrsq e d a n m) s

/-- VSIG (R128). -/
def execVsig (e : FpFmt) (d a : VNum) (n : SReg) (m : VMod) (s : State) : Host.Outcome State Fault Refusal :=
  issueOne (.vsig e d a n m) (slotVsig e d a n m) s

/-- VTANH (R128). -/
def execVtanh (e : FpFmt) (d a : VNum) (n : SReg) (m : VMod) (s : State) : Host.Outcome State Fault Refusal :=
  issueOne (.vtanh e d a n m) (slotVtanh e d a n m) s

/-- VREDSUM (R129). -/
def execVredsum (e : FpFmt) (d a : VNum) (n : SReg) (m : VMod) (acc : Bool) (s : State) :
    Host.Outcome State Fault Refusal :=
  issueOne (.vredsum e d a n m acc) (slotVredsum e d a n m acc) s

/-- VREDMAX (R129). -/
def execVredmax (e : FpFmt) (d a : VNum) (m : VMod) (acc : Bool) (s : State) : Host.Outcome State Fault Refusal :=
  issueOne (.vredmax e d a m acc) (slotVredmax e d a m acc) s

/-- VREDMIN (R129). -/
def execVredmin (e : FpFmt) (d a : VNum) (m : VMod) (acc : Bool) (s : State) : Host.Outcome State Fault Refusal :=
  issueOne (.vredmin e d a m acc) (slotVredmin e d a m acc) s

/-- VCVT_FP (R130). -/
def execVcvtFp (df sf : FloatFmt) (d a : VNum) (n : SReg) (m : VMod) (s : State) : Host.Outcome State Fault Refusal :=
  issueOne (.vcvtFp df sf d a n m) (slotVcvtFp df sf d a n m) s

/-- VCVT_INT (R130). -/
def execVcvtInt (dir : CvtDir) (i : IntFmt) (f : FpFmt) (d a : VNum) (n : SReg) (m : VMod) (s : State) :
    Host.Outcome State Fault Refusal :=
  issueOne (.vcvtInt dir i f d a n m) (slotVcvtInt dir i f d a n m) s

/-- VIADD (R131). -/
def execViadd (e : IntFmt) (d a b : VNum) (m : VMod) (s : State) : Host.Outcome State Fault Refusal :=
  issueOne (.viadd e d a b m) (slotViadd e d a b m) s

/-- VISUB (R131). -/
def execVisub (e : IntFmt) (d a b : VNum) (m : VMod) (s : State) : Host.Outcome State Fault Refusal :=
  issueOne (.visub e d a b m) (slotVisub e d a b m) s

/-- VIMUL (R131). -/
def execVimul (e : IntFmt) (d a b : VNum) (m : VMod) (s : State) : Host.Outcome State Fault Refusal :=
  issueOne (.vimul e d a b m) (slotVimul e d a b m) s

/-- VIDOT (R111, R132). -/
def execVidot (e : IntFmt) (d a b : VNum) (m : VMod) (s : State) : Host.Outcome State Fault Refusal :=
  issueOne (.vidot e d a b m) (slotVidot e d a b m) s

/-- VIMIN (R131). -/
def execVimin (e : IntFmt) (d a b : VNum) (m : VMod) (s : State) : Host.Outcome State Fault Refusal :=
  issueOne (.vimin e d a b m) (slotVimin e d a b m) s

/-- VIMAX (R131). -/
def execVimax (e : IntFmt) (d a b : VNum) (m : VMod) (s : State) : Host.Outcome State Fault Refusal :=
  issueOne (.vimax e d a b m) (slotVimax e d a b m) s

/-- VSHL (R131). -/
def execVshl (e : IntFmt) (d a b : VNum) (m : VMod) (imm : Bool) (amt : BitVec 6) (s : State) :
    Host.Outcome State Fault Refusal :=
  issueOne (.vshl e d a b m imm amt) (slotVshl e d a b m imm amt) s

/-- VSHR (R131). -/
def execVshr (e : IntFmt) (d a b : VNum) (m : VMod) (imm : Bool) (amt : BitVec 6) (s : State) :
    Host.Outcome State Fault Refusal :=
  issueOne (.vshr e d a b m imm amt) (slotVshr e d a b m imm amt) s

/-- VSRA (R131). -/
def execVsra (e : IntFmt) (d a b : VNum) (m : VMod) (imm : Bool) (amt : BitVec 6) (s : State) :
    Host.Outcome State Fault Refusal :=
  issueOne (.vsra e d a b m imm amt) (slotVsra e d a b m imm amt) s

/-- VAND (R131). -/
def execVand (e : IntFmt) (d a b : VNum) (m : VMod) (s : State) : Host.Outcome State Fault Refusal :=
  issueOne (.vand e d a b m) (slotVand e d a b m) s

/-- VOR (R131). -/
def execVor (e : IntFmt) (d a b : VNum) (m : VMod) (s : State) : Host.Outcome State Fault Refusal :=
  issueOne (.vor e d a b m) (slotVor e d a b m) s

/-- VXOR (R131). -/
def execVxor (e : IntFmt) (d a b : VNum) (m : VMod) (s : State) : Host.Outcome State Fault Refusal :=
  issueOne (.vxor e d a b m) (slotVxor e d a b m) s

/-- VPERM (R133). -/
def execVperm (e : EWidth) (d a b : VNum) (m : VMod) (s : State) : Host.Outcome State Fault Refusal :=
  issueOne (.vperm e d a b m) (slotVperm e d a b m) s

/-- VBCAST (R133). -/
def execVbcast (e : EWidth) (d a : VNum) (m : VMod) (scl : Bool) (idx : BitVec 10) (s : State) :
    Host.Outcome State Fault Refusal :=
  issueOne (.vbcast e d a m scl idx) (slotVbcast e d a m scl idx) s

/-- VZIP (R133). -/
def execVzip (e : EWidth) (d a b : VNum) (m : VMod) (s : State) : Host.Outcome State Fault Refusal :=
  issueOne (.vzip e d a b m) (slotVzip e d a b m) s

/-- VUNZIP (R133). -/
def execVunzip (e : EWidth) (d a b : VNum) (m : VMod) (s : State) : Host.Outcome State Fault Refusal :=
  issueOne (.vunzip e d a b m) (slotVunzip e d a b m) s

/-- VSLIDE (R133). -/
def execVslide (e : EWidth) (d a b : VNum) (m : VMod) (sh : BitVec 11) (s : State) :
    Host.Outcome State Fault Refusal :=
  issueOne (.vslide e d a b m sh) (slotVslide e d a b m sh) s

/-- VIOTA (R133). -/
def execViota (e : EWidth) (d : VNum) (a : SReg) (m : VMod) (s : State) : Host.Outcome State Fault Refusal :=
  issueOne (.viota e d a m) (slotViota e d a m) s

/-- VEXT (R133). -/
def execVext (e : EWidth) (d : SReg) (a : VNum) (b : SReg) (m : VMod) (sgn : Bool) (s : State) :
    Host.Outcome State Fault Refusal :=
  issueOne (.vext e d a b m sgn) (slotVext e d a b m sgn) s

/-- VINS (R133). -/
def execVins (e : EWidth) (d : VNum) (a b : SReg) (m : VMod) (s : State) : Host.Outcome State Fault Refusal :=
  issueOne (.vins e d a b m) (slotVins e d a b m) s

/-- VWIDEN_X2 (R134). -/
def execVwidenX2 (e : IntFmt) (d a : VNum) (m : VMod) (s : State) : Host.Outcome State Fault Refusal :=
  issueOne (.vwidenX2 e d a m) (slotVwidenX2 e d a m) s

/-- VWIDEN_X4 (R134). -/
def execVwidenX4 (e : IntFmt) (d a : VNum) (m : VMod) (s : State) : Host.Outcome State Fault Refusal :=
  issueOne (.vwidenX4 e d a m) (slotVwidenX4 e d a m) s

/-- VNARROW_D2 (R134). -/
def execVnarrowD2 (e : IntFmt) (d a : VNum) (m : VMod) (s : State) : Host.Outcome State Fault Refusal :=
  issueOne (.vnarrowD2 e d a m) (slotVnarrowD2 e d a m) s

/-- VNARROW_D4 (R134). -/
def execVnarrowD4 (e : IntFmt) (d a : VNum) (m : VMod) (s : State) : Host.Outcome State Fault Refusal :=
  issueOne (.vnarrowD4 e d a m) (slotVnarrowD4 e d a m) s

/-- VHUSK (R136). -/
def execVhusk (d : BitVec 6) (a b : SReg) (m : VMod) (hk msk : Bool) (wc : EWidth) (p : BitVec 16) (s : State) :
    Host.Outcome State Fault Refusal :=
  issueOne (.vhusk d a b m hk msk wc p) (slotVhusk d a b m hk msk wc p) s

/-- VPACK (R137). -/
def execVpack (d a : VNum) (m : VMod) (pfmt : BitVec 5) (res : BitVec 8) (s : State) :
    Host.Outcome State Fault Refusal :=
  issueOne (.vpack d a m pfmt res) (slotVpack d a m pfmt res) s

/-- VUNPACK (R138). -/
def execVunpack (d a : VNum) (m : VMod) (s : State) : Host.Outcome State Fault Refusal :=
  issueOne (.vunpack d a m) (slotVunpack d a m) s

/-- VLAID (R140). -/
def execVlaid (d : VNum) (l : LwNum) (n : SReg) (m : VMod) (adv w32 : Bool) (s : State) :
    Host.Outcome State Fault Refusal :=
  issueOne (.vlaid d l n m adv w32) (slotVlaid d l n m adv w32) s

/-- VQNT (R141). -/
def execVqnt (d a : VNum) (n : SReg) (m : VMod) (fout : BitVec 3) (sin : Bool) (cbx : CbNum) (kreg : KNum) (sb : BitVec 6) (s : State) :
    Host.Outcome State Fault Refusal :=
  issueOne (.vqnt d a n m fout sin cbx kreg sb) (slotVqnt d a n m fout sin cbx kreg sb) s

/-- MAND (R135). -/
def execMand (d a b : MNum) (m : VMod) (s : State) : Host.Outcome State Fault Refusal :=
  issueOne (.mand d a b m) (slotMand d a b m) s

/-- MOR (R135). -/
def execMor (d a b : MNum) (m : VMod) (s : State) : Host.Outcome State Fault Refusal :=
  issueOne (.mor d a b m) (slotMor d a b m) s

/-- MNOT (R135). -/
def execMnot (d a : MNum) (m : VMod) (s : State) : Host.Outcome State Fault Refusal :=
  issueOne (.mnot d a m) (slotMnot d a m) s

/-- MPOP (R135). -/
def execMpop (d : SReg) (a : MNum) (m : VMod) (s : State) : Host.Outcome State Fault Refusal :=
  issueOne (.mpop d a m) (slotMpop d a m) s

end Sys2Proof.Machine
end

