-- ==== Sys2Proof/Machine/Dispatch.lean ====
section
/-! DEFINITION. What each instruction and each step of the device does: one arm per constructor of `Instr`. -/

namespace Sys2Proof.Machine

def exec (i : Instr) (s : State) : Host.Outcome State Fault Refusal :=
  match i with
  | .add d a b => Sys2Proof.Machine.execAdd d a b s
  | .sub d a b => Sys2Proof.Machine.execSub d a b s
  | .and d a b => Sys2Proof.Machine.execAnd d a b s
  | .or d a b => Sys2Proof.Machine.execOr d a b s
  | .xor d a b => Sys2Proof.Machine.execXor d a b s
  | .andn d a b => Sys2Proof.Machine.execAndn d a b s
  | .shl d a b => Sys2Proof.Machine.execShl d a b s
  | .shr d a b => Sys2Proof.Machine.execShr d a b s
  | .sra d a b => Sys2Proof.Machine.execSra d a b s
  | .rol d a b => Sys2Proof.Machine.execRol d a b s
  | .min d a b => Sys2Proof.Machine.execMin d a b s
  | .max d a b => Sys2Proof.Machine.execMax d a b s
  | .minn d a b => Sys2Proof.Machine.execMinn d a b s
  | .maxn d a b => Sys2Proof.Machine.execMaxn d a b s
  | .clz d a => Sys2Proof.Machine.execClz d a s
  | .ctz d a => Sys2Proof.Machine.execCtz d a s
  | .popc d a => Sys2Proof.Machine.execPopc d a s
  | .sext d a w => Sys2Proof.Machine.execSext d a w s
  | .zext d a w => Sys2Proof.Machine.execZext d a w s
  | .cmp c p a b => Sys2Proof.Machine.execCmp c p a b s
  | .pand d a b => Sys2Proof.Machine.execPand d a b s
  | .por d a b => Sys2Proof.Machine.execPor d a b s
  | .pnot d a => Sys2Proof.Machine.execPnot d a s
  | .sel d a b q => Sys2Proof.Machine.execSel d a b q s
  | .nop => Sys2Proof.Machine.execNop s
  | .mul d a b => Sys2Proof.Machine.execMul d a b s
  | .mulh d a b => Sys2Proof.Machine.execMulh d a b s
  | .mulhn d a b => Sys2Proof.Machine.execMulhn d a b s
  | .div d a b => Sys2Proof.Machine.execDiv d a b s
  | .divn d a b => Sys2Proof.Machine.execDivn d a b s
  | .rem d a b => Sys2Proof.Machine.execRem d a b s
  | .remn d a b => Sys2Proof.Machine.execRemn d a b s
  | .addi d a imm => Sys2Proof.Machine.execAddi d a imm s
  | .andi d a imm => Sys2Proof.Machine.execAndi d a imm s
  | .ori d a imm => Sys2Proof.Machine.execOri d a imm s
  | .xori d a imm => Sys2Proof.Machine.execXori d a imm s
  | .shli d a n => Sys2Proof.Machine.execShli d a n s
  | .shri d a n => Sys2Proof.Machine.execShri d a n s
  | .srai d a n => Sys2Proof.Machine.execSrai d a n s
  | .cmpi c p a imm => Sys2Proof.Machine.execCmpi c p a imm s
  | .movi d imm => Sys2Proof.Machine.execMovi d imm s
  | .lui d u => Sys2Proof.Machine.execLui d u s
  | .addpc d u => Sys2Proof.Machine.execAddpc d u s
  | .amov d a => Sys2Proof.Machine.execAmov d a s
  | .aadd d a b => Sys2Proof.Machine.execAadd d a b s
  | .ainc d a => Sys2Proof.Machine.execAinc d a s
  | .amod d a => Sys2Proof.Machine.execAmod d a s
  | .aget d a f => Sys2Proof.Machine.execAget d a f s
  | .aaddi d a imm => Sys2Proof.Machine.execAaddi d a imm s
  | .vadd e d a b m roff => Sys2Proof.Machine.execVadd e d a b m roff s
  | .vsub e d a b m roff => Sys2Proof.Machine.execVsub e d a b m roff s
  | .vmul e d a b m roff => Sys2Proof.Machine.execVmul e d a b m roff s
  | .vfma e d a b m roff => Sys2Proof.Machine.execVfma e d a b m roff s
  | .vfms e d a b m roff => Sys2Proof.Machine.execVfms e d a b m roff s
  | .vmin e d a b m => Sys2Proof.Machine.execVmin e d a b m s
  | .vmax e d a b m => Sys2Proof.Machine.execVmax e d a b m s
  | .vcmp e c d a b m => Sys2Proof.Machine.execVcmp e c d a b m s
  | .vabs e d a m => Sys2Proof.Machine.execVabs e d a m s
  | .vneg e d a m => Sys2Proof.Machine.execVneg e d a m s
  | .vsel e d a b m selm => Sys2Proof.Machine.execVsel e d a b m selm s
  | .vrnd e d a n m => Sys2Proof.Machine.execVrnd e d a n m s
  | .vexp2 e d a n m => Sys2Proof.Machine.execVexp2 e d a n m s
  | .vlog2 e d a n m => Sys2Proof.Machine.execVlog2 e d a n m s
  | .vrcp e d a n m => Sys2Proof.Machine.execVrcp e d a n m s
  | .vrsq e d a n m => Sys2Proof.Machine.execVrsq e d a n m s
  | .vsig e d a n m => Sys2Proof.Machine.execVsig e d a n m s
  | .vtanh e d a n m => Sys2Proof.Machine.execVtanh e d a n m s
  | .vredsum e d a n m acc => Sys2Proof.Machine.execVredsum e d a n m acc s
  | .vredmax e d a m acc => Sys2Proof.Machine.execVredmax e d a m acc s
  | .vredmin e d a m acc => Sys2Proof.Machine.execVredmin e d a m acc s
  | .vcvtFp df sf d a n m => Sys2Proof.Machine.execVcvtFp df sf d a n m s
  | .vcvtInt dir ix f d a n m => Sys2Proof.Machine.execVcvtInt dir ix f d a n m s
  | .viadd e d a b m => Sys2Proof.Machine.execViadd e d a b m s
  | .visub e d a b m => Sys2Proof.Machine.execVisub e d a b m s
  | .vimul e d a b m => Sys2Proof.Machine.execVimul e d a b m s
  | .vidot e d a b m => Sys2Proof.Machine.execVidot e d a b m s
  | .vimin e d a b m => Sys2Proof.Machine.execVimin e d a b m s
  | .vimax e d a b m => Sys2Proof.Machine.execVimax e d a b m s
  | .vshl e d a b m imm amt => Sys2Proof.Machine.execVshl e d a b m imm amt s
  | .vshr e d a b m imm amt => Sys2Proof.Machine.execVshr e d a b m imm amt s
  | .vsra e d a b m imm amt => Sys2Proof.Machine.execVsra e d a b m imm amt s
  | .vand e d a b m => Sys2Proof.Machine.execVand e d a b m s
  | .vor e d a b m => Sys2Proof.Machine.execVor e d a b m s
  | .vxor e d a b m => Sys2Proof.Machine.execVxor e d a b m s
  | .vperm e d a b m => Sys2Proof.Machine.execVperm e d a b m s
  | .vbcast e d a m scl idx => Sys2Proof.Machine.execVbcast e d a m scl idx s
  | .vzip e d a b m => Sys2Proof.Machine.execVzip e d a b m s
  | .vunzip e d a b m => Sys2Proof.Machine.execVunzip e d a b m s
  | .vslide e d a b m sh => Sys2Proof.Machine.execVslide e d a b m sh s
  | .viota e d a m => Sys2Proof.Machine.execViota e d a m s
  | .vext e d a b m sgn => Sys2Proof.Machine.execVext e d a b m sgn s
  | .vins e d a b m => Sys2Proof.Machine.execVins e d a b m s
  | .vwidenX2 e d a m => Sys2Proof.Machine.execVwidenX2 e d a m s
  | .vwidenX4 e d a m => Sys2Proof.Machine.execVwidenX4 e d a m s
  | .vnarrowD2 e d a m => Sys2Proof.Machine.execVnarrowD2 e d a m s
  | .vnarrowD4 e d a m => Sys2Proof.Machine.execVnarrowD4 e d a m s
  | .vhusk d a b m hk msk wc p => Sys2Proof.Machine.execVhusk d a b m hk msk wc p s
  | .vpack d a m pfmt res => Sys2Proof.Machine.execVpack d a m pfmt res s
  | .vunpack d a m => Sys2Proof.Machine.execVunpack d a m s
  | .vlaid d l n m adv w32 => Sys2Proof.Machine.execVlaid d l n m adv w32 s
  | .vqnt d a n m fout sin cbx kreg sb => Sys2Proof.Machine.execVqnt d a n m fout sin cbx kreg sb s
  | .mand d a b m => Sys2Proof.Machine.execMand d a b m s
  | .mor d a b m => Sys2Proof.Machine.execMor d a b m s
  | .mnot d a m => Sys2Proof.Machine.execMnot d a m s
  | .mpop d a m => Sys2Proof.Machine.execMpop d a m s
  | .ttype t r => Sys2Proof.Machine.execTtype t r s
  | .tgett d t r => Sys2Proof.Machine.execTgett d t r s
  | .tbind v r => Sys2Proof.Machine.execTbind v r s
  | .tbindU v u => Sys2Proof.Machine.execTbindU v u s
  | .tfree t => Sys2Proof.Machine.execTfree t s
  | .tfreeDv v => Sys2Proof.Machine.execTfreeDv v s
  | .tresh d a r => Sys2Proof.Machine.execTresh d a r s
  | .ttrans d a lt => Sys2Proof.Machine.execTtrans d a lt s
  | .tcast d a f rnd sat re off => Sys2Proof.Machine.execTcast d a f rnd sat re off s
  | .tzero d => Sys2Proof.Machine.execTzero d s
  | .texp d a k out => Sys2Proof.Machine.execTexp d a k out s
  | .tmov d a => Sys2Proof.Machine.execTmov d a s
  | .lacq p => Sys2Proof.Machine.execLacq p s
  | .lrel => Sys2Proof.Machine.execLrel s
  | .pldb t mode b x noff k => Sys2Proof.Machine.execPldb t mode b x noff k s
  | .pldbSp a b => Sys2Proof.Machine.execPldbSp a b s
  | .plaid l b r adv => Sys2Proof.Machine.execPlaid l b r adv s
  | .pmma c t b k => Sys2Proof.Machine.execPmma c t b k s
  | .pmmz c t b k => Sys2Proof.Machine.execPmmz c t b k s
  | .pclr c => Sys2Proof.Machine.execPclr c s
  | .ptsc r off => Sys2Proof.Machine.execPtsc r off s
  | .pdrn c dst cb r x => Sys2Proof.Machine.execPdrn c dst cb r x s
  | .cbld q a o => Sys2Proof.Machine.execCbld q a o s
  | .cbldPt a b ea eb => Sys2Proof.Machine.execCbldPt a b ea eb s
  | .kld k a o => Sys2Proof.Machine.execKld k a o s
  | .lwset l a o => Sys2Proof.Machine.execLwset l a o s
  | .lwstep l r ab => Sys2Proof.Machine.execLwstep l r ab s
  | .ltmma c a b z => Sys2Proof.Machine.execLtmma c a b z s
  | .ltdrn c d r x => Sys2Proof.Machine.execLtdrn c d r x s
  | .vtenc p l a => Sys2Proof.Machine.execVtenc p l a s
  | .rep cnt per tstep astep => Sys2Proof.Machine.execRep cnt per tstep astep s
  | .ldb r a o => Sys2Proof.Machine.execLdb r a o s
  | .ldh r a o => Sys2Proof.Machine.execLdh r a o s
  | .ldw r a o => Sys2Proof.Machine.execLdw r a o s
  | .ldd r a o => Sys2Proof.Machine.execLdd r a o s
  | .stb r a o => Sys2Proof.Machine.execStb r a o s
  | .sth r a o => Sys2Proof.Machine.execSth r a o s
  | .stw r a o => Sys2Proof.Machine.execStw r a o s
  | .std r a o => Sys2Proof.Machine.execStd r a o s
  | .vld r a o => Sys2Proof.Machine.execVld r a o s
  | .vst r a o => Sys2Proof.Machine.execVst r a o s
  | .tld r a o => Sys2Proof.Machine.execTld r a o s
  | .tst r a o => Sys2Proof.Machine.execTst r a o s
  | .flrd r a o => Sys2Proof.Machine.execFlrd r a o s
  | .vlds v a r => Sys2Proof.Machine.execVlds v a r s
  | .vsts v a r => Sys2Proof.Machine.execVsts v a r s
  | .vgth v a ix w => Sys2Proof.Machine.execVgth v a ix w s
  | .vsct v a ix w => Sys2Proof.Machine.execVsct v a ix w s
  | .dkput l v seg => Sys2Proof.Machine.execDkput l v seg s
  | .dkputSp l a => Sys2Proof.Machine.execDkputSp l a s
  | .dktake l v seg => Sys2Proof.Machine.execDktake l v seg s
  | .dktakeSp l a => Sys2Proof.Machine.execDktakeSp l a s
  | .cpy a so dof => Sys2Proof.Machine.execCpy a so dof s
  | .cpyu a so dof => Sys2Proof.Machine.execCpyu a so dof s
  | .cpyw a so dof => Sys2Proof.Machine.execCpyw a so dof s
  | .satom a d op w cis => Sys2Proof.Machine.execSatom a d op w cis s
  | .gatom d a op w rt => Sys2Proof.Machine.execGatom d a op w rt s
  | .fence k => Sys2Proof.Machine.execFence k s
  | .binit a v => Sys2Proof.Machine.execBinit a v s
  | .bsig a v sc c => Sys2Proof.Machine.execBsig a v sc c s
  | .bwait a bare keep => Sys2Proof.Machine.execBwait a bare keep s
  | .fsend v r x => Sys2Proof.Machine.execFsend v r x s
  | .fred a => Sys2Proof.Machine.execFred a s
  | .qcnt d q => Sys2Proof.Machine.execQcnt d q s
  | .bxfm a op v cnt => Sys2Proof.Machine.execBxfm a op v cnt s
  | .migr a => Sys2Proof.Machine.execMigr a s
  | .jmp o => Sys2Proof.Machine.execJmp o s
  | .call o => Sys2Proof.Machine.execCall o s
  | .br r o => Sys2Proof.Machine.execBr r o s
  | .brp inv p o => Sys2Proof.Machine.execBrp inv p o s
  | .callr d a => Sys2Proof.Machine.execCallr d a s
  | .ret a => Sys2Proof.Machine.execRet a s
  | .loop cnt eo => Sys2Proof.Machine.execLoop cnt eo s
  | .loops r eo => Sys2Proof.Machine.execLoops r eo s
  | .lidx d dep pop => Sys2Proof.Machine.execLidx d dep pop s
  | .waitt n => Sys2Proof.Machine.execWaitt n s
  | .waittAbs r => Sys2Proof.Machine.execWaittAbs r s
  | .bnd => Sys2Proof.Machine.execBnd s
  | .exit => Sys2Proof.Machine.execExit s
  | .launch d a p => Sys2Proof.Machine.execLaunch d a p s
  | .graph d a p => Sys2Proof.Machine.execGraph d a p s
  | .ccwait ge a b => Sys2Proof.Machine.execCcwait ge a b s
  | .ccrd d a => Sys2Proof.Machine.execCcrd d a s
  | .cancel a p => Sys2Proof.Machine.execCancel a p s
  | .hsig r v => Sys2Proof.Machine.execHsig r v s
  | .trap c => Sys2Proof.Machine.execTrap c s
  | .brk c => Sys2Proof.Machine.execBrk c s
  | .rth act => Sys2Proof.Machine.execRth act s
  | .mfsr d sr => Sys2Proof.Machine.execMfsr d sr s
  | .mtsr a sr => Sys2Proof.Machine.execMtsr a sr s
  | .ctxsw p r inn => Sys2Proof.Machine.execCtxsw p r inn s
  | .ctxst a r b => Sys2Proof.Machine.execCtxst a r b s
  | .ctxld a r b => Sys2Proof.Machine.execCtxld a r b s
  | .tlbinv sc r b => Sys2Proof.Machine.execTlbinv sc r b s
  | .shoot a sc r b => Sys2Proof.Machine.execShoot a sc r b s
  | .monrd d a => Sys2Proof.Machine.execMonrd d a s
  | .attest a m b => Sys2Proof.Machine.execAttest a m b s
  | .errpop d w pop => Sys2Proof.Machine.execErrpop d w pop s
  | .haltc p r op => Sys2Proof.Machine.execHaltc p r op s
  | .issueBundle core => Sys2Proof.Machine.execIssueBundle core s
  | .earlyCommitResume l => Sys2Proof.Machine.execEarlyCommitResume l s
  | .holdEnd l => Sys2Proof.Machine.execHoldEnd l s
  | .holdTimeout l => Sys2Proof.Machine.execHoldTimeout l s
  | .resultLanding core => Sys2Proof.Machine.execResultLanding core s
  | .repReissue core => Sys2Proof.Machine.execRepReissue core s
  | .leaseEnd g => Sys2Proof.Machine.execLeaseEnd g s
  | .commitEntryEnqueue l => Sys2Proof.Machine.execCommitEntryEnqueue l s
  | .reamAdvance l => Sys2Proof.Machine.execReamAdvance l s
  | .commitSignalPhase l => Sys2Proof.Machine.execCommitSignalPhase l s
  | .commitCompletionPhase l => Sys2Proof.Machine.execCommitCompletionPhase l s
  | .handlerIssueBundle core => Sys2Proof.Machine.execHandlerIssueBundle core s
  | .timelinePosition st => Sys2Proof.Machine.execTimelinePosition st s
  | .drainStall st ch => Sys2Proof.Machine.execDrainStall st ch s
  | .webLineArrival st => Sys2Proof.Machine.execWebLineArrival st s
  | .untimedCopyLine n => Sys2Proof.Machine.execUntimedCopyLine n s
  | .untimedCopyComplete n => Sys2Proof.Machine.execUntimedCopyComplete n s
  | .barrierSignalDelivery n => Sys2Proof.Machine.execBarrierSignalDelivery n s
  | .vtencService q => Sys2Proof.Machine.execVtencService q s
  | .vtencComplete q => Sys2Proof.Machine.execVtencComplete q s
  | .fredComplete n => Sys2Proof.Machine.execFredComplete n s
  | .fredTimeout n => Sys2Proof.Machine.execFredTimeout n s
  | .fredHeldExpiry n => Sys2Proof.Machine.execFredHeldExpiry n s
  | .queueEntryEnter core q => Sys2Proof.Machine.execQueueEntryEnter core q s
  | .cxlMemWrite off data mask => Sys2Proof.Machine.execCxlMemWrite off data mask s
  | .vatPlacement l => Sys2Proof.Machine.execVatPlacement l s
  | .vatReservation l => Sys2Proof.Machine.execVatReservation l s
  | .contextStreamComplete l => Sys2Proof.Machine.execContextStreamComplete l s
  | .vatSwitchActive l => Sys2Proof.Machine.execVatSwitchActive l s
  | .shootdownAck core => Sys2Proof.Machine.execShootdownAck core s
  | .migrPage n => Sys2Proof.Machine.execMigrPage n s
  | .migrComplete n => Sys2Proof.Machine.execMigrComplete n s
  | .ctxImageComplete n => Sys2Proof.Machine.execCtxImageComplete n s
  | .fredContributionArrival a => Sys2Proof.Machine.execFredContributionArrival a s
  | .woveFrameReceive a => Sys2Proof.Machine.execWoveFrameReceive a s
  | .peerAccessRequest a => Sys2Proof.Machine.execPeerAccessRequest a s
  | .hostMessageQueueWrite core v => Sys2Proof.Machine.execHostMessageQueueWrite core v s
  | .cxlMemRead off => Sys2Proof.Machine.execCxlMemRead off s
  | .mgmtRegisterWrite off acc => Sys2Proof.Machine.execMgmtRegisterWrite off acc s
  | .jobPortWrite v => Sys2Proof.Machine.execJobPortWrite v s
  | .vatcfgWrite v => Sys2Proof.Machine.execVatcfgWrite v s
  | .timelineWordWrite st ix v => Sys2Proof.Machine.execTimelineWordWrite st ix v s
  | .tlctlWrite st v => Sys2Proof.Machine.execTlctlWrite st v s
  | .asctlWrite a w v => Sys2Proof.Machine.execAsctlWrite a w v s
  | .measextWrite v => Sys2Proof.Machine.execMeasextWrite v s
  | .errptrHeadWrite v => Sys2Proof.Machine.execErrptrHeadWrite v s
  | .requeueWrite v => Sys2Proof.Machine.execRequeueWrite v s
  | .haltctlReq l => Sys2Proof.Machine.execHaltctlReq l s
  | .haltctlGo l => Sys2Proof.Machine.execHaltctlGo l s
  | .haltctlStep l => Sys2Proof.Machine.execHaltctlStep l s
  | .dbgdataWrite v => Sys2Proof.Machine.execDbgdataWrite v s
  | .clkctlWrite v => Sys2Proof.Machine.execClkctlWrite v s
  | .cfgctlCommit v => Sys2Proof.Machine.execCfgctlCommit v s
  | .shootreqWrite v => Sys2Proof.Machine.execShootreqWrite v s
  | .spdmRequest req => Sys2Proof.Machine.execSpdmRequest req s
  | .woveLinkUp l => Sys2Proof.Machine.execWoveLinkUp l s
  | .woveLinkDown l => Sys2Proof.Machine.execWoveLinkDown l s
  | .cxlUnsupportedRequest => Sys2Proof.Machine.execCxlUnsupportedRequest s
  | .apfenceRead => Sys2Proof.Machine.execApfenceRead s
  | .clockChangeComplete => Sys2Proof.Machine.execClockChangeComplete s
  | .cfgCommitComplete => Sys2Proof.Machine.execCfgCommitComplete s
  | .seedctlRetry => Sys2Proof.Machine.execSeedctlRetry s
  | .seedctlGenkey => Sys2Proof.Machine.execSeedctlGenkey s
  | .graphAdmit => Sys2Proof.Machine.execGraphAdmit s
  | .shootdownStart => Sys2Proof.Machine.execShootdownStart s
  | .shootdownComplete => Sys2Proof.Machine.execShootdownComplete s
  | .attestComplete => Sys2Proof.Machine.execAttestComplete s
  | .monitorSample => Sys2Proof.Machine.execMonitorSample s
  | .powerOnStart => Sys2Proof.Machine.execPowerOnStart s
  | .conventionalResetStart => Sys2Proof.Machine.execConventionalResetStart s
  | .startTimeout => Sys2Proof.Machine.execStartTimeout s
  | .powerLoss => Sys2Proof.Machine.execPowerLoss s
  | .hostSnoop => Sys2Proof.Machine.execHostSnoop s

end Sys2Proof.Machine
end

