-- ==== Sys2Proof/Machine/Step.lean ====
section
/-! DEFINITION. One step of the module: the next step laid out for the present mill tick, or the next mill tick; and the
placing of a word where the next step fetches it. -/

namespace Sys2Proof.Machine

/-- The next step: the first of those laid out for the present mill tick, else the next mill tick. -/
def step (s : State) : Host.Outcome State Fault Refusal :=
  match s.agenda with
  | [] => .next (newTick s)
  | i :: t => exec i { s with agenda := t }

/-- The virtual address of the placed bundle. -/
def placedPc : Nat := 65536

/-- The words of a bundle of four slots whose first is the placed word, with its extension after it where X is 1; a word
with S = 1 comes last, after three NOPs. -/
def placedWords (w : Nat) : List Nat :=
  let nop := 0x3F
  let last := 0x8000003F
  if bitAt w 31 then [nop, nop, nop, w % 2 ^ 32]
  else if bitAt w 30 then [w % 2 ^ 32, w / 2 ^ 32 % 2 ^ 31, nop, last]
  else [w % 2 ^ 32, nop, nop, last]

/-- Word 0 of the leaf that maps the placed page: resident host memory with every right. -/
def placedLeaf : Dbl := dbl (2 ^ 63 + 2 ^ 62 + 2 ^ 61 + 7 * 2 ^ 49 + 2 ^ 44 + placedPc)

/-- The launch record of the placed sheet: sheaf 0 alone, 2 MiB and 128 slots a core, MREV 2. -/
def placedRecord : BitVec 512 := BitVec.ofNat 512 (128 * 2 ^ 247 + 32 * 2 ^ 255 + 2 * 2 ^ 262 + 2 ^ 288)

/-- The placed sheet, active at its first tick. -/
def placedLaunch : Launch :=
  { Launch.free with
    st := .active, record := placedRecord, seats := [{ sheaf := 0, slotNo := 0, spBase := 0, accBase := 0 }], leases := [Lease.init],
    units := List.replicate 4 (0, false, false, false) }

/-- A context of the placed sheet: core 0 is at the placed bundle, the other units have exited. -/
def placedCtx (core : Nat) : Ctx :=
  let v := { Live.init with pc := placedPc, exited := core != 0, budget := 32768, effects := 256 }
  { Ctx.empty with present := true, live := v, ckpt := v }

/-- The state with an instruction placed where the next step fetches one: a sheet of one sheaf is active in launch slot 0
of address space 0, core 0 is about to issue at sheet tick 0, and its page is in the core's TLB (log entry 1). -/
def State.withFetchWord (s : State) (nbits w : Nat) : State :=
  if nbits = 0 then s
  else
    let d := s.dev
    let e : TlbEntry := { asid := 0, page := 1, bits := 16, word0 := placedLeaf, used := d.mill, dying := false }
    { s with
      dev := { d with
        hostMem := Memory.writeBytes d.hostMem placedPc ((placedWords w).map (bytesOf 4)).flatten
        asctl := Assoc.set 0 d.asctl 0 (dbl (2 ^ 63))
        tlbs := Assoc.set [] d.tlbs 0 [e]
        launches := Assoc.set Launch.free d.launches 0 placedLaunch
        sheaves := Assoc.set Sheaf.empty d.sheaves 0 { Sheaf.empty with active := some 0 }
        ctxs := [(0, placedCtx 0), (1, placedCtx 1), (2, placedCtx 2), (3, placedCtx 3)]
        startstat := d.startstat ||| BitVec.ofNat 64 (2 ^ 63)
        issue := Issue.idle }
      agenda := [.issueBundle 0] }

end Sys2Proof.Machine
end

