-- ==== Sys2Proof/Safety.lean ====
section
/-! DEFINITION. What counts as a safe run: the steps go on, and the stores keep their canonical form. -/

namespace Sys2Proof.Machine

/-- Whether every byte store of the module is in canonical form. -/
def Device.memoriesWf (s : Device) : Bool :=
  Memory.wf s.spad && Memory.wf s.felt && Memory.wf s.dram && Memory.wf s.hostMem && Memory.wf s.window

/-- A step that answers a next state. -/
def goesOn (o : Host.Outcome State Fault Refusal) : Bool :=
  match o with
  | .next _ => true
  | .fault _ => false
  | .refused _ => false

/-! ## The issue of one instruction

The terms in which the statements about slot instructions are made: the bundle whose one slot that does anything is the
instruction, at the tick of its sheet (R55 to R58). -/

/-- The tick of the issuing sheet. -/
def Device.now (d : Device) : Nat := d.curLaunch.tick

/-- The queue heads that an instruction takes (R31). -/
def Device.heads (d : Device) (i : Instr) : Vector (Option Dbl) 4 :=
  Vector.ofFn (fun q => if (namedQueues [i])[q] then (d.cur.queues[q]).head? else none)

/-- The device as the slot of the instruction sees it: its issue names the context, the bundle and the tick. -/
def Device.opened (d : Device) (i : Instr) : Device :=
  { d with issue := { Issue.idle with
      core := d.issue.core
      l := d.issue.l
      pc := d.live.pc
      tick := d.now
      nslots := d.issue.nslots
      template := d.issue.template
      slot := d.issue.slot
      q := d.heads i
      memIx := if memoryClass i then [d.issue.slot] else []
      cmd := if tileClass i then some (i, d.issue.slot) else d.issue.cmd } }

/-- What a scalar source field reads (R30, R31): zero for s0, a register, or the head of a queue. -/
def Device.value (d : Device) (r : SReg) : Dbl :=
  if r = 0 then 0 else if r.val < 60 then d.regs.s[r] else (d.cur.queues[Fin.ofNat 4 (r.val - 60)]).headD 0

/-- Whether every queue that an instruction names has an entry (R31). -/
def Device.queuesReady (d : Device) (i : Instr) : Bool :=
  (List.finRange 4).all (fun q => !(namedQueues [i])[q] || !(d.cur.queues[q]).isEmpty)

/-- The conditions under which a program context issues an instruction alone in its bundle, whatever the instruction is: the context
is there, no repeat reissues at this tick (R175), the results due by now have landed (R9), the bundle holds BND at the
last tick of a ream and at no other (R191), its queues have entries (R31), and a wait point's condition holds (R187). -/
structure Device.Ready (d : Device) (i : Instr) : Prop where
  present : d.cur.present = true
  program : d.issue.handler = false
  reps : d.live.dueReps d.now = []
  landed : ∀ f ∈ d.live.flights, d.now < f.due
  bnd : ((d.now + 1) % d.curLaunch.ream = 0) ↔ boundary i = true
  queues : d.queuesReady i = true
  holds : d.mustHold i = false

/-- What an instruction does when its slot runs, beyond going on to the next bundle: the actions in flight with their
latencies (R9), the bank-ticks and press resources it occupies (R200, R160), its buffered effects (R208), a repeat begun,
dimension variables bound (R146), the transfer, wait, loop, exit or trap it settles, the felt lines it drains, and its
charges (R300); `skip` and `more` count the numbers that its buffered effects and copies take before and after those of
its actions in flight. -/
structure Did where
  flights : List (Nat × FlyOp) := []
  uses : List BankRes := []
  press : List PressRes := []
  store : List Buffered := []
  reps : List Rep := []
  dims : Option Dims := none
  promises : Option (List Promise) := none
  target : Option (Nat × Nat) := none
  waitt : Option Nat := none
  push : Option LoopEntry := none
  pop : Bool := false
  exits : Bool := false
  late : Option Ev := none
  lines : Nat := 0
  charge : Nat := 0
  effects : Nat := 0
  skip : Nat := 0
  more : Nat := 0

/-- Actions numbered and dated as in-flight entries of an instruction (R9). -/
def Device.numbered (d : Device) : Nat → List (Nat × FlyOp) → List Flight
  | _, [] => []
  | n, (k, op) :: t =>
    { seq := n, due := d.now + k, pc := d.live.pc, issued := d.now, slot := d.issue.slot, op := op, buf := [] } :: d.numbered (n + 1) t

/-- The successor of the bundle (R305, R311): the loop stack after it, the next bundle's address, and the ticks until it
issues. -/
def Device.next (d : Device) (x : Did) : List LoopEntry × Nat × Nat :=
  let fall := d.live.pc + 4 * d.issue.nslots
  let loops := d.regs.loops ++ x.push.toList
  let (after, pc, n) := match x.target with
    | some t => (loops, t.1, t.2)
    | none =>
      let r := loopStep d.live.pc fall loops.reverse
      (if x.exits then loops else r.1.reverse, r.2, x.waitt.getD 1)
  (if x.pop then after.dropLast else after, pc, n)

/-- The issuing context after the issue of an instruction alone in its bundle, given what it did. -/
def Device.ctxAfter (d : Device) (i : Instr) (x : Did) : Ctx :=
  let c := d.cur
  let v := c.live
  let r := d.next x
  let reps := { v with reps := v.reps ++ x.reps }.stepReps d.now x.lines
  { c with
    live := { v with
      regs := { v.regs with dv := x.dims.getD v.regs.dv, loops := r.1 }
      flights := v.flights ++ d.numbered (d.seq + x.skip) x.flights
      banks := v.banks.filter (fun b => decide (d.now ≤ b.hi)) ++ x.uses
      press := (v.press ++ x.press).filter (fun p => decide (d.now ≤ p.hi))
      reps := if x.exits then [] else reps.reps
      store := v.store ++ x.store
      budget := v.budget - x.charge
      effects := v.effects - x.effects
      pc := r.2.1
      next := d.now + r.2.2
      exited := x.exits }
    queues := Vector.ofFn (fun q => if (d.heads i)[q].isSome then c.queues[q].drop 1 else c.queues[q])
    popped := Vector.ofFn (fun q => c.popped[q] ++ (d.heads i)[q].toList)
    promises := x.promises.getD c.promises
    dirty := if r.1 = v.regs.loops then c.dirty else c.dirty ||| BitVec.ofNat 41 (2 ^ 38)
    pending := c.pending ++ (x.late.map (fun e => { ev := e, pc := v.pc, record := none })).toList
    before := some (d.now, v, Vector.ofFn (fun q => c.popped[q].length)) }

/-- The device after the issue of an instruction alone in its bundle, given what it did and what it left of the device
outside the issuing context, the counter of numbers and the issue itself. -/
def Device.afterIn (d now : Device) (i : Instr) (x : Did) : Device :=
  { now with
    ctxs := Assoc.set Ctx.empty d.ctxs (ctxKey d.issue.l d.issue.core) (d.ctxAfter i x)
    seq := d.seq + x.skip + x.flights.length + x.more
    issue := Issue.idle }

/-- The device after the issue of an instruction that touches nothing but its context. -/
def Device.after (d : Device) (i : Instr) (x : Did) : Device := d.afterIn d i x

/-- Whether a write of a program context writes anything: s0, p0 and the queue-mapped registers keep nothing (R30, R31). -/
def RegWrite.keeps : RegWrite → Bool
  | .s r _ => decide (r ≠ 0) && decide (r.val < 60)
  | .p r _ => decide (r ≠ 0)
  | _ => true

/-- Results that land `n` ticks after issue, with their flags and the vector that a trap names: nothing is in flight for
writes that keep nothing and raise nothing (R35, R112). -/
def results (n : Nat) (ws : List RegWrite) (flags : Flags) (vd : Option VNum) : List (Nat × FlyOp) :=
  if (ws.filter RegWrite.keeps).isEmpty && flags == 0 then [] else [(n, .regs (ws.filter RegWrite.keeps) flags vd)]

/-- Whether no result in flight lands at `n` ticks from now where some actions' results do (R35). -/
def Device.LandsFree (d : Device) (l : List (Nat × FlyOp)) : Prop :=
  ∀ p ∈ l, findLanding (d.now + p.1) p.2.places d.live.flights = none

/-- Whether some bank-ticks meet none that is planned, nor one another (R201). -/
def Device.BanksFree (d : Device) (l : List BankRes) : Prop :=
  findConflict (d.bankPlans d.issue.l) (l.map (fun u => (d.issue.slot, u))) = none

/-- A bank of core `sp` occupied by the instruction from `lo` to `hi` ticks from now, for requester `code` (R200). -/
def Device.bankUse (d : Device) (sp bank lo hi code : Nat) : BankRes :=
  { sp := sp, bank := bank, lo := d.now + lo, hi := d.now + hi, code := code, core := d.issue.core, pc := d.live.pc, issued := d.now }

/-- The bank-tick of an access to the line at physical address `a`, `n` ticks from now (R200). -/
def Device.lineUse (d : Device) (sp n code a : Nat) : BankRes := d.bankUse sp (bankOf a) n n code

/-- Accesses to some lines of core `sp`, `n` ticks from now. -/
def Device.lineUses (d : Device) (sp n code : Nat) (l : List Nat) : List BankRes := l.map (d.lineUse sp n code)

/-- A press resource occupied by the instruction from `lo` to `hi` ticks from now (R160). -/
def Device.pressUse (d : Device) (res : Nat) (writer : Bool) (lo hi : Nat) : PressRes :=
  { res := res, writer := writer, lo := d.now + lo, hi := d.now + hi, pc := d.live.pc, issued := d.now }

/-- Whether some press resources compete with none that is planned on the sheaf (R160). -/
def Device.PressFree (d : Device) (l : List PressRes) : Prop :=
  ∀ r ∈ l, ∀ p ∈ d.pressPlans d.issue.l (d.issue.core / 4), pressMeets r p = false

/-- What must be clear for an instruction's actions: no two results meet (R35), no two bank-ticks (R201), no two press
resources (R160), and the store budget suffices (R300). -/
structure Device.Clear (d : Device) (x : Did) : Prop where
  lands : d.LandsFree x.flights
  banks : d.BanksFree x.uses
  press : d.PressFree x.press
  budget : x.charge ≤ d.live.budget ∧ x.effects ≤ d.live.effects

/-- The results at issue + 1 of the dimension variables that a rule has bound anew (R146). -/
def Device.dimResults (d : Device) (dv : Dims) : List (Nat × FlyOp) :=
  ((List.finRange 16).filter (fun r => decide (d.regs.dv[r] ≠ dv[r]))).map (fun r => (1, .regs [.dv r] 0 none))

/-- An address that the issuing partition holds, aligned (R229, R331). -/
def Device.inPart (d : Device) (a size align : Nat) : Prop := a % align = 0 ∧ a + size ≤ d.curLaunch.spSize

/-- The physical address of an address of the issuing partition (R329). -/
def Device.phys (d : Device) (a : Nat) : Nat := d.curLaunch.spPhys d.issue.core a

end Sys2Proof.Machine
end

