-- ==== Sys2Proof/Certificates/Slice0/Obligations.lean ====
section
/-! DEFINITION. The statements for the provers: what each instruction and each step of the device does, whole and by name.

The statements of the instructions have one shape. A rule function names, from the registers and the program counter alone,
what the instruction does (`Did`: the results that will land and when, the bank-ticks and press ticks that it takes, its
buffered effects, its transfer, and so on), and the statement says that the instruction issues: `exec` answers the state
after exactly that (`Device.after`, Safety.lean), so everything that the rule does not name is as before. The hypotheses
are those of the spec for an instruction that issues without an event: `Device.Ready` (the instruction is the bundle's one
slot, in a program context, within its promise) and `Device.Clear` (its results, bank-ticks and press ticks are free). -/

open Sys2Proof Sys2Proof.Machine

namespace Sys2Proof.Machine

/-! ## Scalar results (R114, R119, R120, R133, R135, R151, R255, R312, R321, R392, R394) -/

/-- The latency, register and value of an instruction that writes one scalar register, in a program context. -/
def scalarRule (d : Device) : Instr → Option (Nat × SReg × Dbl)
  | .add r a b => some (1, r, d.value a + d.value b)
  | .sub r a b => some (1, r, d.value a - d.value b)
  | .and r a b => some (1, r, d.value a &&& d.value b)
  | .or r a b => some (1, r, d.value a ||| d.value b)
  | .xor r a b => some (1, r, d.value a ^^^ d.value b)
  | .andn r a b => some (1, r, d.value a &&& ~~~(d.value b))
  | .shl r a b => some (1, r, d.value a <<< ((d.value b).toNat % 64))
  | .shr r a b => some (1, r, d.value a >>> ((d.value b).toNat % 64))
  | .sra r a b => some (1, r, (d.value a).sshiftRight ((d.value b).toNat % 64))
  | .rol r a b => some (1, r, (d.value a).rotateLeft ((d.value b).toNat % 64))
  | .min r a b => some (1, r, if (d.value a).toInt < (d.value b).toInt then d.value a else d.value b)
  | .max r a b => some (1, r, if (d.value a).toInt < (d.value b).toInt then d.value b else d.value a)
  | .minn r a b => some (1, r, if (d.value a).toNat < (d.value b).toNat then d.value a else d.value b)
  | .maxn r a b => some (1, r, if (d.value a).toNat < (d.value b).toNat then d.value b else d.value a)
  | .clz r a => some (1, r, dbl (clz64 (d.value a)))
  | .ctz r a => some (1, r, dbl (ctz64 (d.value a)))
  | .popc r a => some (1, r, dbl (popCount (d.value a).toNat 64))
  | .sext r a .b8 => some (1, r, ((d.value a).setWidth 8).signExtend 64)
  | .sext r a .b16 => some (1, r, ((d.value a).setWidth 16).signExtend 64)
  | .sext r a .b32 => some (1, r, ((d.value a).setWidth 32).signExtend 64)
  | .zext r a .b8 => some (1, r, ((d.value a).setWidth 8).setWidth 64)
  | .zext r a .b16 => some (1, r, ((d.value a).setWidth 16).setWidth 64)
  | .zext r a .b32 => some (1, r, ((d.value a).setWidth 32).setWidth 64)
  | .sel r a b q => some (1, r, if q = 0 ∨ d.regs.p[q] = true then d.value a else d.value b)
  | .mul r a b => some (3, r, d.value a * d.value b)
  | .mulh r a b => some (3, r, BitVec.ofInt 64 ((d.value a).toInt * (d.value b).toInt / 2 ^ 64))
  | .mulhn r a b => some (3, r, dbl ((d.value a).toNat * (d.value b).toNat / 2 ^ 64))
  | .div r a b => some (18, r, if d.value b = 0 then BitVec.allOnes 64 else (d.value a).sdiv (d.value b))
  | .divn r a b => some (18, r, if d.value b = 0 then BitVec.allOnes 64 else d.value a / d.value b)
  | .rem r a b => some (18, r, if d.value b = 0 then d.value a else (d.value a).srem (d.value b))
  | .remn r a b => some (18, r, if d.value b = 0 then d.value a else d.value a % d.value b)
  | .addi r a i => some (1, r, d.value a + immSext i)
  | .andi r a i => some (1, r, d.value a &&& immZext i)
  | .ori r a i => some (1, r, d.value a ||| immZext i)
  | .xori r a i => some (1, r, d.value a ^^^ immZext i)
  | .shli r a n => some (1, r, d.value a <<< n.toNat)
  | .shri r a n => some (1, r, d.value a >>> n.toNat)
  | .srai r a n => some (1, r, (d.value a).sshiftRight n.toNat)
  | .movi r i => some (1, r, immSext i)
  | .lui r u => some (1, r, (u ++ 0#12).signExtend 64)
  | .addpc r u => some (1, r, BitVec.ofNat 64 d.live.pc + (u ++ 0#12).signExtend 64)
  | .aget r a .addr => some (1, r, d.regs.a[a].addr.setWidth 64)
  | .aget r a .inc => some (1, r, d.regs.a[a].inc.setWidth 64)
  | .aget r a .wrap => some (1, r, d.regs.a[a].wrap.setWidth 64)
  | .vext e r a b _ sgn =>
    let x := if (d.value b).toNat < 4096 / e.bits then velem e.bits d.regs.v[a] (d.value b).toNat else 0
    some (3, r, if sgn then dblOfInt (signedOf e.bits x) else dbl x)
  | .mpop r a _ => some (2, r, dbl (popCount d.regs.m[a].toNat 1024))
  | .tgett r t false => some (1, r, d.regs.t[t].typ)
  | .tgett r t true => some (1, r, dbl (constExts d.regs.dv d.regs.t[t].typ.toNat 0 (tRank d.regs.t[t].typ.toNat)))
  | .qcnt r q => some (1, r, dbl (d.cur.queues[Fin.ofNat 4 q.toNat]).length)
  | .lidx r dep false =>
    some (1, r, match d.regs.loops[dep.toNat]? with
      | some e => e.ix.setWidth 64
      | none => 0)
  | .ccrd r a =>
    some (8, r, match d.cur.seen with
      | some (t, v) => if t = d.now then v else dbl (d.counter ((d.value a).toNat % 2 ^ 32))
      | none => dbl (d.counter ((d.value a).toNat % 2 ^ 32)))
  | .mfsr r sr =>
    if sr.toNat ≤ 0x0A ∨ (sr.toNat ≤ 0x10 ∧ d.curLaunch.asid = 0) then
      some (1, r, selValue d d.issue.l d.issue.core d.now sr.toNat)
    else none
  | .monrd r a => if d.curLaunch.asid = 0 then some (4, r, Assoc.get 0 d.monval ((d.value a).toNat % 2048)) else none
  | .errpop r w false =>
    if d.curLaunch.asid = 0 then
      some (1, r, match d.log with
        | [] => 0
        | x :: _ => dbl (recField x (64 * w.toNat) 64))
    else none
  | _ => none

end Sys2Proof.Machine

/-- Scalar instructions put their one result in flight, to land at its latency. For every state and every scalar-result
instruction of the rule table (arithmetic, shifts, counts, SEL, MUL to REMN, immediates, AGET, VEXT, MPOP, TGETT,
QCNT, LIDX, CCRD, MFSR, MONRD, ERRPOP) that issues alone in a program context with its result place free, exec answers
the next state in which the value that the rules give is in flight for that register at that latency; a write of s0 or
s60 to s63 puts nothing in flight; everything else is as the issue of a bundle leaves it. The landing itself is
AResultLandsInItsRegistersAlone. The model's choices that it rests on: a delayed CCRD reads the value kept when its
sheet was first delayed (log entry 64), a handle whose UNIT or PH lies outside its launch or job reads as stale (50),
and LEASE.TICKS after LREL counts to the tick at which the lease is free (95); the value of MFSR is the model's own
selValue, which SelectorsReadTheirRegisters states. (R119, R120, R124, R133, R135, R151, R255, R312, R321, R392, R394,
R30.) -/
def Obligations.ScalarResultsLandAtTheirLatency : Prop :=
  ∀ (s : State) (i : Instr) (n : Nat) (r : SReg) (v : Dbl),
    s.dev.Ready i → scalarRule s.dev i = some (n, r, v) → s.dev.LandsFree (results n [.s r v] 0 none) →
    exec i s = .next { s with dev := s.dev.after i { flights := results n [.s r v] 0 none } }

namespace Sys2Proof.Machine

/-! ## Predicates and address registers (R30, R45, R121, R123, R124) -/

/-- What a predicate field reads: p0 is true (R30). -/
def Device.flag (d : Device) (p : PNum) : Bool := decide (p = 0) || d.regs.p[p]

/-- The conditions of CMP and CMPI (R45). -/
def compared (c : Cond) (x y : Dbl) : Bool :=
  match c with
  | .eq => decide (x = y)
  | .ne => decide (x ≠ y)
  | .lt => decide (x.toInt < y.toInt)
  | .ge => decide (y.toInt ≤ x.toInt)
  | .ltn => decide (x.toNat < y.toNat)
  | .gen => decide (y.toNat ≤ x.toNat)

/-- The predicate and the value that an instruction writes to it. -/
def predicateRule (d : Device) : Instr → Option (PNum × Bool)
  | .cmp c p a b => some (p, compared c (d.value a) (d.value b))
  | .cmpi c p a i => some (p, compared c (d.value a) (immSext i))
  | .pand p a b => some (p, d.flag a && d.flag b)
  | .por p a b => some (p, d.flag a || d.flag b)
  | .pnot p a => some (p, !d.flag a)
  | _ => none

/-- Step (R123), for a distance read as a signed number. -/
def stepped (a : Word) (dist : Int) (w : Word) : Word :=
  if w = 0 then BitVec.ofInt 32 (a.toNat + dist)
  else BitVec.ofInt 32 ((a.toNat - a.toNat % w.toNat : Nat) + (((a.toNat % w.toNat : Nat) : Int) + dist) % w.toNat)

/-- The one field of an address register that an instruction writes. -/
def addressRule (d : Device) : Instr → Option RegWrite
  | .amov r a => some (.aAddr r ((d.value a).setWidth 32))
  | .aadd r a b => some (.aAddr r (stepped d.regs.a[a].addr ((d.value b).setWidth 32).toInt d.regs.a[r].wrap))
  | .ainc r a => some (.aInc r ((d.value a).setWidth 32))
  | .amod r a => some (.aWrap r ((d.value a).setWidth 32))
  | .aaddi r a i => some (.aAddr r (stepped d.regs.a[a].addr ((immSext i).setWidth 32).toInt d.regs.a[r].wrap))
  | _ => none

/-! ## Vectors (R114 to R117, R126 to R136) -/

/-- An instruction that writes a group of `g` vector registers of `w`-bit elements from `dst` on, `n` ticks after issue:
what an active element becomes, with the flags it raises, and whether the group's logical vector lies in plain order
(R133) or interleaved (R115). -/
structure VecRule where
  n : Nat
  w : Nat
  g : Nat
  plain : Bool
  dst : VNum
  mask : Option (MNum × Bool)
  elem : Nat → Nat × Flags

/-- Where element `k` of the logical vector of a group lies: its register and its place (R115). -/
def VecRule.place (x : VecRule) (k : Nat) : Nat × Nat :=
  if x.plain then (k / (4096 / x.w), k % (4096 / x.w)) else (k % x.g, k / x.g)

/-- The elements of a group's logical vector. -/
def VecRule.count (x : VecRule) : Nat := x.g * (4096 / x.w)

/-- Element `k` after the instruction: computed where active, zero or the old element where not (R116). The bits of a mask
repeat over a pair of 4-bit elements. -/
def VecRule.after (x : VecRule) (d : Device) (k : Nat) : Nat × Flags :=
  match x.mask with
  | none => x.elem k
  | some (m, z) =>
    if bitAt d.regs.m[m].toNat (k % 1024) then x.elem k
    else (if z then 0 else velem x.w (d.regs.v[vnum (x.dst.val + (x.place k).1)]) (x.place k).2, 0)

/-- A source element read in a floating-point format (R117). -/
def Device.fpElem (d : Device) (m : VMod) (e : FpFmt) (v : VNum) (k : Nat) : Exact :=
  readFz (d.vmodes m).fz (fpFloat e) (velem (fpWidth e) d.regs.v[v] k)

/-- Element `k` of the logical vector of a group of `g` registers of `w`-bit elements, interleaved (R115). -/
def Device.groupElem (d : Device) (v : VNum) (g w k : Nat) : Nat := velem w d.regs.v[vnum (v.val + k % g)] (k / g)

/-- One register of `w`-bit elements. -/
def oneVec (n w : Nat) (dst : VNum) (m : VMod) (elem : Nat → Nat × Flags) : VecRule :=
  { n := n, w := w, g := 1, plain := false, dst := dst, mask := m.mask, elem := elem }

/-- A group of registers. -/
def groupVec (n w g : Nat) (plain : Bool) (dst : VNum) (m : VMod) (elem : Nat → Nat × Flags) : VecRule :=
  { n := n, w := w, g := g, plain := plain, dst := dst, mask := m.mask, elem := elem }

/-- An integer clamped to a format with ST where it saturates, else wrapped (R131). -/
def fitted (w : Nat) (sg sat : Bool) (x : Int) : Nat × Flags :=
  let lo : Int := if sg then -(2 ^ (w - 1) : Nat) else 0
  let hi : Int := if sg then (2 ^ (w - 1) : Nat) - 1 else (2 ^ w : Nat) - 1
  if sat = true ∧ x < lo then (codeOfInt w lo, fST) else if sat = true ∧ hi < x then (codeOfInt w hi, fST) else (codeOfInt w x, 0)

/-- The instructions that write vector registers element by element. -/
def vectorRule (d : Device) : Instr → Option VecRule
  | .vadd e r a b m o => some (oneVec 4 (fpWidth e) r m fun k =>
      arithElem (d.vmodes m) (fpFloat e) (k + 1024 * o.toNat) [d.fpElem m e a k, d.fpElem m e b k] ((d.fpElem m e a k).add (d.fpElem m e b k)))
  | .vsub e r a b m o => some (oneVec 4 (fpWidth e) r m fun k =>
      arithElem (d.vmodes m) (fpFloat e) (k + 1024 * o.toNat) [d.fpElem m e a k, d.fpElem m e b k] ((d.fpElem m e a k).sub (d.fpElem m e b k)))
  | .vmul e r a b m o => some (oneVec 4 (fpWidth e) r m fun k =>
      arithElem (d.vmodes m) (fpFloat e) (k + 1024 * o.toNat) [d.fpElem m e a k, d.fpElem m e b k] ((d.fpElem m e a k).mul (d.fpElem m e b k)))
  | .vfma e r a b m o => some (oneVec 4 (fpWidth e) r m fun k =>
      arithElem (d.vmodes m) (fpFloat e) (k + 1024 * o.toNat) [d.fpElem m e a k, d.fpElem m e b k, d.fpElem m e r k]
        (((d.fpElem m e a k).mul (d.fpElem m e b k)).add (d.fpElem m e r k)))
  | .vfms e r a b m o => some (oneVec 4 (fpWidth e) r m fun k =>
      arithElem (d.vmodes m) (fpFloat e) (k + 1024 * o.toNat) [d.fpElem m e a k, d.fpElem m e b k, d.fpElem m e r k]
        (((d.fpElem m e a k).mul (d.fpElem m e b k)).sub (d.fpElem m e r k)))
  | .vmin e r a b m => some (oneVec 4 (fpWidth e) r m fun k => (exactCode (fpFloat e) (minExact (d.fpElem m e a k) (d.fpElem m e b k)), 0))
  | .vmax e r a b m => some (oneVec 4 (fpWidth e) r m fun k => (exactCode (fpFloat e) (maxExact (d.fpElem m e a k) (d.fpElem m e b k)), 0))
  | .vabs e r a m => some (oneVec 4 (fpWidth e) r m fun k => (exactCode (fpFloat e) (d.fpElem m e a k).abs, 0))
  | .vneg e r a m => some (oneVec 4 (fpWidth e) r m fun k => (exactCode (fpFloat e) (d.fpElem m e a k).neg, 0))
  | .vsel e r a b m q => some (oneVec 4 (fpWidth e) r m fun k =>
      (velem (fpWidth e) (if bitAt d.regs.m[q].toNat k then d.regs.v[a] else d.regs.v[b]) k, 0))
  | .vrnd e r a n m => some (oneVec 4 (fpWidth e) r m fun k =>
      rndElem (d.vmodes m) (fpFloat e) (k + (d.value n).toNat) (d.fpElem m e a k))
  | .vexp2 e r a n m => some (oneVec 8 (fpWidth e) r m fun k =>
      specialElem .exp2 (d.vmodes m) (fpFloat e) (k + (d.value n).toNat) (velem (fpWidth e) d.regs.v[a] k))
  | .vlog2 e r a n m => some (oneVec 8 (fpWidth e) r m fun k =>
      specialElem .log2 (d.vmodes m) (fpFloat e) (k + (d.value n).toNat) (velem (fpWidth e) d.regs.v[a] k))
  | .vrcp e r a n m => some (oneVec 8 (fpWidth e) r m fun k =>
      specialElem .rcp (d.vmodes m) (fpFloat e) (k + (d.value n).toNat) (velem (fpWidth e) d.regs.v[a] k))
  | .vrsq e r a n m => some (oneVec 8 (fpWidth e) r m fun k =>
      specialElem .rsq (d.vmodes m) (fpFloat e) (k + (d.value n).toNat) (velem (fpWidth e) d.regs.v[a] k))
  | .vsig e r a n m => some (oneVec 8 (fpWidth e) r m fun k =>
      specialElem .sig (d.vmodes m) (fpFloat e) (k + (d.value n).toNat) (velem (fpWidth e) d.regs.v[a] k))
  | .vtanh e r a n m => some (oneVec 8 (fpWidth e) r m fun k =>
      specialElem .tanh (d.vmodes m) (fpFloat e) (k + (d.value n).toNat) (velem (fpWidth e) d.regs.v[a] k))
  | .viadd e r a b m => some (oneVec 2 e.bits r m fun k =>
      fitted e.bits e.signed (d.vmodes m).sat (intVal e (velem e.bits d.regs.v[a] k) + intVal e (velem e.bits d.regs.v[b] k)))
  | .visub e r a b m => some (oneVec 2 e.bits r m fun k =>
      fitted e.bits e.signed (d.vmodes m).sat (intVal e (velem e.bits d.regs.v[a] k) - intVal e (velem e.bits d.regs.v[b] k)))
  | .vimul e r a b m => some (oneVec 2 e.bits r m fun k =>
      fitted e.bits e.signed (d.vmodes m).sat (intVal e (velem e.bits d.regs.v[a] k) * intVal e (velem e.bits d.regs.v[b] k)))
  | .vimin e r a b m => some (oneVec 2 e.bits r m fun k =>
      (codeOfInt e.bits (min (intVal e (velem e.bits d.regs.v[a] k)) (intVal e (velem e.bits d.regs.v[b] k))), 0))
  | .vimax e r a b m => some (oneVec 2 e.bits r m fun k =>
      (codeOfInt e.bits (max (intVal e (velem e.bits d.regs.v[a] k)) (intVal e (velem e.bits d.regs.v[b] k))), 0))
  | .vidot e r a b m => some (oneVec 4 32 r m fun k =>
      fitted 32 e.signed true ((if e.signed then signedOf 32 (velem 32 d.regs.v[r] k) else (velem 32 d.regs.v[r] k : Int)) +
        ((List.range (32 / e.bits)).map (fun j =>
          intVal e (velem e.bits d.regs.v[a] (32 / e.bits * k + j)) * intVal e (velem e.bits d.regs.v[b] (32 / e.bits * k + j)))).sum))
  | .vshl e r a b m imm amt => some (oneVec 2 e.bits r m fun k =>
      let n := if imm then amt.toNat else velem e.bits d.regs.v[b] k
      (if e.bits ≤ n then 0 else velem e.bits d.regs.v[a] k * 2 ^ n % 2 ^ e.bits, 0))
  | .vshr e r a b m imm amt => some (oneVec 2 e.bits r m fun k =>
      let n := if imm then amt.toNat else velem e.bits d.regs.v[b] k
      (if e.bits ≤ n then 0 else velem e.bits d.regs.v[a] k / 2 ^ n, 0))
  | .vsra e r a b m imm amt => some (oneVec 2 e.bits r m fun k =>
      let n := if imm then amt.toNat else velem e.bits d.regs.v[b] k
      (codeOfInt e.bits (signedOf e.bits (velem e.bits d.regs.v[a] k) / (2 ^ min n e.bits : Nat)), 0))
  | .vand e r a b m => some (oneVec 2 e.bits r m fun k => (velem e.bits d.regs.v[a] k &&& velem e.bits d.regs.v[b] k, 0))
  | .vor e r a b m => some (oneVec 2 e.bits r m fun k => (velem e.bits d.regs.v[a] k ||| velem e.bits d.regs.v[b] k, 0))
  | .vxor e r a b m => some (oneVec 2 e.bits r m fun k => (velem e.bits d.regs.v[a] k ^^^ velem e.bits d.regs.v[b] k, 0))
  | .vwidenX2 e r a m => some (groupVec 2 (2 * e.bits) (2) false r m fun k =>
      (codeOfInt (2 * e.bits) (intVal e (velem e.bits d.regs.v[a] k)), 0))
  | .vwidenX4 e r a m => some (groupVec 2 (4 * e.bits) (4) false r m fun k =>
      (codeOfInt (4 * e.bits) (intVal e (velem e.bits d.regs.v[a] k)), 0))
  | .vnarrowD2 e r a m => some (oneVec 2 (e.bits / 2) r m fun k =>
      fitted (e.bits / 2) e.signed (d.vmodes m).sat (intVal e (d.groupElem a 2 e.bits k)))
  | .vnarrowD4 e r a m => some (oneVec 2 (e.bits / 4) r m fun k =>
      fitted (e.bits / 4) e.signed (d.vmodes m).sat (intVal e (d.groupElem a 4 e.bits k)))
  | .vcvtFp df sf r a n m =>
    let dw := heldFloat df
    let sw := heldFloat sf
    let md := (d.vmodes m).forPair sf df
    some (groupVec 4 (dw) (ratio dw sw) false r m fun k =>
      let x := readFz (md.fz && fzFormat sf) sf (d.groupElem a (ratio sw dw) sw k)
      if fzFormat df then deliverFz md (k + (d.value n).toNat) df x else deliver md (k + (d.value n).toNat) (.fl df) x)
  | .vcvtInt .intToFp i f r a n m =>
    some (groupVec 4 (fpWidth f) (ratio (fpWidth f) i.bits) false r m fun k =>
      deliverFz (d.vmodes m) (k + (d.value n).toNat) (fpFloat f) (exactOfInt (intVal i (d.groupElem a (ratio i.bits (fpWidth f)) i.bits k))))
  | .vcvtInt .fpToInt i f r a n m =>
    some (groupVec 4 (i.bits) (ratio i.bits (fpWidth f)) false r m fun k =>
      deliver (d.vmodes m) (k + (d.value n).toNat) (intDest i)
        (readFz (d.vmodes m).fz (fpFloat f) (d.groupElem a (ratio (fpWidth f) i.bits) (fpWidth f) k)))
  | .vperm e r a b m => some (oneVec 3 e.bits r m fun k =>
      let x := match e with
        | .w4 => d.groupElem b 4 16 k
        | .w8 => d.groupElem b 2 16 k
        | .w16 => velem 16 d.regs.v[b] k
        | .w32 => velem 32 d.regs.v[b] k
      (if x < 4096 / e.bits then velem e.bits d.regs.v[a] x else 0, 0))
  | .vbcast e r a m scl idx => some (oneVec 3 e.bits r m fun _ =>
      (if scl then (d.value a).toNat % 2 ^ e.bits else velem e.bits d.regs.v[a] idx.toNat, 0))
  | .vslide e r a b m sh => some (oneVec 3 e.bits r m fun k =>
      let j := k + sh.toNat
      (if j < 4096 / e.bits then velem e.bits d.regs.v[a] j
       else if j < 2 * (4096 / e.bits) then velem e.bits d.regs.v[b] (j - 4096 / e.bits) else 0, 0))
  | .viota e r a m => some (oneVec 3 e.bits r m fun k => (((d.value a).toNat + k) % 2 ^ e.bits, 0))
  | .vzip e r a b m => some (groupVec 3 (e.bits) (2) true r m fun k =>
      (velem e.bits (if k % 2 = 0 then d.regs.v[a] else d.regs.v[b]) (k / 2), 0))
  | .vunzip e r a b m => some (groupVec 3 (e.bits) (2) true r m fun k =>
      let n := 4096 / e.bits
      let j := if k < n then 2 * k else 2 * (k - n) + 1
      (if j < n then velem e.bits d.regs.v[a] j else velem e.bits d.regs.v[b] (j - n), 0))
  | .vhusk r a b m hk false _ _ => some (oneVec 6 32 (vnum r.toNat) m fun k =>
      (husk (if hk then d.regs.hkey else d.value a).toNat ((d.value b).toNat + k), 0))
  | _ => none

end Sys2Proof.Machine

/-- CMP, CMPI, PAND, POR and PNOT write their truth value at issue + 1. For every state, CMP.c and CMPI.c write true to pd
exactly when the condition holds of the operands, PAND, POR and PNOT write the AND, the OR and the inverse, at issue +
1; a write of p0 puts nothing in flight. (R121.) -/
def Obligations.PredicateInstructionsWriteTheirTruth : Prop :=
  ∀ (s : State) (i : Instr) (p : PNum) (b : Bool),
    s.dev.Ready i → predicateRule s.dev i = some (p, b) → s.dev.LandsFree (results 1 [.p p b] 0 none) →
    exec i s = .next { s with dev := s.dev.after i { flights := results 1 [.p p b] 0 none } }

/-- Address instructions write one field of one address register at issue + 1. AMOV, AADD, AINC, AMOD and AADDI put one
write in flight at issue + 1: of ADDR (by Step over the destination's WRAP for AADD and AADDI), INC or WRAP of the
destination; the other fields and registers are as before. (R123, R124.) -/
def Obligations.AddressInstructionsWriteOneField : Prop :=
  ∀ (s : State) (i : Instr) (w : RegWrite),
    s.dev.Ready i → addressRule s.dev i = some w → s.dev.LandsFree (results 1 [w] 0 none) →
    exec i s = .next { s with dev := s.dev.after i { flights := results 1 [w] 0 none } }

/-- Vector instructions write each element of their group as its rule gives it. For every state and every element-wise
vector instruction, exec answers the next state in which vectors are in flight for the destination group such that
element k of the logical vector, at its place, is the computed code where the mask is active, zero or the old element
where it is not, and the flags are those of the active elements. The model's choices that it rests on: an inactive
element keeps the value that the destination held at issue (log entry 22), and what the special functions give where
512 fraction bits do not settle the rounding is a free value (5). What rounding gives is in
ResultsAreRoundedFromExactValues. (R115, R116, R126, R128, R130, R131, R132, R133, R134, R136.) -/
def Obligations.VectorInstructionsWriteElementByElement : Prop :=
  ∀ (s : State) (i : Instr) (x : VecRule),
    s.dev.Ready i → i.wf = true → vectorRule s.dev i = some x →
    s.dev.LandsFree [(x.n, .regs ((rangeFrom x.dst.val x.g).map (fun r => .v (vnum r) 0 512 0)) 0 (some x.dst))] →
    ∃ vs : List VData, vs.length = x.g ∧
      (∀ k, k < x.count → velem x.w (vs.getD (x.place k).1 0) (x.place k).2 = (x.after s.dev k).1 % 2 ^ x.w) ∧
      exec i s = .next { s with dev := s.dev.after i { flights :=
        [(x.n, .regs (((rangeFrom x.dst.val x.g).zip vs).map (fun p => .v (vnum p.1) 0 512 p.2))
          (orFlags ((rangeFrom 0 x.count).map (fun k => (x.after s.dev k).2))) (some x.dst))] } }

namespace Sys2Proof.Machine

/-! ## Transfers, loops, waits and ends (R305 to R315, R320, R323, R324) -/

/-- The address of the bundle after the issuing one. -/
def Device.after4 (d : Device) : Nat := d.live.pc + 4 * d.issue.nslots

/-- The target of a direct transfer, `n` words from the issuing bundle (R43). -/
def Device.hop (d : Device) (n : Int) : Nat := (((d.live.pc : Int) + 4 * n) % (2 ^ 64 : Nat)).toNat

/-- Whether no tick from `lo` to `hi` is the last of a ream: `lo` and the tick after `hi` lie in one ream (R191, R305). -/
def Device.clearTicks (d : Device) (lo hi : Nat) : Bool :=
  decide (hi < lo) || decide ((hi + 1) / d.curLaunch.ream = lo / d.curLaunch.ream)

/-- A buffered effect of the instruction, the one numbered `d.seq + n` (R208). -/
def Device.entry (d : Device) (n charge ready : Nat) (pages : List Nat) (e : Effect) : Buffered :=
  { seq := d.seq + n, pc := d.live.pc, issued := d.now, ready := d.now + ready, charge := charge, pages := pages, eff := e }

/-- A loop entry of the instruction (R310). -/
def Device.loopEntry (d : Device) (n : Nat) (eo : BitVec 8) : LoopEntry :=
  { start := d.after4, stop := d.live.pc + 4 * eo.toNat, left := n, ix := 0 }

/-- The event of TRAP (22) or BRK (23) (R324). -/
def Device.trapEv (d : Device) (code : Nat) (c : BitVec 12) : Ev :=
  { code := code, reason := 0, i0 := c.toNat, i1 := 0, i2 := 0, i3 := 0, aux := 0, slot := d.issue.slot }

/-- What the control instructions do; none where they raise an event instead. -/
def controlRule (d : Device) : Instr → Option Did
  | .nop => some {}
  | .bnd => some {}
  | .jmp o => some { target := some (d.hop o.toInt, 1) }
  | .call o => some { flights := results 1 [.s 59 (dbl d.after4)] 0 none, target := some (d.hop o.toInt, 1) }
  | .br a o => some (if d.value a = 0 then {} else { target := some (d.hop o.toInt, 1) })
  | .brp inv p o => some (if d.flag p = inv then {} else { target := some (d.hop o.toInt, 1) })
  | .callr r a =>
    if (d.value a).toNat % 4 = 0 ∧ d.clearTicks (d.now + 1) (d.now + 3) = true then
      some { flights := results 1 [.s r (dbl d.after4)] 0 none, target := some ((d.value a).toNat, 4) }
    else none
  | .ret a =>
    if (d.value a).toNat % 4 = 0 ∧ d.clearTicks (d.now + 1) (d.now + 3) = true then some { target := some ((d.value a).toNat, 4) }
    else none
  | .loop n eo =>
    if d.regs.loops.length < 6 ∧ d.issue.nslots ≤ eo.toNat then
      some { push := some (d.loopEntry n.toNat eo), target := some (d.after4, 1) }
    else none
  | .loops a eo =>
    if d.regs.loops.length < 6 ∧ d.issue.nslots ≤ eo.toNat then
      if (d.value a).toNat % 2 ^ 32 ≠ 0 then
        some { push := some (d.loopEntry ((d.value a).toNat % 2 ^ 32) eo), target := some (d.after4, 1) }
      else
        match d.fetchBundle d.issue.core d.curLaunch.asid (d.live.pc + 4 * eo.toNat) with
        | .ok (.bundle n _ _) => some { target := some ((d.live.pc + 4 * eo.toNat + 4 * n) % 2 ^ 64, 1) }
        | _ => none
    else none
  | .lidx r dep true =>
    some { flights := results 1 [.s r ((d.regs.loops[dep.toNat]?).elim 0 (fun e => e.ix.setWidth 64))] 0 none, pop := true }
  | .waitt n => if d.clearTicks (d.now + 1) (d.now + n.toNat - 1) = true then some { waitt := some n.toNat } else none
  | .waittAbs a =>
    if d.now < (d.value a).toNat ∧ d.clearTicks (d.now + 1) ((d.value a).toNat - 1) = true then
      some { waitt := some ((d.value a).toNat - d.now) }
    else none
  | .ccwait _ _ _ => some {}
  | .hsig a v => some { store := [d.entry 0 0 0 [] (.hsig v.toNat (d.value a))], effects := 1, more := 1 }
  | .trap c => some { late := some (d.trapEv 22 c) }
  | .brk c => some { late := some (d.trapEv 23 c) }
  | _ => none

/-- The sheaf's lease after an instruction that ends the holder's term at its tick (R162, R298, R315). -/
def Device.leaseEnded (d : Device) : Device :=
  let x := d.curSheaf
  if x.lease.holder = some (Fin.ofNat 4 d.issue.core) ∧ d.now ≤ x.lease.limit then
    d.setSheaf (d.issue.core / 4) { x with lease := { x.lease with limit := d.now, free := d.now + 2 } }
  else d

/-! ## Work requests (R317, R318, R322) -/

/-- The slot that the device chooses of some free ones, by the free value numbered `n` (log entry 56). -/
def chosen (n : Nat) (l : List Nat) : Nat := l.getD (Config.pick n % l.length) 0

/-- Whether a work request finds room and free slots, and names an open phase (R318). -/
def Device.takesWork (d : Device) (graph : Bool) (x : Nat) : Bool :=
  decide (d.requests < 16) && decide (x / 2 ^ 53 = 0) && decide (x % 64 = 0) && !d.freeGraphs.isEmpty &&
    (if graph then decide (x / 2 ^ 48 % 16 = 0)
     else !d.freeLaunches.isEmpty && ((d.job d.curJob).phases[x / 2 ^ 48 % 16]?).elim false (fun p => !p.fin) &&
       decide (x / 2 ^ 48 % 16 < (d.job d.curJob).nph))

/-- A graph slot reserved for a request: a new generation of it, for the sheet's job. -/
def Device.reserved (d : Device) (g : Nat) : Device :=
  d.setGraph g { Graph.free with used := true, gen := (d.graph g).gen + 1, job := d.curJob }

/-- The device after it has reported a work request that it refuses (R318, R380). -/
def Device.refusesWork (d : Device) (x : Nat) : Device :=
  d.note 6 { pc := d.live.pc, tick := d.now, asid := d.curLaunch.asid, lslot := d.issue.l, core := d.issue.core }
    { code := 30, reason := 2, i0 := x % 2 ^ 48, i1 := 0, i2 := 0, i3 := 0, aux := 0, slot := 0 }

/-- The device after LAUNCH or GRAPH has reserved its slots, and what the instruction did. -/
def workRule (d : Device) : Instr → Option (Device × Did)
  | .launch r a p =>
    if d.takesWork false (d.value a).toNat = true then
      let g := chosen d.fresh d.freeGraphs
      let l := chosen (d.fresh + 1) d.freeLaunches
      let gen := (d.launch l).gen + 1
      let now := { d.reserved g with fresh := d.fresh + 2 }
      some (now.setLaunch l { Launch.free with st := .held, gen := gen, graph := g },
        { store := [d.entry 0 0 0 [] (.submit false (some l) g (d.value a))], skip := 1,
          flights := results 16 [.p p true, .s r (dbl (handleOf 1 l gen))] 0 none })
    else some (d.refusesWork (d.value a).toNat, { flights := results 16 [.p p false, .s r 0] 0 none })
  | .graph r a p =>
    if d.takesWork true (d.value a).toNat = true then
      let g := chosen d.fresh d.freeGraphs
      some ({ d.reserved g with fresh := d.fresh + 1 },
        { store := [d.entry 0 0 0 [] (.submit true none g (d.value a))], skip := 1,
          flights := results 16 [.p p true, .s r (dbl (handleOf 2 g ((d.graph g).gen + 1)))] 0 none })
    else some (d.refusesWork (d.value a).toNat, { flights := results 16 [.p p false, .s r 0] 0 none })
  | .cancel a p =>
    some (d, if d.requests < 16 then
        { store := [d.entry 0 0 0 [] (.cancel ((d.value a).setWidth 32))], skip := 1, flights := results 1 [.p p true] 0 none }
      else { flights := results 1 [.p p false] 0 none })
  | _ => none

/-! ## System instructions (R391 to R399) -/

/-- A request of a system context: a place in the request queue and a buffered effect, or the predicate false (R395). -/
def Device.asks (d : Device) (p : PNum) (e : Effect) : Did :=
  if d.requests < 16 then { store := [d.entry 0 0 0 [] e], effects := 1, skip := 1, flights := results 1 [.p p true] 0 none }
  else { flights := results 1 [.p p false] 0 none }

/-- The write of a special register by MTSR, reserved bits left out (R93, R94, R226, R392). -/
def specialWrite (d : Device) (sel : Nat) (v : Dbl) : Option RegWrite :=
  if sel = 4 then some (.fctl (v.setWidth 32 &&& (if v.toNat % 4 = 3 then 0x1F3C else 0x1F3F)))
  else if sel = 5 then some (.fstat (v.setWidth 32 &&& 0x1F))
  else if sel = 6 then some (.hkey v)
  else if sel = 0x0B ∧ d.curLaunch.asid = 0 then
    some (.mmrev ((if v.toNat % 256 = 1 ∨ v.toNat % 256 = 2 then v.setWidth 32 &&& 0xFF else d.regs.mmrev &&& 0xFF) |||
      (v.setWidth 32 &&& 0x100)))
  else none

/-- What a system instruction does: for a context of address space 0 (R391). -/
def Device.asSystem (d : Device) (x : Option Did) : Option Did := if d.curLaunch.asid = 0 then x else none

/-- A buffered effect of a system instruction that signals an object at the address of an address register: `n` bytes of
its partition from there, aligned to 8 (R396, R398). -/
def Device.posts (d : Device) (a : ANum) (n : Nat) (e : Nat → Effect) : Option Did :=
  let at_ := d.regs.a[a].addr.toNat
  if at_ % 8 = 0 ∧ at_ + n ≤ d.curLaunch.spSize then
    some { store := [d.entry 0 0 0 [] (e (spKey d.issue.core (d.phys at_)))], effects := 1, more := 1 }
  else none

/-- ATTEST: the nonce's lines are read by port 1 at issue + 1 (R399). -/
def Device.attests1 (d : Device) (at_ mask bar : Nat) : Option Did :=
  if at_ + (120 + 32 * popCount mask 16) ≤ d.curLaunch.spSize ∧ bar % 8 = 0 ∧ bar + 8 ≤ d.curLaunch.spSize then
    some { flights := [(1, .nonce (spKey d.issue.core (d.phys at_)) mask (spKey d.issue.core (d.phys bar)))],
           uses := d.lineUses d.issue.core 1 1 (spanLines (d.phys at_) 32) }
  else none

/-- What the system instructions do in a system context, and MTSR in any. -/
def systemRule (d : Device) : Instr → Option Did
  | .mtsr a sr => (specialWrite d sr.toNat (d.value a)).map (fun w => { flights := [(1, .regs [w] 0 none)] })
  | .ctxsw p a inn => d.asSystem (some (d.asks p (.ctxsw ((d.value a).toNat % 512) inn)))
  | .haltc p a op => d.asSystem (some (d.asks p (.haltc ((d.value a).toNat % 1024) op)))
  | .ctxst a x y =>
    d.asSystem (if (d.value y).toNat % 65536 = 0 then
      d.posts a 9 (.image false ((d.value x).toNat % 512) ((d.value y).toNat % 2 ^ 48)) else none)
  | .ctxld a x y =>
    d.asSystem (if (d.value y).toNat % 65536 = 0 then
      d.posts a 9 (.image true ((d.value x).toNat % 512) ((d.value y).toNat % 2 ^ 48)) else none)
  | .tlbinv sc a b =>
    d.asSystem (some { flights := [(1, .tlbInv sc ((d.value a).toNat % 256) ((d.value b).toNat / 65536 % 2 ^ 32))] })
  | .shoot a sc x y => d.asSystem (d.posts a 8 (.shoot sc ((d.value x).toNat % 256) ((d.value y).toNat / 65536 % 2 ^ 32)))
  | .attest a m b =>
    d.asSystem (d.attests1 d.regs.a[a].addr.toNat ((d.value m).toNat % 2 ^ 16) ((d.value b).toNat % 2 ^ 21))
  | _ => none

end Sys2Proof.Machine

/-- Control instructions choose the next bundle and its tick. For every well-formed form of these, NOP, JMP, CALL, BR,
BRP, CALLR, RET, LOOP, LOOPS, LIDX.pop, WAITT, WAITT.abs, BND, CCWAIT, HSIG, TRAP and BRK issue with the transfer,
link, loop entry, wait, buffered effect or trap at the end of the tick that their rules give, where their conditions
at issue hold. That HSIG needs no page and no W right is the model's choice (log entry 52). (R305, R307, R308, R310,
R311, R312, R313, R315, R320, R323, R324.) -/
def Obligations.ControlInstructionsChooseTheSuccessor : Prop :=
  ∀ (s : State) (i : Instr) (x : Did),
    s.dev.Ready i → i.wf = true → controlRule s.dev i = some x → s.dev.Clear x →
    exec i s = .next { s with dev := s.dev.after i x }

/-- EXIT ends the unit and the lease that its core holds. EXIT issues: the context has exited, no repeat goes on, and the
lease of the sheaf, if this core holds it and it has not run out, is limited to this tick and free two ticks on. That
no repeat goes on past EXIT is the model's choice (log entry 57). (R162, R175, R298, R315.) -/
def Obligations.ExitEndsTheUnitAndItsLease : Prop :=
  ∀ s : State, s.dev.Ready .exit →
    exec .exit s = .next { s with dev := { s.dev.after .exit { exits := true } with sheaves := s.dev.leaseEnded.sheaves } }

/-- LAUNCH, GRAPH and CANCEL place their requests. LAUNCH and GRAPH, where every condition of acceptance holds, reserve a
graph slot (and a launch slot) of a new generation, write true and the handle at issue + 16 and buffer the submission;
where one does not hold, they write false and zero at issue + 16, reserve nothing and report the refusal; CANCEL
buffers the cancel and writes true at issue + 1, or false when 16 requests wait. Which free slot is taken is a free
value of the model's Config (the spec names none), and that a place in the queue of 16 requests is taken from issue to
the commit that performs the request is the model's choice (log entry 116). (R317, R318, R322, R286.) -/
def Obligations.WorkRequestsReserveTheirSlots : Prop :=
  ∀ (s : State) (i : Instr) (now : Device) (x : Did),
    s.dev.Ready i → workRule s.dev i = some (now, x) → s.dev.LandsFree x.flights →
    exec i s = .next { s with dev := s.dev.afterIn now i x }

/-- System instructions act in a system context. MTSR writes the register that its selector names at issue + 1; in a
context of address space 0, CTXSW and HALTC take a place in the request queue and write their predicate, CTXST, CTXLD
and SHOOT buffer their effects, TLBINV removes its entries at issue + 1 and ATTEST reads its nonce at issue + 1. The
model's choices that it rests on: the nonce and the report of ATTEST need no alignment (log entry 47), and a place in
the request queue is taken until the commit (116). MTSR of a handler and of the interrupted registers is in
HandlerPredicatesTransfersAndRegisterWrites. (R391, R392, R395, R396, R397, R398, R399.) -/
def Obligations.SystemInstructionsActForASystemContext : Prop :=
  ∀ (s : State) (i : Instr) (x : Did),
    s.dev.Ready i → systemRule s.dev i = some x → s.dev.Clear x →
    exec i s = .next { s with dev := s.dev.after i x }

/-- ERRPOP.p reads a word of the oldest error record and removes it. In a system context, ERRPOP.p on a log that is not
empty writes the word of the oldest record at issue + 1, removes the record and advances the head of the log; on an
empty log, ERRPOP and ERRPOP.p write zero and the log is as before. (R394, R391.) -/
def Obligations.ErrpopTakesTheOldestRecord : Prop :=
  (∀ (s : State) (r : SReg) (w : BitVec 3) (x : BitVec 512) (t : List (BitVec 512)),
    let rs := results 1 [.s r (dbl (recField x (64 * w.toNat) 64))] 0 none
    let now := { s.dev with log := t, logHead := (s.dev.logHead + 1) % 1024 }
    s.dev.Ready (.errpop r w true) → s.dev.curLaunch.asid = 0 → s.dev.log = x :: t → s.dev.LandsFree rs →
    exec (.errpop r w true) s = .next { s with dev := s.dev.afterIn now (.errpop r w true) { flights := rs } }) ∧
  (∀ (s : State) (r : SReg) (w : BitVec 3) (pop : Bool), let rs := results 1 [.s r 0] 0 none
    s.dev.Ready (.errpop r w pop) → s.dev.curLaunch.asid = 0 → s.dev.log = [] → s.dev.LandsFree rs →
    exec (.errpop r w pop) s = .next { s with dev := s.dev.after (.errpop r w pop) { flights := rs } })

namespace Sys2Proof.Machine

/-! ## Reductions, masks, packed blocks, laid windows and quantization (R127, R129, R133, R135 to R141) -/

/-- The elements that take part in a reduction: element 0 of the destination with ACC, and the active elements (R129). -/
def Device.partsOf (d : Device) (e : FpFmt) (r a : VNum) (m : VMod) (acc : Bool) : List Exact :=
  (if acc then [d.fpElem m e r 0] else []) ++
    ((List.range (4096 / fpWidth e)).filter (fun k => match m.mask with
      | none => true
      | some (q, _) => bitAt d.regs.m[q].toNat k)).map (d.fpElem m e a)

/-- The greatest or the least of some values by a rule, and the value of none (R129). -/
def foldBy (f : Exact → Exact → Exact) (none_ : Exact) : List Exact → Exact
  | [] => none_
  | x :: t => t.foldl f x

/-- A mask written bit by bit: bit `k` of the first `n` is the new one where the instruction's own mask is active, zero or
the old one where it is not, and zero above (R116, R127). -/
def Device.maskOf (d : Device) (m : VMod) (r : MNum) (n : Nat) (f : Nat → Bool) : MData :=
  BitVec.ofNat 1024 (ofElems 1 ((List.range n).map (fun k => match m.mask with
    | none => bitOf (f k)
    | some (q, z) => if bitAt d.regs.m[q].toNat k then bitOf (f k) else if z then 0 else bitField d.regs.m[r].toNat k 1)))

/-- The codes that VPACK packs: the active elements, zero elsewhere (R137). -/
def Device.packed (d : Device) (a : VNum) (m : VMod) (w : Nat) : List Nat :=
  (List.range (4096 / w)).map (fun k => match m.mask with
    | none => velem w d.regs.v[a] k
    | some (q, _) => if bitAt d.regs.m[q].toNat k then velem w d.regs.v[a] k else 0)

/-- The block in a pair of vector registers (R138). -/
def Device.blockIn (d : Device) (a : VNum) : Nat := d.regs.v[a].toNat + d.regs.v[vnum (a.val + 1)].toNat * 2 ^ 4096

/-- The elements that VUNPACK writes: of the block where active, zero or the old ones where not (R116, R138). -/
def Device.unpackedInto (d : Device) (r : VNum) (m : VMod) (w : Nat) (codes : List Nat) : VData :=
  vdata w ((List.range (4096 / w)).map (fun k => match m.mask with
    | none => codes.getD k 0
    | some (q, z) => if bitAt d.regs.m[q].toNat k then codes.getD k 0 else if z then 0 else velem w d.regs.v[r] k))

/-- The weights that VLAID reads: of its active elements, from the one at BOFF on around the segment (R78, R140). -/
def Device.weights (d : Device) (m : VMod) (w : BitVec 192) (n : Nat) : List Nat :=
  ((List.range n).filter (fun k => match m.mask with
    | none => true
    | some (q, _) => bitAt d.regs.m[q].toNat k)).map (fun k => (lwBoff w / lwKw w + k) % lwN w)

/-- The lines that hold the windows of some weights (R78, R140). -/
def Device.segmentLines (d : Device) (w : BitVec 192) (idx : List Nat) : List Nat :=
  linesOf ((idx.map (windowBytes w)).flatten.map (fun b => d.phys (lwSptr w) + b))

/-- The lines that hold their scales. -/
def Device.gscaleLines (d : Device) (w : BitVec 192) (idx : List Nat) : List Nat :=
  linesOf (idx.map (fun k => d.phys (lwGsptr w) + k / 64))

/-- VLAID: a load of the window's lines at issue + 1 and its scales' lines at issue + 2, complete at issue + 5 (R140). -/
def Device.laidLoad (d : Device) (r : VNum) (q : LwNum) (off : Dbl) (m : VMod) (adv w32 : Bool) : Did :=
  let w := d.regs.lw[q]
  let idx := d.weights m w (if w32 then 128 else 256)
  let seg := d.segmentLines w idx
  let sc := d.gscaleLines w idx
  let key := fun (a : Nat) => (spKey d.issue.core a, 64)
  { flights := [
      (5, .finish (.laid r w w32 (if adv then some q else none) (d.vmodes m) (m.mask.map (fun p => (d.regs.m[p.1].toNat, p.2))) d.regs.v[r] off)),
      (1, .capture d.seq (seg.map key)), (2, .capture d.seq (sc.map key))],
    uses := d.lineUses d.issue.core 1 2 seg ++ d.lineUses d.issue.core 2 2 sc }

/-- VQNT: the scaled blocks of 32 elements (R110, R141). -/
def Device.quantized (d : Device) (e : FpFmt) (a : VNum) (m : VMod) (f : ScaleFmt) (off : Nat) (blocks : Nat) : List Scaled :=
  (List.range blocks).map (fun b => scaleSearch f (d.vmodes m) (fun j => off + 32 * b + j)
    ((List.range 32).map (fun j => d.fpElem m e a (32 * b + j))))

/-- The results of VQNT: the codes to the vector, the scales to bytes of a scale register (R141). -/
def Device.quantize (d : Device) (r a : VNum) (off : Dbl) (m : VMod) (fout : BitVec 3) (sin : Bool) (cbx : CbNum) (kreg : KNum)
    (sb : BitVec 6) : Did :=
  let l := d.quantized (if sin then .bf16 else .fp32) a m (qntFmt fout d.regs.cb[cbx]) off.toNat (if sin then 8 else 4)
  { flights := results 10
      [.v r 0 512 (vdata (if fout.toNat < 4 then 8 else 4) (l.map (fun x => x.codes)).flatten),
       .k kreg sb.toNat l.length (BitVec.ofNat 512 (ofElems 8 (l.map (fun x => x.x)) * 2 ^ (8 * sb.toNat)))]
      (orFlags (l.map (fun x => orFlags x.flags))) (some r) }

/-- What the remaining vector and mask instructions do. -/
def blockRule (d : Device) : Instr → Option Did
  | .vredsum e r a n m acc =>
    let x := reduceSum (d.partsOf e r a m acc)
    let y := deliverFz (d.vmodes m) (d.value n).toNat (fpFloat e) x.1
    some { flights := results 6 [.v r 0 512 (BitVec.ofNat 4096 y.1)] (y.2 ||| x.2) (some r) }
  | .vredmax e r a m acc =>
    let x := foldBy maxExact (.inf true) (d.partsOf e r a m acc)
    some { flights := results 6 [.v r 0 512 (BitVec.ofNat 4096 (exactCode (fpFloat e) x))] 0 (some r) }
  | .vredmin e r a m acc =>
    let x := foldBy minExact (.inf false) (d.partsOf e r a m acc)
    some { flights := results 6 [.v r 0 512 (BitVec.ofNat 4096 (exactCode (fpFloat e) x))] 0 (some r) }
  | .vins e r a b _ =>
    let k := (d.value b).toNat
    let x := if k < 4096 / e.bits then BitVec.ofNat 4096 (setField d.regs.v[r].toNat (e.bits * k) e.bits (d.value a).toNat)
      else d.regs.v[r]
    some { flights := results 3 [.v r 0 512 x] 0 (some r) }
  | .vcmp e c r a b m =>
    let n := 4096 / fpWidth e
    let x := d.maskOf m r n (fun k => vcondHolds c (d.fpElem m e a k) (d.fpElem m e b k))
    let nv := (List.range n).any (fun k => VCond.signals c && (match m.mask with
      | none => true
      | some (q, _) => bitAt d.regs.m[q].toNat k) && (decide (d.fpElem m e a k = .nan) || decide (d.fpElem m e b k = .nan)))
    some { flights := results 4 [.m r x] (if nv then fNV else 0) none }
  | .vhusk r a b m hk true wc p =>
    let key := (if hk then d.regs.hkey else d.value a).toNat
    let q : MNum := Fin.ofNat 8 r.toNat
    let x := d.maskOf m q (4096 / wc.bits) (fun k => decide (p.toNat ≤ husk key ((d.value b).toNat + k) / 65536))
    some { flights := results 6 [.m q x] 0 none }
  | .mand r a b _ => some { flights := results 2 [.m r (d.regs.m[a] &&& d.regs.m[b])] 0 none }
  | .mor r a b _ => some { flights := results 2 [.m r (d.regs.m[a] ||| d.regs.m[b])] 0 none }
  | .mnot r a _ => some { flights := results 2 [.m r (~~~d.regs.m[a])] 0 none }
  | .vpack r a m f res =>
    let w := fmtWidth f.toNat
    let codes := d.packed a m w
    let x := packBlock f.toNat w codes
    some (if packBytes w codes ≤ 8 * res.toNat then
        { flights := results 6 [.v r 0 512 (BitVec.ofNat 4096 x), .v (vnum (r.val + 1)) 0 512 (BitVec.ofNat 4096 (x / 2 ^ 4096))] 0 (some r) }
      else { flights := [(6, .raise (d.ev 8 0 (packBytes w codes) (8 * res.toNat) 0 0))] })
  | .vunpack r a m =>
    let x := d.blockIn a
    let w := fmtWidth (bitField x 32 5)
    some (match unpackCheck x (if w = 0 then 0 else 4096 / w) with
      | some (c, p, q) => { flights := [(6, .raise (d.ev 9 c p q 0 0))] }
      | none => { flights := results 6 [.v r 0 512 (d.unpackedInto r m w (unpackBlock x))] 0 (some r) })
  | .vlaid r q n m adv w32 =>
    if lwFails d.regs.lw[q] d.curLaunch.spSize = none then some (d.laidLoad r q (d.value n) m adv w32) else none
  | .vqnt r a n m fout sin cbx kreg sb => some (d.quantize r a (d.value n) m fout sin cbx kreg sb)
  | _ => none

end Sys2Proof.Machine

/-- Reductions, mask instructions, packing, laid windows and quantization write their results. VREDSUM, VREDMAX, VREDMIN,
VINS, VCMP, VHUSK to a mask, MAND, MOR, MNOT, VPACK, VUNPACK, VLAID and VQNT put in flight the results, flags, faults
and scratchpad reads that their rules give, at their latencies. The model's choices that it rests on: an element which
the instruction leaves alone keeps the value the destination held at issue (log entry 22), and a VPACK or VUNPACK that
faults puts only the raise of its fault in flight (123). (R127, R129, R133, R135, R136, R137, R138, R140, R141.) -/
def Obligations.BlockAndMaskInstructionsWriteTheirResults : Prop :=
  ∀ (s : State) (i : Instr) (x : Did),
    s.dev.Ready i → i.wf = true → blockRule s.dev i = some x → s.dev.Clear x →
    exec i s = .next { s with dev := s.dev.after i x }

namespace Sys2Proof.Machine

/-! ## Tile registers (R143 to R157) -/

/-- A type word and tag to a register, or to a pair of them, at issue + 1 (R147, R150). -/
def retyped (r : TNum) (pair : Bool) (w : Nat) (tag : Byte) : List (Nat × FlyOp) :=
  results 1 ((if pair then [r, tnum (r.val + 1)] else [r]).map (fun q => .ttype q (dbl w) (some tag))) 0 none

/-- A tile to a register, or to a pair where there are two registers' data: its type at issue + 1, its data `n` ticks
after issue (R147, R150). -/
def tileResults (n : Nat) (r : TNum) (w : Nat) (tag : Byte) (data : List TData) (fl : Flags) : List (Nat × FlyOp) :=
  retyped r (decide (data.length = 2)) w tag ++
    results n (((if data.length = 2 then [r, tnum (r.val + 1)] else [r]).zip data).map (fun p => .tdata p.1 p.2)) fl none

/-- The source tile of a tile instruction where it is typed, resolved and fits its register (R147). -/
def Device.sourceTile (d : Device) (a : TNum) : Option Tile :=
  match d.tile a 1 with
  | .ok t => some t
  | .error _ => none

/-- What a typing rule gives, where it passes (R148). -/
def passed {α : Type} : Except Shape α → Option α
  | .ok x => some x
  | .error _ => none

/-- Dimension variables bound anew, with the results that mark them written (R146). -/
def Device.rebound (d : Device) (dv : Dims) : Did := { flights := d.dimResults dv, dims := some dv }

/-- The modes that TCAST names (R155). -/
def Device.castModes (d : Device) (rnd sat : BitVec 2) : Modes :=
  d.modes (if rnd = 0 then .fctl else if rnd = 1 then .rne else if rnd = 2 then .rz else .rsr)
    (if sat = 0 then .fctl else if sat = 1 then .sat else .nsat)

/-- The elements of a cast: element `k` draws counter `k + off` (R101, R155). -/
def castElems (md : Modes) (g f off : Nat) (codes : List Nat) : List (Nat × Flags) :=
  (codes.zip (List.range codes.length)).map (fun p => deliver md (p.2 + off) (destOfCode f) (decodeElem g 0 p.1))

/-- A result tile: packed again where its type is packed, else its rows (R85, R147, R155). -/
def castTile (w : Nat) (st : Storage) (f : Nat) (out : List Nat) : List TData :=
  if tLayout w = 3 then [BitVec.ofNat 65536 (packBlock f (fmtWidth f) out)] else tileData st.pair (tileRows st w out)

/-- Conversion by TCAST of a tile whose type passes (R155): a packed block is checked at issue + 8 (R86). -/
def Device.cast (d : Device) (r : TNum) (src : Tile) (f : BitVec 5) (md : Modes) (off : Nat) (w : Nat) (st : Storage) : Option Did :=
  match src.elements with
  | .error (c, p, q) => some { flights := [(8, .raise (d.ev 9 c p q 0 0))] }
  | .ok codes =>
    let x := castElems md (tFmt src.typ) f.toNat off codes
    if tLayout w = 3 ∧ 8192 < packBytes (fmtWidth f.toNat) (x.map (fun p => p.1)) then none
    else some { flights := tileResults 8 r w src.tag (castTile w st f.toNat (x.map (fun p => p.1))) (orFlags (x.map (fun p => p.2))) }

/-- Expansion by TEXP (R156). -/
def Device.expand (d : Device) (r : TNum) (src : Tile) (out : Bool) (w : Nat) (st : Storage) (arr : List Byte) : Did :=
  match src.elements with
  | .error (c, p, q) => { flights := [(12, .raise (d.ev 9 c p q 0 0))] }
  | .ok codes =>
    let x := if tLayout src.typ = 3 then codes.map (fun c => (c, 0))
      else (codes.zip (List.range codes.length)).map (fun p => expandElem (d.modes .rne .fctl) (if out then .fp32 else .bf16)
        src.typ src.st d.regs.cb[Fin.ofNat 4 (tCbx src.typ)] arr p.2 p.1)
    { flights := tileResults 12 r w src.tag (tileData st.pair (tileRows st w (x.map (fun p => p.1)))) (orFlags (x.map (fun p => p.2))) }

/-- A tile moved as it stands, or only retyped where it stays in its register (R150, R153 to R155). -/
def movedTile (r a : TNum) (w : Nat) (st : Storage) (src : Tile) : Did :=
  { flights := if r = a then retyped r st.pair w src.tag else tileResults 4 r w src.tag src.image 0 }

/-- A type-only form of a register whose type is not resolved: its word changes and no data moves (R147). -/
def Device.retypes (d : Device) (r : TNum) (w : Except Shape Nat) : Option Did :=
  (passed w).map fun w => { flights := retyped r false w d.regs.t[r].tag }

/-- A reshape: the bindings of its type, then the elements in their order (R153). -/
def Device.reshaped (d : Device) (r a : TNum) (src : Tile) (w : Nat) (dv : Dims) (st : Storage) : Did :=
  let x := if tLayout w = 0 ∧ tLayout src.typ = 0 ∧ st.e0 = src.st.e0 then movedTile r a w st src
    else { flights := tileResults 8 r w src.tag (tileData st.pair (tileRows st w src.codes)) 0 }
  { flights := d.dimResults dv ++ x.flights, dims := some dv }

/-- The elements of a transposed tile: element `k` of the result, at (j0, j1), is the source's at (j1, j0) (R154). -/
def turned (st : Storage) (codes : List Nat) : List Nat :=
  (List.range st.count).map (fun k => codes.getD (k / st.e1 + st.e0 * (k % st.e1)) 0)

/-- What the tile instructions do, with `o` the device as their slot sees it; none where they raise an event. -/
def tileRule (d o : Device) : Instr → Option Did
  | .ttype t a =>
    if typeCheck (d.value a).toNat = none then some { flights := results 1 [.ttype t (d.value a) none] 0 none } else none
  | .tbind v a =>
    (passed (unify o.typeWords d.regs.dv (termVar d.regs.dv v) (.value (d.value a).toNat) 7 14)).map d.rebound
  | .tbindU v u =>
    (passed (unify o.typeWords d.regs.dv (termVar d.regs.dv v) (termVar d.regs.dv u) 7 14)).map d.rebound
  | .tfree t => some { flights := results 1 [.ttype t 0 (some 0)] 0 none }
  | .tfreeDv v => some { flights := [(1, .regs [.dv v] 0 none)], dims := some (d.regs.dv.set v .unbound) }
  | .tresh r a b => (d.sourceTile a).bind fun src =>
    (passed (reshapeRule o.typeWords d.regs.dv src (d.value b).toNat r)).map fun p => d.reshaped r a src (d.value b).toNat p.1 p.2
  | .ttrans r a lt =>
    if lt = true ∧ r = a ∧ openType d.regs.dv d.regs.t[a].typ.toNat = true then d.retypes r (transposeType d.regs.t[a].typ.toNat true)
    else (d.sourceTile a).bind fun src =>
    (passed (transposeRule d.regs.dv src r lt)).map fun p =>
      if lt then movedTile r a p.1 p.2 src
      else { flights := tileResults 8 r p.1 src.tag (tileData p.2.pair (tileRows p.2 p.1 (turned src.st src.codes))) 0 }
  | .tcast r a f rnd sat re off =>
    if re = true ∧ r = a ∧ openType d.regs.dv d.regs.t[a].typ.toNat = true then d.retypes r (recastType d.regs.t[a].typ.toNat f.toNat)
    else (d.sourceTile a).bind fun src =>
    (passed (castRule d.regs.dv src r f.toNat re)).bind fun p =>
      if re then some (movedTile r a p.1 p.2 src) else d.cast r src f ((d.castModes rnd sat).forCodes (tFmt src.typ) f.toNat) off.toNat p.1 p.2
  | .tzero r => some { flights := results 2 [.tdata r 0] 0 none }
  | .texp r a k out => (d.sourceTile a).bind fun src =>
    (passed (expandRule d.regs.dv d.regs.k src r k out)).map fun p => d.expand r src out p.1 p.2.1 p.2.2
  | .tmov r a =>
    let t := d.regs.t[a]
    if t.typ = 0 then some { flights := tileResults 4 r 0 t.tag [t.data] 0 }
    else (d.sourceTile a).bind fun src =>
      if src.st.pair = true ∧ r.val % 2 = 1 then none else some { flights := tileResults 4 r src.typ src.tag src.image 0 }
  | _ => none

end Sys2Proof.Machine

/-- Tile instructions type and write their tile registers. TTYPE, TBIND, TFREE, TRESH, TTRANS, TCAST, TZERO, TEXP and
TMOV, where their typing rules pass, put in flight the type words at issue + 1 and the tile data at their latencies
and bind the dimension variables that unification gives. The model's choices that it rests on: TZERO takes every type
and TMOV of an empty tile moves it (log entry 12), TCAST of a packed tile converts its elements and raises the unpack
fault, code 9, at issue + 8 where the block is malformed (11), and what lies past a block and which format its
elements have (122); TCAST with stochastic rounding of an sp24 tile counts by the value array (144), and its fields
with RE = 1 are ignored (154). (R146, R147, R148, R149, R150, R151, R152, R153, R154, R155, R156, R157.) -/
def Obligations.TileInstructionsTypeAndWriteTheirTiles : Prop :=
  ∀ (s : State) (i : Instr) (x : Did),
    s.dev.Ready i → tileRule s.dev (s.dev.opened i) i = some x → s.dev.Clear x →
    exec i s = .next { s with dev := s.dev.after i x }

namespace Sys2Proof.Machine

/-! ## The press and its sequencer (R160 to R181) -/

/-- The device with `n` commands counted against the lease that the issuing core holds, the last of them `m` ticks after
issue; none where it does not hold the lease so long or for so many (R162, R176). -/
def Device.spends (d : Device) (n m : Nat) : Option Device :=
  let x := d.curSheaf.lease
  let t := d.now + m
  if x.holder = some (Fin.ofNat 4 d.issue.core) ∧ t ≤ x.limit ∧ n ≤ x.cmds then
    let y := if x.cmds = n then { x with cmds := 0, limit := t, free := t + 2 } else { x with cmds := x.cmds - n }
    some (d.setSheaf (d.issue.core / 4) { d.curSheaf with lease := y })
  else none

/-- An accumulator slot of the partition (R17, R330, R331). -/
def Device.slotOf (d : Device) (c : Nat) : Option Nat :=
  if c < d.curLaunch.accn then some (d.issue.core * 128 + ((d.curLaunch.seat d.issue.core).accBase + c)) else none

/-- The header at a program address, where its 16 bytes lie in the partition (R158, R159). -/
def Device.headerAt (d : Device) (a : Nat) : Option Header :=
  if a % 16 = 0 ∧ a + 16 ≤ d.curLaunch.spSize then
    some (headerOf (spKey d.issue.core (d.phys a)) a (d.spRead d.issue.core (d.phys a) 16))
  else none

/-- The promises left once a header has been read whose tag agrees with what was promised of it (R198, R199). -/
def Device.tagKept (d : Device) (l : List Promise) (h : Header) : Option (List Promise) :=
  match l.find? (fun p => p.at_ == h.at_) with
  | none => some l
  | some p => if p.tag = some h.tag ∧ p.tick ≤ d.now then some (l.filter (fun q => q.at_ != h.at_)) else none

/-- The promises with one that a header will be written `n` ticks after issue, where there is room for it (R198). -/
def Device.promised (d : Device) (l : List Promise) (h : Header) (n : Nat) : Option (List Promise) :=
  let r := l.filter (fun q => q.at_ != h.at_)
  if r.length < 64 then some (r ++ [{ at_ := h.at_, tick := d.now + n, tag := none }]) else none

/-- What a step of an instruction gives, where it raises no event. -/
def granted {α : Type} : Except Ev α → Option α
  | .ok x => some x
  | .error _ => none

/-- Press resources from issue + `lo` to issue + `hi` (R160). -/
def Device.pressUses (d : Device) (writer : Bool) (lo hi : Nat) (l : List Nat) : List PressRes :=
  l.map (fun r => d.pressUse r writer lo hi)

/-- Scratchpad ranges of the issuing core, as captures name them. -/
def Device.ranges (d : Device) (l : List (Nat × Nat)) : List (Nat × Nat) := l.map (fun p => (spKey d.issue.core p.1, p.2))

/-- A load of the press from rows in scratchpad, from issue + `start` on: it completes when its last columns have been read,
four a tick (R164, R176); `id` is the number of its action. -/
def Device.loadFlights (d : Device) (id start : Nat) (f : Finish) (ticks : Nat) (ranges : Nat → List (Nat × Nat)) :
    List (Nat × FlyOp) :=
  (start + ticks, .finish f) :: (List.range ticks).map (fun k => (start + k, .capture id (d.ranges (ranges k))))

/-- The bank-ticks of such a load, by the scratchpad's deckle station (R200). -/
def Device.loadUses (d : Device) (start ticks : Nat) (ranges : Nat → List (Nat × Nat)) : List BankRes :=
  ((List.range ticks).map (fun k => d.lineUses d.issue.core (start + k) 2 (rangesLines (ranges k)))).flatten

/-- PLDB from a tile: the columns that the buffer gains, with its type, K and N afterwards (R164). -/
def loadedBuffer (ld : TileLoad) (mode noff : Nat) : PressBuf :=
  let n := ld.src.st.e1
  let cols := (List.range n).map ld.src.row
  { typ := dbl (setType ld.src.typ 12 10 (32 * noff + n)), k := ld.src.st.e0, n := 32 * noff + n, tag := ld.src.tag,
    cols := cols, scales := ld.scales,
    metas := if mode = 0 then cols.map (fun _ => none)
      else match ld.mt with
        | some m => (List.range n).map (fun j => some (m.row j))
        | none => [] }

/-- The first malformed nibble of the metadata of a load (R165). -/
def loadBadNibble (ld : TileLoad) : Option (Nat × Nat) :=
  match ld.mt with
  | some m => badNibble ((List.range ld.src.st.e1).map m.row) (ceilDiv ld.src.st.e0 4)
  | none => none

/-- PLDB from a tile: the load path and the buffer are occupied, and the buffer is filled, or emptied by malformed
metadata, when the last columns are loaded (R160, R164, R165). -/
def Device.loadsTile (d : Device) (ld : TileLoad) (mode : Nat) (b : Bool) (x : TNum) (noff : Nat) : Did :=
  let t := loadTicks ld.src.st.e1
  { flights := d.dimResults ld.dv ++ [(t, match loadBadNibble ld with
      | some (r, g) => .bufFail b (d.ev 11 0 x.val r g 0)
      | none => .bufTile b (loadedBuffer ld mode noff))],
    dims := some ld.dv, press := d.pressUses true 0 (t - 1) [1, bufRes b] }

/-- PLDB from scratchpad (R164). -/
def Device.loadsRegion (d : Device) (h : Header) (r : RegionOperand) (b : Bool) (l : List Promise) : Did :=
  let t := loadTicks r.st.e1
  let key := spKey d.issue.core
  let f : Finish := .bufRegion b (dbl h.typ) r.st.e0 r.st.e1 h.tag (r.rows.map key) r.st.len (r.scales.map key) r.slen
  { flights := d.loadFlights d.seq 0 f t (loadRanges r.rows r.st.len r.scales r.slen),
    uses := d.lineUse d.issue.core 0 2 (d.phys h.prog) :: d.loadUses 0 t (loadRanges r.rows r.st.len r.scales r.slen),
    press := d.pressUses true 0 (t - 1) [1, bufRes b], promises := some l }

/-- PLAID: the lines of the windows and scales of four columns are read a tick, for the load and for the flags of these
columns (R166). -/
def Device.loadsLaid (d : Device) (q : LwNum) (b : Bool) (x : Dbl) (adv : Bool) (k n : Nat) : Did :=
  let w := d.regs.lw[q]
  let t := loadTicks n
  let sat := bitAt d.regs.fctl.toNat 2
  let lines := fun (j : Nat) => laidLines w (d.phys 0) k (4 * j) (Nat.min 4 (n - 4 * j))
  let keys := fun (j : Nat) => (lines j).map (fun a => (spKey d.issue.core a, 64))
  { flights := (t, .finish (.bufLaid b x k n w (if adv then some q else none) sat)) ::
      ((List.range t).map (fun j =>
        [(j, .capture d.seq (keys j)), (j, .finish (.laidFlags w k (4 * j) (Nat.min 4 (n - 4 * j)) sat)),
         (j, .capture (d.seq + 2 + 3 * j) (keys j))])).flatten,
    uses := ((List.range t).map (fun j => d.lineUses d.issue.core j 2 (lines j))).flatten,
    press := d.pressUses true 0 (t - 1) [1, bufRes b] }

/-- The codebooks of a stream and whether it reads the product table: the table where the formats need it, valid and built
by this core from the operands' codebooks, else the codebook registers (R163). -/
def Device.books (d : Device) (wa wb : Nat) : Option (BitVec 256 × BitVec 256 × Bool) :=
  if needsTable (tFmt wa) (tFmt wb) then
    d.curSheaf.table.bind fun t =>
      if t.core = d.issue.core ∧ t.a = tableSide (tFmt wa) (tCbx wa) ∧ t.b = tableSide (tFmt wb) (tCbx wb) then
        some (t.cbA, t.cbB, true)
      else none
  else some (d.regs.cb[Fin.ofNat 4 (tCbx wa)], d.regs.cb[Fin.ofNat 4 (tCbx wb)], false)

/-- The bindings of a stream into a slot: PMMZ starts from zero, PMMA adds to what the slot's type describes (R167). -/
def Device.slotDims (d o : Device) (z : Bool) (acc n m : Nat) (dv : Dims) : Option Dims :=
  if z then some dv
  else passed (accumulateRule o.typeWords dv (d.accTyp acc) (Assoc.get false d.accOpen acc) n m)

/-- PMMA and PMMZ: a row of the tile meets the buffer at each tick from issue on, and the slot's type and K-open bit are
written at issue + 1 (R160, R167). -/
def Device.streams (d : Device) (z : Bool) (acc : Nat) (t : TNum) (b : Bool) (src : Tile) (n : Nat) (dv : Dims) (scales : List Byte)
    (bk : BitVec 256 × BitVec 256 × Bool) : Did :=
  let m := src.st.e1
  let row := fun (r : Nat) =>
    ({ typ := dbl src.typ, k := src.st.e0, scale0 := src.st.e0 / 32 * r, sw := src.st.sw, data := 0, scales := scales } : ARow)
  { flights := d.dimResults dv ++
      (List.range m).map (fun r => (r, .streamRow b acc r z (some (t, src.st.pair, r)) (row r) 0 0 0 0 bk.1 bk.2.1)) ++
      [(1, .accMark acc (if z then some (dbl (resultWord n m)) else none) (src.st.e0 % 32 != 0))],
    dims := some dv,
    press := [d.pressUse 0 true 0 (m - 1), d.pressUse (bufRes b) false 0 (m - 1)] ++
      (if bk.2.2 then [d.pressUse 7 false 0 (m - 1)] else []) }

/-- PMMA and PMMZ where their types agree. -/
def Device.streamDid (d o : Device) (z : Bool) (c : AccNum) (t : TNum) (b : Bool) (k : KNum) : Option (Device × Did) :=
  let buf := d.curSheaf.buf b
  (d.spends 1 0).bind fun now => (d.slotOf c.val).bind fun acc =>
  (passed (streamRule d.regs.dv d.regs.t[t].typ.toNat)).bind fun _ =>
  (passed (streamTile o t buf)).bind fun p => (d.slotDims o z acc buf.n p.2.st.e1 p.1).bind fun dv =>
  (d.books p.2.typ buf.typ.toNat).bind fun bk =>
  (passed (operandScales d.regs.k k p.2.typ p.2.st.e0 p.2.st.e1 1)).map fun sc => (now, d.streams z acc t b p.2 buf.n dv sc bk)

/-- CBLD, KLD and LWSET: `n` bytes read at issue + 1 by port 1, complete at issue + 4 (R161, R172 to R174). -/
def Device.auxLoad (d : Device) (a n : Nat) (f : Nat → Finish) : Option Did :=
  if a % n = 0 ∧ a + n ≤ d.curLaunch.spSize then
    some { flights := [(4, .finish (f (spKey d.issue.core (d.phys a)))), (1, .capture d.seq [(spKey d.issue.core (d.phys a), n)])],
           uses := [d.lineUse d.issue.core 1 1 (d.phys a)] }
  else none

/-- An address register and an offset in units of `n` bytes (R230). -/
def Device.at (d : Device) (a : ANum) (o : BitVec 10) (n : Nat) : Nat :=
  (((d.regs.a[a].addr.toNat : Int) + o.toInt * n) % (2 ^ 64 : Nat)).toNat

/-- LWSTEP's new BOFF (R174). -/
def steppedBoff (w : BitVec 192) (v : Int) (ab : Bool) : Int :=
  if ab then v % (lwN w : Int) * lwKw w else ((lwBoff w : Int) + v * lwKw w) % (lwBits w : Int)

/-- The steps of the address registers that a repeated command names (R123, R175). -/
def Device.repSteps (d : Device) (cmd : Instr) : List (Nat × FlyOp) :=
  ((repAddrs cmd).map (fun a =>
    results 1 [.aAddr a (stepped d.regs.a[a].addr d.regs.a[a].inc.toInt d.regs.a[a].wrap)] 0 none)).flatten

/-- A repeat begun of the bundle's command (R175). -/
def Device.repBegun (d : Device) (c : Instr × Nat) (cnt per : BitVec 6) (tstep astep : BitVec 3) : Rep :=
  { cmd := c.1, pc := d.live.pc, slot := c.2, issued := d.now, done := 0, cnt := cnt.toNat, per := per.toNat, tstep := tstep.toNat, astep := astep.toNat, dlines := 0 }

/-- The Viterbi command of VTENC, where its window, its record and the ranges that it names are right (R82, R179). -/
def Device.vtCommand (d : Device) (q : LwNum) (a : ANum) : Option VtCmd :=
  let w := d.regs.lw[q]
  let at_ := d.regs.a[a].addr.toNat
  let x := ofBytes (d.spRead d.issue.core (d.phys at_) 16)
  let tgt := bitField x 0 32
  let bar := bitField x 32 32
  let out := bitField x 64 32
  let size := d.curLaunch.spSize
  if lwFails w size = none ∧ (at_ % 16 = 0 ∧ at_ + 16 ≤ size) ∧ (tgt % 4 = 0 ∧ tgt + 4 * lwN w ≤ size) ∧
      (bar % 8 = 0 ∧ bar + 8 ≤ size) ∧ (out % 8 = 0 ∧ out + 8 ≤ size) then
    some { key := ctxKey d.issue.l d.issue.core, lw := w, res := d.phys out, bar := d.phys bar, tgt := d.phys tgt, accepted := d.mill, got := [] }
  else none

/-- VTENC: the command enters its quire's queue where that has room (R179). -/
def Device.vtQueued (d : Device) (p : PNum) (at_ : Nat) (c : VtCmd) : Device × Did :=
  let q := Assoc.get [] d.vtQueues (d.issue.core / 80)
  (if q.length < 64 then { d with vtQueues := Assoc.set [] d.vtQueues (d.issue.core / 80) (q ++ [c]) } else d,
   { flights := results 1 [.p p (decide (q.length < 64))] 0 none, uses := [d.lineUse d.issue.core 0 1 (d.phys at_)] })

/-- What the instructions of the press and its sequencer do, with the device they leave outside the issuing context; `o`
is the device as their slot sees it. -/
def pressRule (d o : Device) : Instr → Option (Device × Did)
  | .lacq p =>
    some (d.setSheaf (d.issue.core / 4) { d.curSheaf with requests := d.curSheaf.requests ++ [Fin.ofNat 4 d.issue.core] },
      { flights := [(1, .lacq p)] })
  | .lrel => some (d.leaseEnded, {})
  | .pldb t mode b x noff k => (d.spends 1 0).bind fun now =>
    (passed (loadRule o t mode.toNat x noff.toNat k (d.curSheaf.buf b))).map fun ld =>
      (now, d.loadsTile ld mode.toNat b x noff.toNat)
  | .pldbSp a b => (d.spends 1 0).bind fun now => (d.headerAt d.regs.a[a].addr.toNat).bind fun h =>
    (d.tagKept d.cur.promises h).bind fun l =>
    (granted (regionOperand h 256 0 o)).map fun r => (now, d.loadsRegion h r b l)
  | .plaid q b t adv => (d.spends 1 0).bind fun now =>
    if lwFails d.regs.lw[q] d.curLaunch.spSize = none then
      (passed (laidLoadType d.regs.dv (d.value t).toNat)).map fun p => (now, d.loadsLaid q b (d.value t) adv p.1 p.2)
    else none
  | .pmma c t b k => d.streamDid o false c t b k
  | .pmmz c t b k => d.streamDid o true c t b k
  | .pclr c => (d.slotOf c.val).map fun acc => (d, { flights := [(2, .clear acc)] })
  | .ptsc a off => (d.spends 1 0).map fun now =>
    (now, { flights := [(1, .tensorScale (if off then none else some ((d.value a).setWidth 32)))] })
  | .cbld q a o => (d.auxLoad (d.at a o 32) 32 (.codebook q)).map fun x => (d, x)
  | .kld k a o => (d.auxLoad (d.at a o 64) 64 (.scale k)).map fun x => (d, x)
  | .lwset q a o => (d.auxLoad (d.at a o 32) 32 (.window q)).map fun x => (d, x)
  | .lwstep q a ab =>
    if lwFails d.regs.lw[q] d.curLaunch.spSize = none then
      some (d, { flights := results 1 [.lwBoff q (BitVec.ofInt 26 (steppedBoff d.regs.lw[q] (d.value a).toInt ab))] 0 none })
    else none
  | .cbldPt a b ea eb => (d.spends 1 0).map fun now =>
    (now.setSheaf (d.issue.core / 4) { now.curSheaf with table := none },
     { flights := [(16, .table (if ea then none else some a) (if eb then none else some b)
         (if ea then e2m1Codebook else d.regs.cb[a]) (if eb then e2m1Codebook else d.regs.cb[b]))],
       press := d.pressUses true 0 15 [3, 7] })
  | .vtenc p q a => (d.vtCommand q a).map fun c => d.vtQueued p d.regs.a[a].addr.toNat c
  | .rep cnt per tstep astep => d.issue.cmd.bind fun c =>
    if repeatable c.1 = true ∧ repFits c.1 cnt.toNat astep.toNat = true then
      some (d, { flights := d.repSteps c.1, reps := [d.repBegun c cnt per tstep astep] })
    else none
  | _ => none

end Sys2Proof.Machine

/-- Press and sequencer commands spend the lease and take the press. LACQ, LREL, PLDB, PLAID, PMMA, PMMZ, PCLR, PTSC,
CBLD, KLD, LWSET, LWSTEP and VTENC, and REP beside a command that the issue names, where their checks pass, spend the
lease as their cost asks and put in flight the reads, rows, register loads and buffer changes that their rules give,
with the press resources and bank-ticks they take. REP in a bundle with its command is in
ABundleDoesWhatEachOfItsSlotsDoes. The model's choices that it rests on: the type words of headers are checked (log
entry 13), the dense form of PLDB and its Ceil(K / 4) nibbles where K is no multiple of 4 (125), and those of log
entries 15, 16, 19, 115 and 161. (R160, R161, R162, R164, R165, R166, R167, R168, R172, R173, R174, R175.) -/
def Obligations.PressCommandsSpendTheLease : Prop :=
  ∀ (s : State) (i : Instr) (now : Device) (x : Did),
    s.dev.Ready i → pressRule s.dev (s.dev.opened i) i = some (now, x) → s.dev.Clear x →
    exec i s = .next { s with dev := landCore s.dev.issue.l s.dev.issue.core s.dev.now (s.dev.afterIn now i x) }

namespace Sys2Proof.Machine

/-! ## Drains and logical tiles (R108, R110, R170, R171, R176, R177) -/

/-- What a drain converts with (R108, R170). -/
def Device.drainOf (d : Device) (ofmt : Nat) (rnd : RndSel) (sm : SatSel) (mx : Bool) (cbx : CbNum) (ctr : Nat) : DrainSpec :=
  { ofmt := ofmt, md := d.modes rnd sm, mx := mx, cb := d.regs.cb[cbx], cbx := cbx.val, ts := d.curSheaf.scale, ctr := ctr }

/-- The converted rows of a drain of `m` rows of `n` columns: element (c, r) draws the counter `ctr + n * r + c` (R108, R170). -/
def Device.drained (d : Device) (x : DrainSpec) (acc n m : Nat) : List DrainRow :=
  (List.range m).map (fun r => Machine.drainRow x.ofmt x.md x.mx x.cb x.ts (x.ctr + n * r)
    ((List.range n).map (fun c => (Assoc.get 0 d.acc (acc * 8192 + r * 256 + c)).toNat)))

/-- Felt lines written one a tick from issue + `t` on (R170, R197). -/
def feltFlights (line t : Nat) (l : List (List Byte × Flags)) : List (Nat × FlyOp) :=
  (l.zip (List.range l.length)).map (fun p => (t + p.2, .felt ((line + p.2) % 4096) (lineOf p.1.1) p.1.2))

/-- Scratchpad lines written one a tick from issue + `t` on, line `j` at `at_ j` (R170). -/
def Device.lineFlights (d : Device) (at_ : Nat → Nat) (t : Nat) (l : List (List Byte × Flags)) : List (Nat × FlyOp) :=
  (l.zip (List.range l.length)).map (fun p => (t + p.2, .storeFlags (spKey d.issue.core (d.phys (at_ p.2))) p.1.1 p.1.2))

/-- Their bank-ticks. -/
def Device.lineTicks (d : Device) (at_ : Nat → Nat) (t n : Nat) : List BankRes :=
  (List.range n).map (fun j => d.lineUse d.issue.core (t + j) 2 (d.phys (at_ j)))

/-- Whether every line of a drain lies in the partition (R229, R331). -/
def Device.linesIn (d : Device) (at_ : Nat → Nat) (n : Nat) : Bool :=
  (List.range n).all (fun j => decide (at_ j % 64 = 0) && decide (at_ j + 64 ≤ d.curLaunch.spSize))

/-- The output of a drain: nothing but an overrun for a packed block that does not fit, else the lines and the tick after
issue of the first (R170, R171). -/
structure DrainOut where
  start : Nat
  pre : List (Nat × FlyOp)
  lines : Option (List (List Byte × Flags))

/-- The output of a drain by its form: a packed one writes its block when all rows are converted, with its flags then. -/
def Device.drainOutOf (d : Device) (x : DrainSpec) (n m : Nat) (rows : List DrainRow) (pk : Bool) (res : Nat) : DrainOut :=
  let u := m * x.rowLines n
  if pk then
    let fl : Nat × FlyOp := (12 + u, .regs [] (orFlags (rows.map (fun r => orFlags r.flags))) none)
    match packedLines x.ofmt rows res with
    | .error need => { start := 12 + u, pre := [fl, (12 + u, .raise (d.ev 8 0 need (64 * res) 0 0))], lines := none }
    | .ok l => { start := 12 + u, pre := [fl], lines := some l }
  else { start := 12, pre := [], lines := some (x.lines n rows ++ x.scaleData n rows) }

/-- The bindings that a region's header makes with an output type: none where the header is empty (R170, R233). -/
def Device.headerDims (d o : Device) (h : Header) (out : Nat) : Option Dims :=
  if h.typ = 0 then some d.regs.dv
  else (passed (headerType h.typ)).bind fun _ => passed (unifyTypes o.typeWords d.regs.dv h.typ out 5)

/-- Where output line `j` of a drain into a region lies: rows at the pitch, scales after them (R158, R170). -/
def drainAddr (h : Header) (pk : Bool) (u lr m j : Nat) : Nat :=
  if pk then h.data + 64 * j
  else if j < u then h.data + 64 * h.pitch * (j / lr) + 64 * (j % lr)
  else h.data + 64 * h.pitch * m + 64 * (j - u)

/-- A drain into the felt (R170). -/
def Device.drainsFelt (d : Device) (total line : Nat) (o : DrainOut) : Did :=
  { flights := o.pre ++ feltFlights line o.start (o.lines.getD []), press := [d.pressUse 2 true 0 (total - 1)], lines := total }

/-- A drain into a region, whose header is written after its lines unless an overrun keeps them back (R170, R171, R198). -/
def Device.drainsRegion (d : Device) (total : Nat) (h : Header) (typ : Nat) (dv : Dims) (l : List Promise) (at_ : Nat → Nat)
    (o : DrainOut) : Did :=
  let ls := o.lines.getD []
  let hd : List (Nat × FlyOp) := if o.lines.isSome then [(12 + total, .header h.at_ (dbl typ))] else []
  let hu := if o.lines.isSome then [d.lineUse d.issue.core (12 + total) 2 (d.phys h.prog)] else []
  { flights := (if h.typ = 0 then [] else d.dimResults dv) ++ o.pre ++ d.lineFlights at_ o.start ls ++ hd, dims := some dv,
    uses := d.lineUse d.issue.core 0 2 (d.phys h.prog) :: d.lineTicks at_ o.start ls.length ++ hu,
    press := [d.pressUse 2 true 0 (total - 1)], promises := some l, lines := total }

/-- PDRN into a region. -/
def Device.drainInto (d o : Device) (a : ANum) (s : DrainSpec) (n m total : Nat) (pk : Bool) (res : Nat) (out : DrainOut) : Option Did :=
  let lr := s.rowLines n
  let w := s.word n m (if pk then 3 else 0)
  (d.headerAt d.regs.a[a].addr.toNat).bind fun h => (d.headerDims o h w).bind fun dv =>
  (passed (drainPitch h lr pk res)).bind fun _ => (d.promised d.cur.promises h (12 + total)).bind fun l =>
  let at_ := drainAddr h pk (m * lr) lr m
  if d.linesIn at_ (out.lines.getD []).length then some (d.drainsRegion total h w dv l at_ out) else none

/-- What PDRN does. -/
def drainOnce (d o : Device) (c : AccNum) (dst : Bool) (cb : CbNum) (r : SReg) (x : DrainX) : Option (Device × Did) :=
  let s := d.drainOf x.ofmt.toNat x.rnd x.sat x.mx cb (d.value r).toNat
  (d.spends 1 0).bind fun now => (d.slotOf c.val).bind fun acc =>
  (passed (drainRule d.regs.dv (d.accTyp acc) s.ofmt x.mx x.pk)).bind fun e =>
  let out := d.drainOutOf s e.1 e.2 (d.drained s acc e.1 e.2) x.pk x.res.toNat
  let total := e.2 * s.rowLines e.1 + (if x.pk then x.res.toNat else s.scaleLines e.1 e.2)
  (if dst then d.drainInto o (Fin.ofNat 16 (x.dest.toNat / 2 ^ 8 % 16)) s e.1 e.2 total x.pk x.res.toNat out
   else some (d.drainsFelt total x.dest.toNat out)).map fun y => (now, y)

/-! ### LTDRN -/

/-- One slot of a run, drained as a PDRN of it at issue + `t` would be: where its lines and the runs of its scales lie (R177). -/
structure DrainPart where
  t : Nat
  slot : DrainSlot
  lines : List Nat
  scales : List (Nat × Nat)

/-- The parts of a run, one after another. -/
def drainParts (s : DrainSpec) (h : Header) (n m : Nat) : Nat → List DrainSlot → List DrainPart
  | _, [] => []
  | t, x :: rest =>
    let lr := s.rowLines n
    { t := t, slot := x,
      lines := (List.range (x.m * lr)).map (fun j => h.data + 64 * h.pitch * (x.row + j / lr) + 64 * (j % lr)),
      scales := runsOf64 (h.data + 64 * h.pitch * m + n / 32 * x.row) (if s.mx then n / 32 * x.m else 0) } ::
      drainParts s h n m (t + x.m * lr + s.scaleLines n x.m) rest

/-- The action of a part: its slot and the tensor scale are read at its own time (R177). -/
def Device.partFlight (d : Device) (s : DrainSpec) (n : Nat) (p : DrainPart) : Nat × FlyOp :=
  (p.t, .drain s p.slot.acc n p.slot.row p.slot.m (p.lines.map (fun a => spKey d.issue.core (d.phys a)))
    (p.scales.map (fun q => spKey d.issue.core (d.phys q.1))))

/-- The bank-ticks of some ranges, one a tick from issue + `t` on. -/
def Device.rangeUses (d : Device) (t : Nat) (l : List (Nat × Nat)) : List BankRes :=
  ((l.zip (List.range l.length)).map (fun q => d.lineUses d.issue.core (t + q.2) 2 (spanLines (d.phys q.1.1) q.1.2))).flatten

/-- Its bank-ticks. -/
def Device.partUses (d : Device) (p : DrainPart) : List BankRes :=
  d.rangeUses (12 + p.t) (p.lines.map (fun a => (a, 64)) ++ p.scales)

/-- Whether it lies in the partition. -/
def Device.partIn (d : Device) (p : DrainPart) : Bool :=
  d.linesIn (fun j => p.lines.getD j 0) p.lines.length && p.scales.all (fun q => decide (q.1 + q.2 ≤ d.curLaunch.spSize))

/-- What LTDRN does with the run of slots that it drains. -/
def Device.drainsRun (d : Device) (s : DrainSpec) (h : Header) (n : Nat) (run : List DrainSlot) (dv : Dims) (l : List Promise) : Option Did :=
  let m := (run.map (fun y => y.m)).sum
  let total := (run.map (fun y => y.m * s.rowLines n + s.scaleLines n y.m)).sum
  let parts := drainParts s h n m 0 run
  (d.promised l h (12 + total)).bind fun l =>
  if parts.all d.partIn then
    some {
      flights := d.dimResults dv ++ parts.map (d.partFlight s n) ++ [(12 + total, .header h.at_ (dbl (s.word n m 0)))], dims := some dv,
      uses := d.lineUse d.issue.core 0 2 (d.phys h.prog) :: (parts.map d.partUses).flatten ++ [d.lineUse d.issue.core (12 + total) 2 (d.phys h.prog)],
      press := d.pressUses true 0 (total - 1) allPaths, promises := some l }
  else none

/-- What LTDRN does (R177). -/
def drainLogical (d o : Device) (c : AccNum) (a : ANum) (r : SReg) (x : LDrainX) : Option (Device × Did) :=
  let s := d.drainOf x.ofmt.toNat x.rnd x.sat x.mx x.cbx (d.value r).toNat
  (d.spends 1 0).bind fun now => (d.headerAt d.regs.a[a].addr.toNat).bind fun h =>
  (if h.typ = 0 then some d.cur.promises else d.tagKept d.cur.promises h).bind fun l =>
  (passed (wantedRows d.regs.dv h.typ)).bind fun want => (granted (drainRun o c.val none want 0 0 128)).bind fun p =>
  (passed (drainRule d.regs.dv (resultWord p.2 1) s.ofmt x.mx false)).bind fun _ =>
  (passed (logicalExtents 5 (p.2, (p.1.map (fun y => y.m)).sum, 1))).bind fun _ =>
  (d.headerDims o h (s.word p.2 (p.1.map (fun y => y.m)).sum 0)).bind fun dv =>
  (passed (drainPitch h (s.rowLines p.2) false 0)).bind fun _ => (d.drainsRun s h p.2 p.1 dv l).map fun y => (now, y)

/-! ### LTMMA -/

/-- The rows of a step of LTMMA: row `r` of A meets buffer `b` at issue + `start` + `r`, its bytes read then (R176). -/
def Device.ltRows (d : Device) (id start : Nat) (b : Bool) (x : LtOperands) (p : KPart) (z : Bool) : List (Nat × FlyOp) :=
  let key := spKey d.issue.core
  let row : ARow := { typ := dbl x.wa, k := p.k, scale0 := 0, sw := fmtWidth (tFmt x.wa), data := 0, scales := [] }
  ((List.range x.a.st.e1).map (fun r =>
    [(start + r, .streamRow b (nth x.slots (r / 32)) (r % 32) z none row (key (nth x.a.rows r + p.off)) p.len
        (key (nth x.a.scales r + p.soff)) p.slen x.cbA x.cbB),
     (start + r, .capture (id + 2 * r) (d.ranges (ltRange x p r)))])).flatten
where
  /-- The bytes of row `r` and of its scales that a step reads. -/
  ltRange (x : LtOperands) (p : KPart) (r : Nat) : List (Nat × Nat) :=
    (nth x.a.rows r + p.off, p.len) :: (if p.slen = 0 then [] else [(nth x.a.scales r + p.soff, p.slen)])

/-- Step `g` of LTMMA at its times: a load of part of B into one buffer, and the rows of A that meet it (R176). -/
def Device.ltStep (d : Device) (x : LtOperands) (id g : Nat) (t : Nat × Nat) : List (Nat × FlyOp) × List BankRes :=
  let pb := kPart x.wb x.b.st.e0 x.kn g
  let pa := kPart x.wa x.a.st.e0 x.kn g
  let b := decide (g % 2 = 1)
  let key := spKey d.issue.core
  let rows := x.b.rows.map (fun a => a + pb.off)
  let ticks := loadTicks x.b.st.e1
  let rg := loadRanges rows pb.len (x.b.scalesAt pb) pb.slen
  let f : Finish := .bufRegion b (dbl x.wb) pb.k x.b.st.e1 x.tag (rows.map key) pb.len ((x.b.scalesAt pb).map key) pb.slen
  (d.loadFlights id t.1 f ticks rg ++ d.ltRows (id + 1 + ticks) t.2 b x pa (x.z && g == 0),
   d.loadUses t.1 ticks rg ++ ((List.range x.a.st.e1).map (fun r =>
     d.lineUses d.issue.core (t.2 + r) 2 (rangesLines (ltRows.ltRange x pa r)))).flatten)

/-- The steps of LTMMA in ascending K. -/
def Device.ltAll (d : Device) (x : LtOperands) : Nat → Nat → List (Nat × Nat) → List (Nat × FlyOp) × List BankRes
  | _, _, [] => ([], [])
  | id, g, t :: rest =>
    let a := d.ltStep x id g t
    let r := d.ltAll x (id + a.1.length) (g + 1) rest
    (a.1 ++ r.1, a.2 ++ r.2)

/-- The types that LTMMA leaves its slots (R176). -/
def ltSlotMarks (z : Bool) (n m k : Nat) (slots : List Nat) : List (Nat × FlyOp) :=
  (slots.zip (List.range slots.length)).map (fun p =>
    (1, .accMark p.1 (if z then some (dbl (resultWord n (min 32 (m - 32 * p.2)))) else none) (k % 32 != 0)))

/-- The variables that two sets of bindings differ in, as results at issue + 1 (R146). -/
def dimChanges (a b : Dims) : List (Nat × FlyOp) :=
  ((List.finRange 16).filter (fun r => decide (a[r] ≠ b[r]))).map (fun r => (1, .regs [.dv r] 0 none))

/-- The accumulator slots of LTMMA, from `c` on. -/
def Device.slotsFrom (d : Device) (c : Nat) : Nat → Option (List Nat)
  | 0 => some []
  | n + 1 => (d.slotOf c).bind fun a => (d.slotsFrom (c + 1) n).map fun r => a :: r

/-- The operands of LTMMA. -/
def ltPair (ha hb : Header) (ra rb : RegionOperand) (kn : Nat) (slots : List Nat) (z : Bool) (bk : BitVec 256 × BitVec 256 × Bool) : LtOperands :=
  { wa := ha.typ, wb := hb.typ, a := ra, b := rb, kn := kn, tag := hb.tag, slots := slots, z := z, cbA := bk.1, cbB := bk.2.1 }

/-- What LTMMA does once its operands and slots are known. -/
def Device.ltRuns (d : Device) (ha hb : Header) (x : LtOperands) (times : List (Nat × Nat)) (last : Nat) (dv dw : Dims) (l : List Promise)
    (table : Bool) : Did :=
  let m := x.a.st.e1
  let pre := dimChanges d.regs.dv dv ++ dimChanges dv dw
  let r := d.ltAll x (d.seq + pre.length) 0 times
  { flights := pre ++ r.1 ++ ltSlotMarks x.z x.b.st.e1 m x.a.st.e0 x.slots, dims := some dw,
    uses := d.lineUse d.issue.core 0 2 (d.phys ha.prog) :: d.lineUse d.issue.core 0 2 (d.phys hb.prog) :: r.2,
    press := d.pressUses true 0 (last + m - 1) allPaths ++ (if table then [d.pressUse 7 false 0 (last + m - 1)] else []),
    promises := some l }

/-- What LTMMA does (R176). -/
def multiplyLogical (d o : Device) (c : AccNum) (a b : ANum) (z : Bool) : Option (Device × Did) :=
  (d.headerAt d.regs.a[a].addr.toNat).bind fun ha => (d.headerAt d.regs.a[b].addr.toNat).bind fun hb =>
  (d.tagKept d.cur.promises ha).bind fun l => (d.tagKept l hb).bind fun l =>
  (passed (ltUnify o ha hb)).bind fun dv =>
  let o' := o.setRegs { o.regs with dv := dv }
  (granted (regionOperand ha (64 * ha.pitch) 0 o')).bind fun ra => (granted (regionOperand hb (64 * hb.pitch) 0 o')).bind fun rb =>
  let kn := min (rowK (tFmt ha.typ)) (rowK (tFmt hb.typ))
  let steps := ceilDiv ra.st.e0 kn
  let times := ltTimes (loadTicks rb.st.e1) ra.st.e1 steps 0 0 0
  let last := times.getLast?.elim 0 (fun p => p.2)
  let mb := ceilDiv ra.st.e1 32
  (d.spends (steps + steps * mb) (last + 32 * (mb - 1))).bind fun now => (d.slotsFrom c.val mb).bind fun slots =>
  (if z then some dv else passed (ltAccRules o' o'.typeWords rb.st.e1 ra.st.e1 0 dv slots)).bind fun dw =>
  (d.books ha.typ hb.typ).map fun bk =>
  (now, d.ltRuns ha hb (ltPair ha hb ra rb kn slots z bk) times last dv dw l bk.2.2)

/-- What the drains and the logical-tile commands do; `o` is the device as their slot sees it. -/
def drainingRule (d o : Device) : Instr → Option (Device × Did)
  | .pdrn c dst cb r x => drainOnce d o c dst cb r x
  | .ltdrn c a r x => drainLogical d o c a r x
  | .ltmma c a b z => multiplyLogical d o c a b z
  | _ => none

end Sys2Proof.Machine

/-- PDRN, LTDRN and LTMMA run their timetables. PDRN into the felt or a region, LTDRN and LTMMA, where their checks pass,
spend the lease and put in flight the converted rows, the header writes, the buffer loads and the streamed rows of
their timetables, with their press resources and bank-ticks. The timetables rest on the model's choices of log entries
13, 14, 17, 18, 20, 115, 143, 152 and 153. (R108, R158, R170, R171, R176, R177, R198.) -/
def Obligations.DrainsAndLogicalTilesRunTheirTimetable : Prop :=
  ∀ (s : State) (i : Instr) (now : Device) (x : Did),
    s.dev.Ready i → drainingRule s.dev (s.dev.opened i) i = some (now, x) → s.dev.Clear x →
    exec i s = .next { s with dev := landCore s.dev.issue.l s.dev.issue.core s.dev.now (s.dev.afterIn now i x) }

namespace Sys2Proof.Machine

/-! ## Words, bundles and steps (R38, R43, R55 to R58, R60) -/

/-- The words of a bundle of four slots that holds one instruction and NOPs, and its template (R38, R40). -/
def bundleWords (i : Instr) : List Nat × Nat :=
  match slotExt i with
  | none => ([slotWord i, 0x3F, 0x3F, 0x8000003F], 0)
  | some e => ([slotWord i + 2 ^ 30, e, 0x3F, 0x8000003F], 2)

/-- Its slots. -/
def bundleOf (i : Instr) : Bundle :=
  let nops : List Slot := [⟨2, .nop⟩, ⟨3, .nop⟩]
  { nslots := 4, template := (bundleWords i).2, slots := if (slotExt i).isSome then ⟨0, i⟩ :: nops else ⟨0, i⟩ :: ⟨1, .nop⟩ :: nops }

/-- How a sheet's tick comes to the issue of a core: the check of its wait points was made at this tick, or it passes
now (R188). -/
def Device.tickPasses (d : Device) (l : Nat) (now : Bool) : Prop :=
  if now then (d.launch l).checked ≠ (d.launch l).tick + 1 ∧ d.sheetCheck l = .pass
  else (d.launch l).checked = (d.launch l).tick + 1

/-- The device that `exec` sees of an instruction that a step has fetched: the tick has begun to issue and the issue names
the context, the bundle and the slot. -/
def Device.fetched (d : Device) (l core : Nat) (now : Bool) (b : Bundle) (ix : Nat) : Device :=
  { readWords core (d.launch l).asid (d.ctx l core).live.pc (beginTick l now d) with issue := { Issue.idle with core := core, l := l, nslots := b.nslots, template := b.template, slot := ix } }

/-- Whether an action in flight writes no hard-wired register of a program context (R30, R31): its results are those that keep. -/
def FlyOp.keepsHardWired : FlyOp → Prop
  | .regs ws _ _ => ∀ w ∈ ws, w.keeps = true
  | .atomRet r _ => r ≠ 0 ∧ r.val < 60
  | _ => True

end Sys2Proof.Machine

/-- Decoding what the encoder writes gives the instruction back. For every instruction with a slot word whose fields are
well formed, with every operand at every value its encoding takes, the decoder reads from the word and the extension
that the encoder writes exactly that instruction: no bit of an encoding is dropped. (R38, R43, R47, R51, R52, R53,
R54, R60.) -/
def Obligations.DecodeReadsWhatEncodeWrites : Prop :=
  ∀ i : Instr, isSlot i = true → i.wf = true → decodeSlot (slotWord i) (slotExt i) = .ok i

/-- The words that the spec writes out decode to their instructions. LUI s3, #0x1_2346 is 0x8C0D2346, LOOP #4 with ENDOFF
8 is 0x3C010202, VIDOT.i8 v10, v2, v3 is 0x1D2820CB, NOP is 0x3F, and a word of major 0x3F is illegal with reason 1.
(R120, R312, R132, R57.) -/
def Obligations.SpecWordsDecodeToTheirInstructions : Prop :=
  decodeSlot 0x8C0D2346 none = .ok (.lui 3 0x12346) ∧
  decodeSlot 0x3C010202 none = .ok (.loop 4 8) ∧
  decodeSlot 0x1D2820CB none = .ok (.vidot .i8 10 2 3 { rnd := .fctl, sat := .fctl, mask := none }) ∧
  decodeSlot 0x0000003F none = .ok .nop ∧
  decodeSlot 0xBF000000 none = .error 1

/-- Four fetched words, an instruction and NOPs, are the bundle of that instruction. Wherever the four words at an address
are those of a well-formed instruction (with its extension, if it has one) followed by NOPs, the last with S = 1, the
bundle at the address is the one of four slots that holds the instruction in slot 0, with no fetch event, format fault
or illegal slot. (R38, R40, R55, R57.) -/
def Obligations.AnInstructionBetweenNopsIsItsBundle : Prop :=
  ∀ (d : Device) (core asid pc : Nat) (i : Instr), isSlot i = true → i.wf = true →
    (∀ k, k < 4 → d.fetchWord core asid (pc + 4 * k) = .ok ((bundleWords i).1.getD k 0)) →
    d.bundleAt core asid pc = .ok (bundleOf i)

/-- A step is the first step laid out for the mill tick, or the next mill tick. Where the agenda of the present mill tick
has a head, step is exec of it on the state with the head removed; where it is empty, step lays out the next mill
tick. The agenda, and its order within a mill tick, are the model's own (log entry 100): R9 and R186 say what a tick
is, and not this. (R9, R186.) -/
def Obligations.StepTakesTheHeadOfTheAgenda : Prop :=
  (∀ (s : State) (i : Instr) (t : List Instr), s.agenda = i :: t → step s = exec i { s with agenda := t }) ∧
  (∀ s : State, s.agenda = [] → step s = .next (newTick s))

/-- A step that issues a core's bundle runs the instruction decoded at its program counter. When the next step is the
issue of a core whose sheet is active and may issue, whose tick passes the check of wait points, and the bundle at its
program counter holds one instruction beside NOPs, step is exec of that instruction on the state in which the tick has
begun to issue and the issue names the context, the bundle and the slot; what comes around it (the successor, the loop
rules) is in the per-instruction statements through Device.after. (R55, R56, R188, R305.) -/
def Obligations.StepRunsTheDecodedInstruction : Prop :=
  ∀ (s : State) (t : List Instr) (core : CoreIx) (l : Nat) (now : Bool) (b : Bundle) (ix : Nat) (i : Instr),
    s.agenda = .issueBundle core :: t →
    (s.dev.sheaf (core.val / 4)).active = some l → s.dev.mayIssue l core = true → s.dev.tickPasses l now →
    (readWords core (s.dev.launch l).asid (s.dev.ctx l core).live.pc (beginTick l now s.dev)).bundleAt core (s.dev.launch l).asid (s.dev.ctx l core).live.pc = .ok b →
    (b.slots.filter (fun y => !isNop y.instr) = [⟨ix, i⟩] ∨ (i = .nop ∧ b.slots.filter (fun y => !isNop y.instr) = [])) →
    isSlot i = true → (s.dev.fetched l core now b ix).mustHold i = false →
    step s = exec i { s with agenda := t, dev := s.dev.fetched l core now b ix }

/-- Every step keeps every memory in canonical form. For every state whose scratchpads, felt, DRAM, host memory and image
window are in canonical form (addresses strictly rising, no cell equal to what an unlisted address reads as), every
step that answers a next state leaves them so: equal memories stay equal data. The form is the model's own. (R228,
R263, R197.) -/
def Obligations.EveryStepKeepsMemoriesCanonical : Prop :=
  ∀ s t : State, s.dev.memoriesWf = true → step s = .next t → t.dev.memoriesWf = true

/-- The memories at reset are in canonical form. Every memory of the reset state is in canonical form. (R407.) -/
def Obligations.ResetMemoriesAreCanonical : Prop := State.reset.dev.memoriesWf = true

/-- Reset leaves the registers at their Reset columns. After reset RCFG, VATCFG, TLCTL, CLKCTL and WOVEID read as their
Reset columns say (R384, R289, R268, R404, R346), HSIGVAL is zero, the error log is empty and the configuration store
is empty; that the mill tick is 0 before the first start is the model's choice (log entry 2). (R384, R289, R268, R404,
R346, R323, R409, R406.) -/
def Obligations.ResetLeavesTheStatedValues : Prop :=
  State.reset.dev.mill = 0 ∧ State.reset.dev.rcfg = 16 ∧ State.reset.dev.vatcfg = 0x0018141614000000 ∧
  State.reset.dev.woveid = 0xFFFF ∧ State.reset.dev.log = [] ∧ State.reset.dev.hsigval = Vector.replicate 32 0 ∧
  State.reset.dev.clkMhz = 1200 ∧ State.reset.dev.store.image = none ∧
  (∀ st, (State.reset.dev.stack st).tlctl = 0x0000084000000000)

/-- s0 reads as zero and p0 as true, and writes of them are discarded. An instruction whose destination is s0 or p0 issues
with nothing in flight; a source s0 reads as zero (ADDI rd, s0, #i writes the immediate) and a source p0 reads as true
(POR pd, p0, p0 writes true), in every state. No source reads anything else of s0 or p0, in a program or a handler; a
result put in flight for s0, s60 to s63 or p0 is the same as none; and no action in flight, when it lands, writes one
of them. (R30.) -/
def Obligations.ZeroAndTrueAreHardWired : Prop :=
  (∀ (s : State) (i : Instr) (n : Nat) (v : Dbl), s.dev.Ready i → scalarRule s.dev i = some (n, 0, v) →
    exec i s = .next { s with dev := s.dev.after i {} }) ∧
  (∀ (s : State) (i : Instr) (b : Bool), s.dev.Ready i → predicateRule s.dev i = some (0, b) →
    exec i s = .next { s with dev := s.dev.after i {} }) ∧
  (∀ (s : State) (r : SReg) (v : Imm), let x := results 1 [.s r (immSext v)] 0 none
    s.dev.Ready (.addi r 0 v) → s.dev.LandsFree x →
    exec (.addi r 0 v) s = .next { s with dev := s.dev.after (.addi r 0 v) { flights := x } }) ∧
  (∀ (s : State) (p : PNum), let x := results 1 [.p p true] 0 none
    s.dev.Ready (.por p 0 0) → s.dev.LandsFree x →
    exec (.por p 0 0) s = .next { s with dev := s.dev.after (.por p 0 0) { flights := x } }) ∧
  (∀ d : Device, d.srcS 0 = .ok 0 ∧ d.srcP 0 = true) ∧
  (∀ (d : Device) (n : Nat) (ws : List RegWrite) (fl : Flags) (vd : Option VNum), d.issue.handler = false →
    land n ws fl vd d = land n (ws.filter RegWrite.keeps) fl vd d) ∧
  (∀ (d : Device) (l core : Nat) (f : Flight), f.op.keepsHardWired → ∀ r : SReg, r = 0 ∨ 60 ≤ r.val →
    let old := (d.ctx l core).live.regs
    let new := ((perform l core f d).st.ctx l core).live.regs
    new.s[r] = old.s[r] ∧ new.p[0] = old.p[0])

namespace Sys2Proof.Machine

/-! ## Scratchpad, felt, deckle, atomics, barriers and beaters (R228 to R238, R249 to R254, R259)

An instruction that is alone in its bundle uses memory port 0 (R41). -/

/-- The address of an operand `[aN + off]` in units of `n` bytes (R230). -/
def Device.at10 (d : Device) (a : ANum) (o : BitVec 10) (n : Nat) : Nat :=
  (((d.regs.a[a].addr.toNat : Int) + o.toInt * n) % (2 ^ 64 : Nat)).toNat

/-- The physical address of `n` aligned bytes of the partition (R229, R329, R331). -/
def Device.partAddr (d : Device) (a n align : Nat) : Option Nat :=
  if a % align = 0 ∧ a + n ≤ d.curLaunch.spSize then some (d.phys a) else none

/-- The physical addresses of some ranges of the partition. -/
def Device.partAddrs (d : Device) (n align : Nat) : List Nat → Option (List Nat)
  | [] => some []
  | a :: t => (d.partAddr a n align).bind fun x => (d.partAddrs n align t).map fun r => x :: r

/-- A key of the issuing core's scratchpad. -/
def Device.key (d : Device) (a : Nat) : Nat := spKey d.issue.core a

/-- A scalar load: read at issue + 1, complete at issue + 3 (R228, R231). -/
def Device.loads (d : Device) (n : Nat) (r : SReg) (a : ANum) (o : BitVec 10) : Option Did :=
  (d.partAddr (d.at10 a o n) n n).map fun pa =>
    { flights := [(3, .finish (.scalar r (d.key pa) n)), (1, .capture d.seq [(d.key pa, n)])],
      uses := [d.lineUse d.issue.core 1 0 pa] }

/-- A scalar store, performed at issue + 2 (R228, R231). -/
def Device.stores (d : Device) (n : Nat) (r : SReg) (a : ANum) (o : BitVec 10) : Option Did :=
  (d.partAddr (d.at10 a o n) n n).map fun pa =>
    { flights := [(2, .store (d.key pa) (bytesOf n (d.value r).toNat))], uses := [d.lineUse d.issue.core 2 0 pa] }

/-- A load of eight lines into a vector register, complete at issue + 4 (R228). -/
def Device.loadsVector (d : Device) (v : VNum) (l : List Nat) : Did :=
  { flights := [(4, .finish (.vector v (l.map d.key))), (1, .capture d.seq (l.map (fun a => (d.key a, 64))))],
    uses := d.lineUses d.issue.core 1 0 l }

/-- A store of the lines of a vector register, at issue + 2 (R228). -/
def Device.storesVector (d : Device) (v : VNum) (l : List Nat) : Did :=
  { flights := (l.zip (List.range l.length)).map (fun p => (2, .store (d.key p.1) (lineBytes (vline d.regs.v[v] p.2)))),
    uses := d.lineUses d.issue.core 2 0 l }

/-- Eight lines from an address on. -/
def linesFrom (a : Nat) : List Nat := (List.range 8).map (fun q => a + 64 * q)

/-- The addresses of a strided access (R236). -/
def Device.strides (d : Device) (a : ANum) (b : SReg) : List Nat :=
  (List.range 8).map (fun (q : Nat) =>
    (((d.regs.a[a].addr.toNat : Int) + ((d.value b).setWidth 32).toInt * (q : Int)) % (2 ^ 64 : Nat)).toNat)

/-- The addresses of a gather or scatter (R237). -/
def Device.indexed (d : Device) (a : ANum) (i : VNum) (n : Nat) : List Nat :=
  (List.range (4096 / n)).map (fun k => d.regs.a[a].addr.toNat + n / 8 * velem n d.regs.v[i] k)

/-- The lines of the elements of a gather or scatter, each with its turn in its bank; none where a bank has more than four
(R237). -/
def Device.turnsOf (n : Nat) (l : List Nat) : Option (List (Nat × Nat)) :=
  let turns := bankTurns (n / 8) l
  if turns.all (fun p => decide (p.2 < 4)) then some turns else none

/-- VGTH: the k-th distinct lines of the banks are read at issue + 1 + k, and the elements land at issue + 6 (R228, R237). -/
def Device.gathers (d : Device) (v : VNum) (n : Nat) (l : List Nat) : Option Did :=
  (Device.turnsOf n l).map fun turns =>
    let now := fun (k : Nat) => (turns.filter (fun p => p.2 == k)).map (fun p => (d.key p.1, 64))
    { flights := (6, .finish (.gather v n (l.map d.key))) ::
        (((List.range 4).filter (fun k => !(now k).isEmpty)).map (fun k => (1 + k, .capture d.seq (now k)))),
      uses := turns.map (fun p => d.lineUse d.issue.core (1 + p.2) 0 p.1) }

/-- The stores of a scatter to a line: each element that touches it, in ascending order, its bytes there (R237). -/
def Device.scattersTo (d : Device) (v : VNum) (n : Nat) (l : List Nat) (turn : Nat × Nat) : List (Nat × FlyOp) :=
  ((l.zip (List.range l.length)).filter (fun p => decide (p.1 < turn.1 + 64) && decide (turn.1 < p.1 + n / 8))).map (fun p =>
    let lo := max p.1 turn.1
    (2 + turn.2, .store (d.key lo) (((bytesOf (n / 8) (velem n d.regs.v[v] p.2)).drop (lo - p.1)).take (turn.1 + 64 - lo))))

/-- VSCT: the elements of the k-th distinct lines of the banks are written at issue + 2 + k, in ascending order of element
(R228, R237). -/
def Device.scatters (d : Device) (v : VNum) (n : Nat) (l : List Nat) : Option Did :=
  (Device.turnsOf n l).map fun turns =>
    { flights := (turns.map (d.scattersTo v n l)).flatten, uses := turns.map (fun p => d.lineUse d.issue.core (2 + p.2) 0 p.1) }

/-- The rows of a type in a region, physical, and their length: of a packed block its lines (R158, R414). -/
def Device.rowsIn (d : Device) (h : Header) (dv : Dims) (w operand : Nat) : Option (List Nat × Nat) :=
  if tLayout w = 3 then
    if h.pitch ≤ 128 ∧ ((passed (extents dv w operand)).bind (fun e => passed (logicalExtents operand e))).isSome = true then
      (d.partAddrs 64 64 ((List.range h.pitch).map (fun j => h.data + 64 * j))).map fun l => (l, 64) else none
  else (passed (regionStorage dv w operand)).bind fun st =>
    if st.len ≤ 64 * h.pitch then
      (d.partAddrs st.len 64 ((List.range st.rows).map (fun j => h.data + 64 * h.pitch * j))).map fun l => (l, st.len)
    else none

/-- The bindings by which a header's type agrees with the window that holds the header (R344, R345). -/
def Device.windowDims (d o : Device) (prog w : Nat) : Option Dims :=
  match d.windowType prog with
  | some e => passed (unifyTypes o.typeWords d.regs.dv e w 5)
  | none => some d.regs.dv

/-- TLD (R232, R413): the type that lands, its storage, the rows read one a tick from issue + 1 on, the data complete four
ticks after the last. -/
def Device.loadsTileFrom (d o : Device) (r : TNum) (a : ANum) (off : BitVec 10) : Option Did :=
  (d.headerAt (d.at10 a off 64)).bind fun h => (d.tagKept d.cur.promises h).bind fun l =>
  (passed (headerType h.typ)).bind fun _ => (d.windowDims o h.prog h.typ).bind fun d1 =>
  let own := d.regs.t[r].typ.toNat
  (if own = 0 then some d1 else passed (unifyTypes o.typeWords d1 own h.typ 0)).bind fun dv =>
  let w := if own = 0 then h.typ else own
  (passed (tileStorage dv w r.val 0)).bind fun st => (d.rowsIn h dv w 5).map fun rows =>
  let pre := d.dimResults dv ++ retyped r st.pair w h.tag
  let six := if fmtWidth (tFmt w) = 6 then st.perRow (tLayout w) else 0
  { flights := pre ++
      (4 + rows.1.length, .finish (.tile r st.pair (rows.1.map d.key) rows.2 six (tLayout w == 3))) ::
        (rows.1.zip (List.range rows.1.length)).map (fun p => (1 + p.2, .capture (d.seq + pre.length) [(d.key p.1, rows.2)])),
    dims := some dv, promises := some l,
    uses := d.lineUse d.issue.core 0 0 (d.phys h.prog) ::
      ((rows.1.zip (List.range rows.1.length)).map (fun p => d.lineUses d.issue.core (1 + p.2) 0 (spanLines p.1 rows.2))).flatten }

/-- The bytes of a tile's rows as a region holds them (R158, R233, R414). -/
def rowData (t : Tile) (len n : Nat) : List (List Byte) :=
  if tLayout t.typ = 3 then (List.range n).map (fun j => bytesOf 64 (elemAt 512 t.lo.toNat j))
  else (List.range n).map (regionRow t len)

/-- TST (R233): rows written one a tick from issue + 4 on, then the header's type and tag. -/
def Device.storesTileTo (d o : Device) (r : TNum) (a : ANum) (off : BitVec 10) : Option Did :=
  (d.headerAt (d.at10 a off 64)).bind fun h =>
  (if h.typ = 0 then some d.regs.dv
   else (passed (headerType h.typ)).bind fun _ => passed (unifyTypes o.typeWords d.regs.dv h.typ d.regs.t[r].typ.toNat 5)).bind fun dv =>
  (passed (d.tileWith dv r 1)).bind fun src =>
  (passed (headerType (constExts dv src.typ 0 (tRank src.typ)))).bind fun _ => (d.rowsIn h dv src.typ 1).map fun rows =>
  let m := rows.1.length
  let data := (rows.1.zip (rowData src rows.2 m)).zip (List.range m)
  { flights := d.dimResults dv ++ data.map (fun p => (4 + p.2, .store (d.key p.1.1) p.1.2)) ++
      [(4 + m, .header h.at_ (dbl (constExts dv src.typ 0 (tRank src.typ))))],
    dims := some dv,
    uses := d.lineUse d.issue.core 0 0 (d.phys h.prog) ::
      (data.map (fun p => d.lineUses d.issue.core (4 + p.2) 0 (spanLines p.1.1 p.1.2.length))).flatten ++
      [d.lineUse d.issue.core (4 + m) 0 (d.phys h.prog)] }

/-- FLRD (R234): the line's bytes into their segment at issue + 4, where its stamp has come. -/
def Device.readsFelt (d : Device) (v : VNum) (j : Nat) : Option Did :=
  match Assoc.get none d.curSheaf.stamps j with
  | some u =>
    if u ≤ d.now then
      let x := ofBytes (Memory.readBytes d.felt (feltKey (d.issue.core / 4) j) 64)
      some { flights := results 4 [.v v (64 * (j % 8)) 64 (BitVec.ofNat 4096 (x * 2 ^ (512 * (j % 8))))] 0 none }
    else none
  | none => none

/-- Whether a lane's position is free at issue + 1 (R196). -/
def Device.laneFree (d : Device) (lane station : Nat) : Bool :=
  (d.curSheaf.laneValue lane station (d.now + 1)).isNone &&
    (List.range 4).all (fun c => !plansPut (d.ctx d.issue.l (d.issue.core / 4 * 4 + c)) lane station (d.now + 1))

/-- A barrier object or unit of the partition of a launch on a core (R331). -/
def objectAt (x : Launch) (core a n : Nat) : Option Nat := if a % n = 0 ∧ a + n ≤ x.spSize then some (x.spPhys core a) else none

/-- The core that a BSIG signals (R253). -/
def Device.signalCore (d : Device) (sc : SReg) (c : Bool) : Nat := if c then (d.value sc).toNat % 1024 else d.issue.core

/-- BSIG (R253): timed in the sheaf, through free bank-ticks in the sheet, a buffered effect outside it; on a core that it
names it reaches the resident context of the lowest slot (R343). -/
def Device.signals1 (d : Device) (a : ANum) (v sc : SReg) (c : Bool) : Option Did :=
  let x := if v = 0 then 1 else (d.value v).toNat
  let core := d.signalCore sc c
  (if c then d.residentOn d.curLaunch.asid core else some d.issue.l).bind fun l =>
  (objectAt (d.launch l) core d.regs.a[a].addr.toNat 8).map fun pa =>
    if core / 4 = d.issue.core / 4 then
      { flights := [(2, .signal (spKey core pa) x)], uses := [d.lineUse core 2 (if core = d.issue.core then 0 else 2) pa] }
    else if d.curLaunch.hasCore core = true then { flights := [(32, .crossSignal (ctxKey l core) (spKey core pa) x)] }
    else { store := [d.entry 0 0 0 [] (.signal (ctxKey l core) (spKey core pa) x)], effects := 1, more := 1 }

/-- SATOM (R248, R249, R343). -/
def Device.atomic (d : Device) (a : ANum) (r : SReg) (op : AtomOp) (w : Bool) (cis : BitVec 2) : Option Did :=
  let n := if w then 8 else 4
  let core := d.issue.core / 4 * 4 + cis.toNat
  let c := if op = .cas then d.value (Fin.ofNat 64 (r.val + 1)) else 0
  (d.residentOn d.curLaunch.asid core).bind fun l =>
  (objectAt (d.launch l) core d.regs.a[a].addr.toNat n).map fun pa =>
    { flights := [(5, .finish (.scalar r (spKey core pa) n)), (3, .satom d.seq op (spKey core pa) n (d.value r) c)],
      uses := [d.lineUse core 3 2 pa] }

/-- The ticks of a beater's transform of `n` lines (R259). -/
def beatTicks : Xfm → Nat → Nat
  | .tr16, _ => 66
  | .zero, n => n
  | .fill, n => n
  | .addcI32, n => n
  | .swp16, n => n
  | _, n => 2 * n

/-- BXFM (R259): the bank is occupied from issue + 2 for the transform's ticks, and the lines change at the last of them. -/
def Device.beats (d : Device) (a : ANum) (op : Xfm) (v : SReg) (cnt : BitVec 4) : Option Did :=
  let base := d.regs.a[a].addr.toNat
  let n := if op = .tr16 then 32 else cnt.toNat + 1
  let t := beatTicks op n
  (d.partAddrs 64 64 ((List.range n).map (fun q => base + 2048 * q))).map fun l =>
    { flights := [(1 + t, .beat op (l.map d.key) (d.value v))], uses := [d.bankUse d.issue.core (bankOf base) 2 (1 + t) 4] }

/-- What the memory instructions do; `o` is the device as their slot sees it. -/
def memoryRule (d o : Device) : Instr → Option Did
  | .ldb r a off => d.loads 1 r a off
  | .ldh r a off => d.loads 2 r a off
  | .ldw r a off => d.loads 4 r a off
  | .ldd r a off => d.loads 8 r a off
  | .stb r a off => d.stores 1 r a off
  | .sth r a off => d.stores 2 r a off
  | .stw r a off => d.stores 4 r a off
  | .std r a off => d.stores 8 r a off
  | .vld v a off => (d.partAddr (d.at10 a off 64) 512 64).map fun pa => d.loadsVector v (linesFrom pa)
  | .vst v a off => (d.partAddr (d.at10 a off 64) 512 64).map fun pa => d.storesVector v (linesFrom pa)
  | .tld r a off => d.loadsTileFrom o r a off
  | .tst r a off => d.storesTileTo o r a off
  | .flrd v a off => d.readsFelt v (d.at10 a off 1 % 4096)
  | .vlds v a b => (d.partAddrs 64 64 (d.strides a b)).map fun l => d.loadsVector v l
  | .vsts v a b => (d.partAddrs 64 64 (d.strides a b)).map fun l => d.storesVector v l
  | .vgth v a i w =>
    let n := if w = .w16 then 16 else 32
    (d.partAddrs (n / 8) 1 (d.indexed a i n)).bind fun l => d.gathers v n l
  | .vsct v a i w =>
    let n := if w = .w16 then 16 else 32
    (d.partAddrs (n / 8) 1 (d.indexed a i n)).bind fun l => d.scatters v n l
  | .dkput l v seg =>
    let st := 2 * (d.issue.core % 4) + 1
    if d.laneFree l.toNat st = true then some { flights := [(1, .put l.toNat st (some (vline d.regs.v[v] seg.toNat)) 0)] } else none
  | .dkputSp l a =>
    let st := 2 * (d.issue.core % 4)
    (d.partAddr d.regs.a[a].addr.toNat 64 64).bind fun pa =>
      if d.laneFree l.toNat st = true then
        some { flights := [(1, .put l.toNat st none (d.key pa))], uses := [d.lineUse d.issue.core 1 2 pa] }
      else none
  | .dktake l v seg =>
    some { flights := [(2, .finish (.segment v seg.toNat)), (1, .take l.toNat (2 * (d.issue.core % 4) + 1) d.seq)] }
  | .dktakeSp l a => (d.partAddr d.regs.a[a].addr.toNat 64 64).map fun pa =>
    { flights := [(1, .takeSp l.toNat (2 * (d.issue.core % 4)) (d.key pa))], uses := [d.lineUse d.issue.core 2 2 pa] }
  | .satom a r op w cis => d.atomic a r op w cis
  | .binit a v => (d.partAddr d.regs.a[a].addr.toNat 8 8).map fun pa =>
    { flights := [(2, .store (d.key pa) (bytesOf 8 ((d.value v).toNat % 2 ^ 32 * 2 ^ 32)))], uses := [d.lineUse d.issue.core 2 0 pa] }
  | .bsig a v sc c => d.signals1 a v sc c
  | .bwait a bare keep =>
    if bare then some {}
    else (d.partAddr d.regs.a[a].addr.toNat 8 8).map fun pa =>
      if keep then {} else { flights := [(1, .consume (d.key pa))], uses := [d.lineUse d.issue.core 1 0 pa] }
  | .bxfm a op v cnt => d.beats a op v cnt
  | _ => none

/-- The fence marks of a ream (R221, R251). -/
def fenceBit : FenceKind → Nat
  | .dev => 1
  | .sys => 2
  | .ap => 4

/-- The device with a fence marked on the issuing sheet's ream. -/
def Device.fenced (d : Device) (k : FenceKind) : Device :=
  d.setLaunch d.issue.l { d.curLaunch with fences := d.curLaunch.fences ||| fenceBit k }

end Sys2Proof.Machine

/-- Loads, stores, deckle taps, atomics, barriers and beaters run their accesses. LDB to LDD, STB to STD, VLD, VST, TLD,
TST, FLRD, VLDS, VSTS, VGTH, VSCT, DKPUT, DKTAKE, SATOM, BINIT, BSIG, BWAIT and BXFM, where their addresses are
aligned and lie in the partition and their checks pass, put in flight exactly the reads, writes and results that their
rules give, at the physical address that the operand computes and at the ticks of R228, with the bank-ticks they take.
What a store leaves when it lands is in AStoreLandsItsBytesAlone. (R228, R229, R231, R234, R236, R237, R196, R248,
R252, R253, R254, R259.) -/
def Obligations.MemoryInstructionsRunTheirAccesses : Prop :=
  ∀ (s : State) (i : Instr) (x : Did),
    s.dev.Ready i → memoryRule s.dev (s.dev.opened i) i = some x → s.dev.Clear x →
    exec i s = .next { s with dev := s.dev.after i x }

/-- FENCE marks its ream. FENCE.dev, FENCE.sys and FENCE.ap issue and leave their mark on the ream of the issuing sheet;
they put nothing in flight and occupy nothing. (R251, R221.) -/
def Obligations.FenceMarksItsReam : Prop :=
  ∀ (s : State) (k : FenceKind), s.dev.Ready (.fence k) →
    exec (.fence k) s = .next { s with dev := s.dev.afterIn (s.dev.fenced k) (.fence k) {} }

namespace Sys2Proof.Machine

/-! ## Copies, global atomics, sends, all-reduces and migrations (R239 to R250, R256 to R260)

`o` is the device as the instruction's slot sees it. -/

/-- Some virtual addresses translated, and the device with the TLB entries that they use marked as used (R243). -/
def Device.translated (d : Device) (peers : Bool) (x : Rights) (l : List Nat) : Option (List (Nat × GAddr) × Device) :=
  granted (translateAll peers x l d)

/-- A copy's record as its two passes leave it (R242). -/
def planOf (k : CopyKind) (a : ANum) (so dof : SReg) (o : Device) : Option CopyPlan := (granted (checkCopy k a so dof o)).map fun p => p.1

/-- The bank-ticks of a record and of the header it names, read at issue by port 0. -/
def Device.recordUses (d : Device) (p : CopyPlan) : List BankRes :=
  d.lineUse d.issue.core 0 0 (d.phys p.recAt) ::
    (p.hdr.map (fun h => d.lineUse p.dstCore 0 0 (h.at_ - spKey p.dstCore 0))).toList

/-- The bindings that a copy into a region makes, none without a header (R242). -/
def Device.copyDims (o : Device) (p : CopyPlan) : Option (Option Dims) :=
  match p.hdr with
  | none => some none
  | some h => (passed (copyRule o h p.spec.typ.toNat)).map some

/-- The results of bindings. -/
def Device.boundBy (d : Device) (dv : Option Dims) : List (Nat × FlyOp) := dv.elim [] d.dimResults

/-- The reads of a scratchpad source at issue + 1 + row, for the action numbered `id` (R244, R246). -/
def sourceFlights (id : Nat) (l : List (Nat × Nat × Nat)) : List (Nat × FlyOp) := l.map (fun (x : Nat × Nat × Nat) => (1 + x.1, .capture id [x.2]))

/-- Their bank-ticks, as timed-copy accesses of the source core (R201). -/
def Device.sourceUses (d : Device) (core : Nat) (l : List (Nat × Nat × Nat)) : List BankRes :=
  (l.map (fun x => d.lineUses core (1 + x.1) 3 (spanLines (x.2.1 - spKey core 0) x.2.2))).flatten

/-- The lines of a global source (R243). -/
def sourceLines (c : CopySpec) : List Nat := if c.fromSp then [] else globalLines (c.reads.map (fun x => (x.2.1, x.2.2)))

/-- Whether issue + `n` lies in the ream of issue. -/
def Device.inReam (d : Device) (n : Nat) : Bool := decide ((d.now + n) / d.curLaunch.ream = d.now / d.curLaunch.ream)

/-- The tick after issue at which row `r` of a timed copy lands (R244). -/
def rowTick (c : CopySpec) (r : Nat) : Nat := c.arrive - c.nr + r

/-- CPY: what it puts in flight and occupies (R244). -/
def Device.copies1 (d : Device) (p : CopyPlan) (dv : Option Dims) (l : Option (List Promise)) : Did :=
  let c := p.spec
  let pre := d.boundBy dv
  { skip := 1, dims := dv, promises := l,
    flights := pre ++
      (if c.fromSp = true then (1 + c.we1, .finish (.copyWindow d.seq)) :: sourceFlights (d.seq + 1 + pre.length) c.reads else []) ++
      (List.range c.nr).map (fun r => (rowTick c r, .copyRow d.seq r)) ++ [(c.arrive, .copyEnd d.seq)],
    uses := d.recordUses p ++ (if c.fromSp = true then d.sourceUses p.srcCore c.reads else []) ++
      ((List.range c.nr).map (fun r =>
        d.lineUses p.dstCore (rowTick c r) 3 (spanLines ((c.rowRange r).1 - spKey p.dstCore 0) (c.rowRange r).2))).flatten ++
      (p.hdr.map (fun h => d.lineUse p.dstCore c.arrive 3 (h.at_ - spKey p.dstCore 0))).toList }

/-- The copy that a CPY starts. -/
def Device.startsCopy (d : Device) (p : CopyPlan) (pages : List (Nat × GAddr)) (bound : List Bound) : Copy :=
  { key := ctxKey d.issue.l d.issue.core, pages := pagesOf pages, stack := p.spec.field 405 3, issued := d.now, mill := d.mill,
    until_ := d.now + p.spec.arrive, spec := p.spec, md := d.copyModes p.spec,
    lines := bound.map (fun b => (b.1, b.2.1, b.2.2, none)), window := [], dstCore := p.dstCore, pc := d.live.pc }

/-- The requests of the lines of a copy under way to their stack's controller (R272). -/
def Device.requested (d : Device) (q : Nat) (bound : List Bound) : Device :=
  let x := d.stack q
  d.setStack q { x with claims := x.claims ++ (bound.zip (List.range bound.length)).map (fun b =>
    { word := b.1.2.2, copy := d.seq, line := b.2, loc := b.1.2.1, mill := d.mill + crossing d.issue.core q }) }

/-- The device with the copy begun. -/
def Device.withCopy (d now : Device) (p : CopyPlan) (pages : List (Nat × GAddr)) (bound : List Bound) : Device :=
  let t := if p.spec.fromSp then now else now.requested (p.spec.field 405 3) bound
  { t with copies := Assoc.set none d.copies d.seq (some (d.startsCopy p pages bound)) }

/-- CPY (R244). -/
def copyOnce (d o : Device) (a : ANum) (so dof : SReg) : Option (Device × Did) :=
  (planOf .timed a so dof o).bind fun p =>
  let c := p.spec
  if d.inReam c.arrive = false then none
  else (Device.copyDims o p).bind fun dv =>
  (match p.hdr with
    | some h => (d.promised d.cur.promises h c.arrive).map some
    | none => some none).bind fun l =>
  (d.translated false rightsR (sourceLines c)).bind fun t =>
  (if c.fromSp = true then some ([] : List Bound) else granted (bindCopy c t.1 o)).map fun bound =>
  (d.withCopy t.2 p t.1 bound, d.copies1 p dv l)

/-- CPYW (R246). -/
def copyWrite (d o : Device) (a : ANum) (so dof : SReg) : Option (Device × Did) :=
  (planOf .buffered a so dof o).bind fun p =>
  let c := p.spec
  if d.inReam (1 + c.we1) = false then none
  else (d.translated false rightsW (globalLines c.writes)).map fun t =>
  (t.2,
    { skip := 1, store := [d.entry 0 (chargeOf t.1) (1 + c.we1) (pagesOf t.1) (.write c (d.copyModes c) t.1 none)],
      charge := chargeOf t.1, effects := 1,
      flights := (1 + c.we1, .convert d.seq) :: sourceFlights (d.seq + 1) c.reads,
      uses := d.recordUses p ++ d.sourceUses p.srcCore c.reads })

/-- The untimed copy that a CPYU starts; `due` is a free value (R202). -/
def Device.startsUntimed (d : Device) (p : CopyPlan) (src dst : List (Nat × GAddr)) (bar : Nat) : UCopy :=
  let c := p.spec
  let side := fun (sp : Bool) (l core : Nat) => if sp then some (ctxKey l core, (d.launch l).gen) else none
  { key := ctxKey d.issue.l d.issue.core, asid := d.curLaunch.asid, started := !c.global, stopped := false, issued := d.now, spec := c,
    todo := c.pieces, srcPages := src, dstPages := dst, got := [], srcCtx := side c.fromSp p.srcL p.srcCore,
    dstCtx := side (!c.global) p.dstL p.dstCore, bar := spKey d.issue.core bar, due := d.mill + 1 + Config.engineDelay d.fresh,
    failed := false, gone := false, header := p.hdr.map (fun h => h.at_) }

/-- CPYU (R245): it starts at once to a scratchpad, and enters the store buffer to global memory. -/
def copyUntimed (d o : Device) (a : ANum) (so dof : SReg) : Option (Device × Did) :=
  (planOf .untimed a so dof o).bind fun p =>
  let c := p.spec
  (d.partAddr (c.field 448 32) 8 8).bind fun bar => (Device.copyDims o p).bind fun dv =>
  (d.translated true rightsR (sourceLines c)).bind fun t =>
  (t.2.translated true rightsW (if c.global then globalLines c.writes else [])).map fun w =>
  let pre := d.boundBy dv
  ({ w.2 with fresh := d.fresh + 1, ucopies := Assoc.set none d.ucopies d.seq (some (d.startsUntimed p t.1 w.1 bar)) },
    if c.global = true then
      { skip := 1, dims := dv, flights := pre, uses := d.recordUses p, more := 1, charge := chargeOf w.1, effects := 1,
        store := [d.entry (1 + pre.length) (chargeOf w.1) 0 (pagesOf (t.1 ++ w.1)) (.copy d.seq)] }
    else { skip := 1, dims := dv, flights := pre, uses := d.recordUses p })

/-- GATOM (R250): the operands are captured and the unit translated at issue. -/
def globalAtomic (d : Device) (r a : SReg) (op : AtomOp) (w rt : Bool) : Option (Device × Did) :=
  let va := (d.value a).toNat % 2 ^ 48
  let n := if w then 8 else 4
  let c := if op = .cas then d.value (Fin.ofNat 64 (r.val + 1)) else 0
  let clash := rt && decide (r ≠ 0) && decide (r.val < 60) && (sameReturn r d.live.store).isSome
  if va % n ≠ 0 ∨ clash = true then none
  else (d.translated false rightsRw [va]).bind fun t => t.1.head?.map fun g =>
  (t.2,
    { store := [d.entry 0 (chargeOf [g]) 0 [va / 65536] (.gatom g.2 n op (d.value r) c (if rt then some r else none))],
      charge := chargeOf [g], effects := 1, more := 1 })

/-- FSEND (R256): a buffered send of a tile's rows, or of a vector with the type word beside the descriptor. -/
def sendsFrame (d : Device) (v : Bool) (r : BitVec 6) (q : SReg) : Option Did :=
  let x := (d.value q).toNat
  let word := (d.value (Fin.ofNat 64 (q.val + 1))).toNat
  if x / 2 ^ 24 ≠ 0 then none
  else (if v then (passed (vectorWord d.regs.dv word)).map fun _ => (word, [d.regs.v[vnum r.toNat]])
        else (d.sourceTile (tnum r.toNat)).map fun t => (t.typ, sentRows t)).bind fun y =>
  (d.routeTo (x % 65536)).map fun _ =>
  { store := [d.entry 0 0 0 [] (.send
      { dest := BitVec.ofNat 16 x, src := 0, ptag := 0, hops := 0, win := BitVec.ofNat 8 (x / 65536 % 256),
        typ := dbl (constExts d.regs.dv y.1 0 (tRank y.1)), rows := y.2 })], effects := 1, more := 1 }

/-- The bits of an aligned record of 32 bytes of the partition. -/
def Device.record32 (d : Device) (a : Nat) : Option (BitVec 256) :=
  (d.partAddr a 32 32).map fun pa => BitVec.ofNat 256 (ofBytes (d.spRead d.issue.core pa 32))

/-- FRED (R258): the contribution's lines are read one a tick from issue + 1 on and buffered. -/
def allReduce (d : Device) (a : ANum) : Option Did :=
  let at_ := d.regs.a[a].addr.toNat
  (d.record32 at_).bind fun b =>
  if (firstBad (fredFields b)).isNone && (firstBad (fredRanges b d.curLaunch)).isNone &&
      d.groupOk d.curLaunch.asid (fredField b 112 8) then
    let n := fredField b 96 16
    let src := d.phys (fredField b 0 32)
    some {
      skip := 1, store := [d.entry 0 0 0 [] (.fred (d.key (d.phys at_)) b none)], effects := 1,
      flights := (1 + n / 64, .fredData d.seq (d.key src) n) ::
        (List.range (n / 64)).map (fun q => (1 + q, .capture (d.seq + 1) [(d.key (src + 64 * q), 64)])),
      uses := d.lineUse d.issue.core 0 0 (d.phys at_) :: (List.range (n / 64)).map (fun q => d.lineUse d.issue.core (1 + q) 0 (src + 64 * q)) }
  else none

/-- MIGR (R260): the migration is under way from issue on; when it first acts is a free value (R202). -/
def migrates (d o : Device) (a : ANum) : Option (Device × Did) :=
  let at_ := d.regs.a[a].addr.toNat
  (d.record32 at_).bind fun b => (d.partAddr (fredField b 96 32) 8 8).bind fun bar =>
  (granted (migrPages (fredField b 0 48) o (fredField b 80 16))).map fun _ =>
  let m : Migr :=
    { key := ctxKey d.issue.l d.issue.core, asid := d.curLaunch.asid, at_ := d.key (d.phys at_), va := fredField b 0 48,
      left := fredField b 80 16, deadline := fredField b 128 64, bar := d.key bar, status := 0,
      due := d.mill + 1 + Config.engineDelay d.fresh, stage := 0 }
  ({ d with fresh := d.fresh + 1, migrs := Assoc.set none d.migrs d.seq (some m) },
    { more := 1, uses := [d.lineUse d.issue.core 0 0 (d.phys at_)] })

/-- What the copies and the instructions of the links do. -/
def linkRule (d o : Device) : Instr → Option (Device × Did)
  | .cpy a so dof => copyOnce d o a so dof
  | .cpyu a so dof => copyUntimed d o a so dof
  | .cpyw a so dof => copyWrite d o a so dof
  | .gatom r a op w rt => globalAtomic d r a op w rt
  | .fsend v r q => (sendsFrame d v r q).map fun x => (d, x)
  | .fred a => (allReduce d a).map fun x => (d, x)
  | .migr a => migrates d o a
  | _ => none

end Sys2Proof.Machine

/-- Copies, global atomics, sends, all-reduces and migrations begin at issue as their rules give. CPY, CPYU, CPYW, GATOM,
FSEND, FRED and MIGR, where their record passes both passes, their addresses are translated and their checks pass,
issue with exactly the reads, arrivals and conversions in flight, the buffered effect with its charge, the bank-ticks,
the promise, the timeline requests and the copy, untimed copy or migration begun that their rules give. When an
untimed engine first acts is a free value (log entry 4). The model's choices that it rests on: FRED may read past the
end of its ream (log entry 42), MIGR checks no reserved field of its record (43), a word may be claimed at every
position from issue to issue + ARRIVE (38), the order of a copy's checks (39), and the numbers of copies and actions
(119). (R239, R242, R243, R244, R245, R246, R247, R250, R256, R258, R260, R272.) -/
def Obligations.CopiesAndLinksBeginAtIssue : Prop :=
  ∀ (s : State) (i : Instr) (now : Device) (x : Did),
    s.dev.Ready i → i.wf = true → linkRule s.dev (s.dev.opened i) i = some (now, x) → s.dev.Clear x →
    exec i s = .next { s with dev := s.dev.afterIn now i x }

namespace Sys2Proof.Machine

/-! ## The registers that MFSR and MTSR name (R14, R93, R94, R226, R296, R298, R300, R329, R330, R384, R388, R392) -/

/-- A lease as LEASE shows it at the end of tick `u` (R298, log entry 95). -/
def leaseShown (x : Lease) (u : Nat) : Nat :=
  match x.holder with
  | some c => if u + 1 < x.free then (x.term - u) % 2 ^ 13 + 2 ^ 20 * (x.cmds % 2 ^ 7) + 2 ^ 27 * x.ptr.val + 2 ^ 29 * c.val + 2 ^ 31
    else 2 ^ 27 * x.ptr.val
  | none => 2 ^ 27 * x.ptr.val

/-- A word of the record of the event that the handler of the issuing context serves (R388). -/
def Device.trapWord (d : Device) (k : Nat) : Dbl :=
  d.cur.handler.elim 0 (fun h => BitVec.ofNat 64 (h.record.toNat / 2 ^ (64 * k)))

/-- The value of a special register of the issuing context (R392). -/
def Device.selector (d : Device) (sel : Nat) : Option Dbl :=
  let c := d.cur
  let x := d.curLaunch
  let core := d.issue.core
  let y := x.seat core
  if sel = 0x00 then some (dbl (core + 2 ^ 10 * (core % 4) + 2 ^ 12 * (core / 4 % 20) + 2 ^ 17 * (core / 80) + 2 ^ 20 * (core / 4)))
  else if sel = 0x01 then some (dbl d.mill)
  else if sel = 0x02 then some (dbl d.now)
  else if sel = 0x03 then some (dbl x.ream)
  else if sel = 0x04 then some (c.live.regs.fctl.setWidth 64)
  else if sel = 0x05 then some (c.live.regs.fstat.setWidth 64)
  else if sel = 0x06 then some c.live.regs.hkey
  else if sel = 0x07 then some (dbl (c.live.budget % 2 ^ 23 + 2 ^ 23 * (c.live.effects % 2 ^ 9)))
  else if sel = 0x08 then some (dbl (leaseShown d.curSheaf.leaseSeen (d.now - 1)))
  else if sel = 0x09 then some (c.slip.setWidth 64)
  else if sel = 0x0A then some (dbl (x.replays % 2 ^ 24 + 2 ^ 24 * (x.replaysCur % 2 ^ 8)))
  else if sel = 0x0B then some (c.live.regs.mmrev.setWidth 64)
  else if sel = 0x0C then some (dbl (y.slotNo % 4 + 4 * bitOf x.streamed + 2 ^ 16 * (d.issue.l % 512)))
  else if sel = 0x0D then some (c.dirty.setWidth 64)
  else if sel = 0x0E then some (dbl x.asid)
  else if sel = 0x0F then some (dbl (y.spBase / 65536 % 32 + 2 ^ 8 * (x.field 255 6)))
  else if sel = 0x10 then some (dbl (y.accBase % 128 + 2 ^ 8 * x.accn))
  else if sel = 0x11 then some (d.trapWord 0)
  else if sel = 0x12 then some (d.trapWord 3)
  else if sel = 0x13 then some (d.trapWord 2)
  else if 0x14 ≤ sel ∧ sel ≤ 0x17 then some (d.trapWord (sel - 0x10))
  else if sel = 0x40 then some 0
  else if 0x40 < sel ∧ sel < 0x7C then some (c.live.regs.s[Fin.ofNat 64 (sel - 0x40)])
  else if 0x7C ≤ sel ∧ sel ≤ 0x7F then some ((c.queues[Fin.ofNat 4 (sel - 0x7C)]).headD 0)
  else none

/-- What MTSR leaves in a special register of the issuing context, reserved bits left out; none where the value is discarded
(R93, R94, R226, R392). -/
def Device.selectorWrite (d : Device) (sel : Nat) (v : Dbl) : Option RegWrite :=
  if sel = 0x04 then some (.fctl (v.setWidth 32 &&& (if v.toNat % 4 = 3 then 0x1F3C else 0x1F3F)))
  else if sel = 0x05 then some (.fstat (v.setWidth 32 &&& 0x1F))
  else if sel = 0x06 then some (.hkey v)
  else if sel = 0x0B then
    some (.mmrev ((if v.toNat % 256 = 1 ∨ v.toNat % 256 = 2 then v.setWidth 32 &&& 0xFF else d.regs.mmrev &&& 0xFF) |||
      (v.setWidth 32 &&& 0x100)))
  else if 0x40 < sel ∧ sel < 0x7C then some (.s (Fin.ofNat 64 (sel - 0x40)) v)
  else none

end Sys2Proof.Machine

/-- MFSR reads the register that its selector names. For every selector that a program context may read (0 to 0x0A, and to
0x10 in address space 0), MFSR puts in flight the value that the selector table and the field tables give: CORE_ID,
MILL, SHEET_TICK, REAMLEN, FCTL, FSTAT, HKEY, BUDGET, LEASE, SLIP, REPLAYS, MMREV, CTXID, DIRTY, ASID, SPBOUND and
ACCBOUND. LEASE.TICKS after LREL is the model's choice (log entry 95). (R392, R14, R93, R94, R226, R296, R298, R300,
R329, R330, R384.) -/
def Obligations.SelectorsReadTheirRegisters : Prop :=
  ∀ (s : State) (r : SReg) (sr : BitVec 8) (v : Dbl), let x := results 1 [.s r v] 0 none
    s.dev.Ready (.mfsr r sr) → (sr.toNat ≤ 0x0A ∨ (sr.toNat ≤ 0x10 ∧ s.dev.curLaunch.asid = 0)) → s.dev.selector sr.toNat = some v →
    s.dev.LandsFree x → exec (.mfsr r sr) s = .next { s with dev := s.dev.after (.mfsr r sr) { flights := x } }

namespace Sys2Proof.Machine

/-! ## Events, the handler context and aborts (R193, R377, R387, R388, R391, R393) -/

/-- The device with the handler of the issuing context gone on to a later bundle at the next mill tick (R387). -/
def Device.handlerGoesOn (d : Device) (c : Ctx) (h : Handler) (pc : Nat) : Device :=
  { d.setCtx d.issue.l d.issue.core { c with handler := some { h with pc := pc, next := d.mill + 1 } } with issue := Issue.idle }

/-- The address of the bundle after the issuing handler bundle. -/
def Device.afterHandler (d : Device) : Nat := d.issue.pc + 4 * d.issue.nslots

/-- The device as the scalar instructions of the handler context read it (R387): hs0 to hs15 as the scalars, the handler's
own predicates, and the handler bundle's address. -/
def Device.asHandler (d : Device) : Device :=
  let v := d.live
  d.setLive { v with pc := d.issue.pc, regs := { v.regs with
    s := Vector.ofFn (fun k => if k.val < 16 then d.cur.hs[Fin.ofNat 16 k.val] else 0), p := d.cur.hp } }

/-- The latency, register and value of an instruction that writes one scalar register, in the handler context: the rules are
those of a program, and MFSR, MONRD and ERRPOP may issue in any address space, every selector readable (R387, R391, R392). -/
def handlerScalar (d : Device) : Instr → Option (Nat × SReg × Dbl)
  | .mfsr r sr => (d.selector sr.toNat).map fun v => (1, r, v)
  | .monrd r a => some (4, r, Assoc.get 0 d.monval ((d.asHandler.value a).toNat % 2048))
  | .errpop r w false => some (1, r, d.log.head?.elim 0 (fun x => dbl (recField x (64 * w.toNat) 64)))
  | i => scalarRule d.asHandler i

/-- What the handler's other instructions do: the write in flight to the next mill tick, and the handler's next bundle (R387,
R392). -/
def handlerControl (d : Device) : Instr → Option (Option RegWrite × Nat)
  | .nop => some (none, d.afterHandler)
  | .cmp c p a b => some (if p = 0 then none else some (.hp p (compared c (d.asHandler.value a) (d.asHandler.value b))), d.afterHandler)
  | .cmpi c p a i => some (if p = 0 then none else some (.hp p (compared c (d.asHandler.value a) (immSext i))), d.afterHandler)
  | .pand p a b => some (if p = 0 then none else some (.hp p (d.asHandler.flag a && d.asHandler.flag b)), d.afterHandler)
  | .por p a b => some (if p = 0 then none else some (.hp p (d.asHandler.flag a || d.asHandler.flag b)), d.afterHandler)
  | .pnot p a => some (if p = 0 then none else some (.hp p (!d.asHandler.flag a)), d.afterHandler)
  | .jmp o => some (none, d.asHandler.hop o.toInt)
  | .br a o => some (none, if d.asHandler.value a = 0 then d.afterHandler else d.asHandler.hop o.toInt)
  | .brp inv p o => some (none, if d.asHandler.flag p = inv then d.afterHandler else d.asHandler.hop o.toInt)
  | .mtsr a sr =>
    if (4 ≤ sr.toNat ∧ sr.toNat ≤ 6) ∨ sr.toNat = 0x0B ∨ (0x40 ≤ sr.toNat ∧ sr.toNat ≤ 0x7F) then
      some (d.selectorWrite sr.toNat (d.asHandler.value a), d.afterHandler)
    else none
  | _ => none

/-- Whether no write of the handler lands at a mill tick in the place of another (R35, R387). -/
def Device.handlerFree (d : Device) (n : Nat) (w : RegWrite) : Prop :=
  ∀ p, w.place = some p → findHandlerLanding (d.mill + n) p d.cur.hfly = false

/-- The code of an instruction of major 0x3E, by its minor (R391). -/
def systemMinor : Instr → Option Nat
  | .rth _ => some 0
  | .ctxsw _ _ _ => some 3
  | .ctxst _ _ _ => some 4
  | .ctxld _ _ _ => some 5
  | .tlbinv _ _ _ => some 6
  | .shoot _ _ _ _ => some 7
  | .monrd _ _ => some 8
  | .attest _ _ _ => some 9
  | .errpop _ _ _ => some 0xA
  | .haltc _ _ _ => some 0xB
  | _ => none

/-- The device with the issue over and a reissue due at this tick cancelled: what an event at issue leaves (R56, R175). -/
def Device.unissued (d : Device) : Device :=
  let c := d.cur
  { d.setCtx d.issue.l d.issue.core { c with live := { c.live with reps := c.live.reps.filter (fun r => !r.dueAt d.now) } } with
    issue := Issue.idle }

/-- The privilege fault of an instruction of major 0x3E (R391, R380). -/
def Device.privilegeEv (d : Device) (minor : Nat) : Ev :=
  { code := 21, reason := 0, i0 := minor, i1 := 0, i2 := 0, i3 := 0, aux := 0, slot := d.issue.slot }

end Sys2Proof.Machine

/-- RTH issues in the handler and its outcome waits for the next mill tick. In a handler context, RTH with an action from
0 to 4 (the early-commit action only where the trapped event is a store-budget exception), which are its well-formed
forms, issues: the handler records the action with the mill tick issue + 1 and goes on past the bundle; nothing else
changes. (R393, R387.) -/
def Obligations.HandlerReturnTakesEffectAtTheNextMillTick : Prop :=
  (∀ (s : State) (act : BitVec 3) (h : Handler),
    s.dev.cur.present = true → s.dev.issue.handler = true → s.dev.cur.handler = some h → act.toNat ≤ 4 →
    (act = 3 → recField h.record 56 8 = 19) →
    let h' : Handler := { h with outcome := some (act.toNat, s.dev.mill + 1) }
    exec (.rth act) s = .next { s with dev := s.dev.handlerGoesOn s.dev.cur h' s.dev.afterHandler }) ∧
  (∀ act : BitVec 3, act.toNat ≤ 4 ↔ (Instr.rth act).wf = true)

/-- Scalar instructions of the handler put their result in flight by mill ticks. In a handler context, every scalar-
register instruction that the handler may issue (MFSR of every selector, the interrupted registers and the record of
the trap among them, and MONRD and ERRPOP in every address space), with scalar fields among hs0 to hs15, puts the
value that the same rule gives over the handler registers in flight to its handler register at issue + n mill ticks,
nothing for hs0, and the handler goes on to the next bundle at the next mill tick. SEL reads the handler's own
predicates hp0 to hp7, which are the model's choice (log entry 128), as is that each resident context has its own hs0
to hs15 (141). (R387, R391, R392, R394.) -/
def Obligations.HandlerScalarsLandInMillTicks : Prop :=
  ∀ (s : State) (i : Instr) (h : Handler) (n : Nat) (r : SReg) (v : Dbl),
    s.dev.cur.present = true → s.dev.issue.handler = true → s.dev.cur.handler = some h → i.wf = true →
    handlerMay i = true → (∀ x ∈ scalarFields i, x.val < 16) → handlerScalar s.dev i = some (n, r, v) →
    (r ≠ 0 → s.dev.handlerFree n (.hs (Fin.ofNat 16 r.val) v)) →
    let new : List (Nat × RegWrite) := if r = 0 then [] else [(s.dev.mill + n, .hs (Fin.ofNat 16 r.val) v)]
    let c' : Ctx := { s.dev.cur with hfly := s.dev.cur.hfly ++ new }
    exec i s = .next { s with dev := s.dev.handlerGoesOn c' h s.dev.afterHandler }

/-- CMP, PAND, POR, PNOT, JMP, BR, BRP, MTSR and ERRPOP.p in a handler. In a handler context, CMP, CMPI, PAND, POR and
PNOT put their truth in flight to a handler predicate, JMP, BR and BRP choose the next bundle, MTSR puts in flight the
write of the special register or interrupted register that its selector names, and ERRPOP.p reads a word of the oldest
record and removes it; each goes on at the next mill tick and leaves the rest as it was. The handler's own predicate
registers are the model's choice (log entry 128), as is that each resident context has its own hs0 to hs15 (141).
(R387, R391, R392, R394, R121, R305, R307.) -/
def Obligations.HandlerPredicatesTransfersAndRegisterWrites : Prop :=
  (∀ (s : State) (i : Instr) (h : Handler) (w : Option RegWrite) (pc : Nat),
    s.dev.cur.present = true → s.dev.issue.handler = true → s.dev.cur.handler = some h → i.wf = true →
    (∀ x ∈ scalarFields i, x.val < 16) → handlerControl s.dev i = some (w, pc) → (∀ x, w = some x → s.dev.handlerFree 1 x) →
    let c' : Ctx := { s.dev.cur with hfly := s.dev.cur.hfly ++ (w.map (fun x => (s.dev.mill + 1, x))).toList }
    exec i s = .next { s with dev := s.dev.handlerGoesOn c' h pc }) ∧
  (∀ (s : State) (r : SReg) (k : BitVec 3) (h : Handler) (x : BitVec 512) (t : List (BitVec 512)),
    s.dev.cur.present = true → s.dev.issue.handler = true → s.dev.cur.handler = some h → r.val < 16 → s.dev.log = x :: t →
    let w : RegWrite := .hs (Fin.ofNat 16 r.val) (dbl (recField x (64 * k.toNat) 64))
    (r ≠ 0 → s.dev.handlerFree 1 w) →
    let c' : Ctx := { s.dev.cur with hfly := s.dev.cur.hfly ++ (if r = 0 then [] else [(s.dev.mill + 1, w)]) }
    let d : Device := { s.dev with log := t, logHead := (s.dev.logHead + 1) % 1024 }
    exec (.errpop r k true) s = .next { s with dev := d.handlerGoesOn c' h s.dev.afterHandler })

/-- Instructions of major 0x3E raise the privilege fault where they may not issue. RTH, CTXSW, CTXST, CTXLD, TLBINV,
SHOOT, MONRD, ATTEST, ERRPOP and HALTC issued by a program context of an address space other than 0 take the privilege
fault, whose record names the minor code and the slot, and nothing of the bundle executes. (R391, R380.) -/
def Obligations.PrivilegedInstructionsFaultInAProgram : Prop :=
  ∀ (s : State) (i : Instr) (minor : Nat),
    s.dev.Ready i → s.dev.curLaunch.asid ≠ 0 → systemMinor i = some minor →
    let t := takeEvent s.dev.issue.l s.dev.issue.core s.dev.live.pc (s.dev.privilegeEv minor) s.dev.unissued
    exec i s = .next { s with dev := t }

/-- An event of class 2 or 3 with a handler installed enters the handler context. For an event of class 2 or 3 other than
the store-budget exception, in an active sheet whose address space has HVEC.EN = 1, taking the event stops the sheet
at its tick, leaves the registers of the context and the scratchpad as they are, and enters the handler of the raising
core: its program counter is HVEC.VA, its first bundle issues at the next mill tick, and its record holds the event
code, tick, bundle address and four information words. (R377, R387, R388, R190.) -/
def Obligations.AServicedEventEntersTheHandler : Prop :=
  ∀ (d : Device) (l core : Nat) (e : Ev) (w : Where),
    let a := (d.launch l).asid
    let hv := Assoc.get 0 d.hvec a
    (d.launch l).st = .active → (e.cls = 2 ∨ e.cls = 3) → hv.getLsbD 63 = true → e.code ≠ 19 →
    let t := takeEventAt l core e w d
    (t.launch l).mode = .stop ∧ (t.launch l).tick = (d.launch l).tick ∧
    (t.ctx l core).live = (d.ctx l core).live ∧ t.spad = d.spad ∧
    ∃ h, (t.ctx l core).handler = some h ∧ h.pc = hv.toNat % 2 ^ 48 ∧ h.next = d.mill + 1 ∧ h.outcome = none ∧
      recField h.record 56 8 = e.code % 256 ∧ recField h.record 128 64 = w.tick % 2 ^ 64 ∧ recField h.record 192 64 = w.pc % 2 ^ 64 ∧
      recField h.record 256 64 = e.i0 % 2 ^ 64 ∧ recField h.record 320 64 = e.i1 % 2 ^ 64 ∧
      recField h.record 384 64 = e.i2 % 2 ^ 64 ∧ recField h.record 448 64 = e.i3 % 2 ^ 64

/-- An abort restores every core of the sheet from its checkpoint and leaves the scratchpad, felt and accumulators.
Aborting the ream of a sheet puts the live part of each core back to its checkpoint, clears its tag promises, returns
the entries popped since then to their queues, sets the tick to the restart point and the sheet to SHADOW; the
scratchpads, felt and accumulators keep what the attempt left. That every other action in flight at the checkpoint
(bank-ticks, press, repeats, effects) comes back with the registers is the model's choice (log entry 62). The premise
that no buffered submission names the aborting launch itself as its target holds in every state that a run reaches.
(R193, R385.) -/
def Obligations.AnAbortRestoresTheCheckpoint : Prop :=
  ∀ (d : Device) (l core : Nat) (need : Option (Nat × Nat)),
    core ∈ (d.launch l).cores →
    (∀ k, ∀ b ∈ (d.ctx l k).live.store, ∀ n g m, b.eff ≠ .submit n (some l) g m) →
    let t := abortReam l need d
    (t.ctx l core).live = (d.ctx l core).ckpt ∧ (t.ctx l core).promises = [] ∧
    (∀ q : Fin 4, (t.ctx l core).queues[q] = (d.ctx l core).popped[q] ++ (d.ctx l core).queues[q]) ∧
    (t.launch l).tick = (d.launch l).restart ∧ (t.launch l).st = .shadow ∧
    t.spad = d.spad ∧ t.felt = d.felt ∧ t.acc = d.acc

namespace Sys2Proof.Machine

/-! ## What the host does (R223, R267, R268, R282, R289, R328, R346, R351 to R357, R381, R383, R390, R401 to R410) -/

/-- A write of VATCFG with every field in range (R289). -/
def Device.vatcfgTaken (d : Device) (v : Dbl) : Option Device :=
  let f := fun (lo : Nat) => bitField v.toNat lo 8
  if 16 ≤ f 48 ∧ f 48 ≤ 40 ∧ 12 ≤ f 40 ∧ f 40 ≤ 30 ∧ 16 ≤ f 32 ∧ f 32 ≤ 40 ∧ 12 ≤ f 24 ∧ f 24 ≤ 40 then
    some { d with vatcfg := dbl (bitField v.toNat 24 32 * 2 ^ 24) }
  else none

/-- A write of MEASEXT with GO for a register that software extends (R356). -/
def Device.measextTaken (d : Device) (v : Dbl) : Option Device :=
  let i := v.toNat % 16
  let old := bytesOf 32 (d.meas[Fin.ofNat 16 i]).toNat
  let data := (d.measdata.toList.map (fun x => bytesOf 8 x.toNat)).flatten
  if bitAt v.toNat 63 = true ∧ 8 ≤ i then
    some { d with meas := d.meas.set (Fin.ofNat 16 i) (BitVec.ofNat 256 (ofBytes (sm3 (old ++ data)))) }
  else none

/-- A write of ERRPTR.HEAD up to TAIL (R381). -/
def Device.errptrTaken (d : Device) (v : Dbl) : Option Device :=
  let n := (v.toNat % 1024 + 1024 - d.logHead) % 1024
  if n ≤ d.log.length then some { d with log := d.log.drop n, logHead := v.toNat % 1024 } else none

/-- A write of REQUEUE for a launch whose wait is over, or that does not wait (R383). -/
def Device.requeueTaken (d : Device) (v : Dbl) : Option Device :=
  let l := v.toNat % 512
  match (d.launch l).need with
  | none => some d
  | some (a, va) => if a = 256 ∨ d.nowResident a va = true then some (d.setLaunch l { d.launch l with need := none }) else none

/-- Whether a sheet is in a debug halt, which an abort does not end (R390, R303). -/
def Launch.haltedNow (x : Launch) : Bool :=
  x.kept.isSome || (match x.mode with
    | .halt _ => true
    | _ => false)

/-- A write of DBGDATA while the sheet is halted and its registers are in the core (R390). -/
def Device.dbgdataTaken (d : Device) (v : Dbl) : Option Device :=
  let l := d.haltSlot
  let core := bitField d.dbgsel.toNat 8 10
  let sel := d.dbgsel.toNat % 256
  let c := d.ctx l core
  let x := d.launch l
  match selWrite c.live.regs sel v with
  | some w =>
    if x.haltedNow = true ∧ (x.st = .active ∨ x.st = .shadow) ∧ x.streaming = .idle ∧ x.hasCore core = true ∧ sel < 0x80 ∧
        ((4 ≤ sel ∧ sel ≤ 6) ∨ sel = 0x0B ∨ 0x40 ≤ sel) then
      some (d.setCtx l core (c.write w))
    else none
  | none => none

/-- A write of CLKCTL with a frequency the module runs at (R404). -/
def Device.clkctlTaken (d : Device) (v : Dbl) : Option Device :=
  let f := v.toNat % 2048
  if d.clkBusy = none ∧ f % 25 = 0 ∧ 300 ≤ f ∧ f ≤ 1200 then
    some { d with clkBusy := some (f, d.mill + 1 + Config.engineDelay d.fresh % 2 ^ 20), fresh := d.fresh + 1 }
  else none

/-- A write of CFGCTL with a length in range while no commit is under way (R410). -/
def Device.cfgctlTaken (d : Device) (v : Dbl) : Option Device :=
  let n := v.toNat % 2 ^ 20
  if d.cfgBusy = none ∧ 1 ≤ n ∧ n ≤ 524288 then
    (if bitAt v.toNat 63 then
      some { d with cfgLen := n, cfgBusy := some (d.mill + 1 + Config.engineDelay d.fresh), fresh := d.fresh + 1 }
    else some { d with cfgLen := n })
  else none

/-- A write of SHOOTREQ that the queue has room for (R398). -/
def Device.shootreqTaken (d : Device) (v : Dbl) : Option Device :=
  let n := v.toNat
  if bitField n 48 6 = 0 ∧ bitField n 0 16 = 0 ∧ d.shootQ.length < 64 then
    (scopeOf (bitField n 62 2)).map (fun sc =>
      { d with shootQ := d.shootQ ++ [{ scope := sc, asid := bitField n 54 8, page := bitField n 16 32, bar := none }] })
  else none

/-- A ring that runs on with another number of positions: at the position it has reached, or at 0 where the new ring has none of that
number; what it has issued keeps its distance (R265, R270). -/
def Stack.runsOn (x y : Stack) : Stack :=
  let here := x.pos % x.positions
  let turn := (x.pos + y.positions - 1) / y.positions
  let next := y.positions * turn + (if here < y.positions then here else 0)
  let far := fun (p : Nat) => p + (next - x.pos)
  { y with
    base := far x.base, pos := next, cmds := x.cmds.map (fun c => (c.1, c.2.map (fun m => { m with pos := far m.pos }))),
    rows := x.rows.map (fun r => (r.1, r.2.map (fun o => (o.1, o.2.map far)))) }

/-- What a write to a register of the management space leaves, where the module takes it (R267, R268, R289, R328, R356, R381,
R383, R390, R398, R404, R410). -/
def registerRule (d : Device) : Instr → Option Device
  | .vatcfgWrite v => d.vatcfgTaken v
  | .timelineWordWrite st ix v =>
    let x := d.stack st.val
    let y := { x with words := Assoc.set 0 x.words ix.val v }
    if wordOk v.toNat = true ∧ (if x.running then y.ringOk else y.wordsOk && x.keepsRefresh y) = true then some (d.setStack st.val y) else none
  | .tlctlWrite st v =>
    let x := d.stack st.val
    let n := v.toNat &&& 0x3FFE7FFE0001
    let y := { x with tlctl := dbl n }
    if tlctlOk n = false then none
    else if bitAt n 0 = false then
      (if (x.running = false ∨ x.claims = []) ∧ (y.wordsOk && x.keepsRefresh y) = true then some (d.setStack st.val y) else none)
    else if y.ringOk = false then none
    else if x.running then some (d.setStack st.val (if y.positions = x.positions then y else x.runsOn y))
    else if x.claims = [] then some (d.setStack st.val (y.restart (d.mill + 1)))
    else none
  | .asctlWrite a w v =>
    let n := v.toNat &&& asctlMask w.val
    let t := { d with asctl := Assoc.set 0 d.asctl (4 * a.val + w.val) (dbl n) }
    if asctlOk w.val n = false then none
    else if w.val = 2 ∨ (w.val = 0 ∧ bitAt n 63 = true ∧ d.asEnabled a.val = false) then
      some { t with fredCount := d.fredCount.filter (fun p => p.1 / 256 != a.val) }
    else some t
  | .measextWrite v => d.measextTaken v
  | .errptrHeadWrite v => d.errptrTaken v
  | .requeueWrite v => d.requeueTaken v
  | .haltctlReq l =>
    let x := d.launch l.val
    if x.st = .free ∨ x.st = .held ∨ x.st = .done then none
    else some ({ d with haltSlot := l.val }.setLaunch l.val { x with halt := true })
  | .haltctlGo l =>
    let x := d.launch l.val
    if x.kept ≠ none then some ({ d with haltSlot := l.val }.setLaunch l.val { x with kept := none, halt := false })
    else if x.haltedNow = true ∧ x.st = .active then some ({ d with haltSlot := l.val }.setLaunch l.val { x with mode := .run, halt := false })
    else some { d with haltSlot := l.val }
  | .haltctlStep l =>
    let x := d.launch l.val
    if x.kept ≠ none then some ({ d with haltSlot := l.val }.setLaunch l.val { x with kept := some true })
    else if x.haltedNow = true ∧ x.st = .active then some ({ d with haltSlot := l.val }.setLaunch l.val { x with mode := .run, halt := true })
    else some { d with haltSlot := l.val }
  | .dbgdataWrite v => d.dbgdataTaken v
  | .clkctlWrite v => d.clkctlTaken v
  | .cfgctlCommit v => d.cfgctlTaken v
  | .shootreqWrite v => d.shootreqTaken v
  | _ => none

/-- What an 8-byte write to the management space leaves at an offset whose register has no event of its own, or has one
that the rule above gives (R354, R401). -/
def offsetRule (d : Device) (off : Nat) (v : Dbl) : Option Device :=
  let n := v.toNat
  if off % 8 ≠ 0 then none
  else if 0x300 ≤ off ∧ off < 0x320 then some { d with measdata := d.measdata.set (Fin.ofNat 4 (off / 8)) v }
  else if off = 0x320 then d.measextTaken v
  else if off = 0x1018 then d.vatcfgTaken v
  else if off = 0x2000 then
    let x := n &&& (2 ^ 63 + 0x7FFFFF0000 + 0x3F0)
    if bitField x 8 2 ≠ 3 ∧ bitField x 28 11 + bitField x 16 12 ≤ 2048 ∧ (bitAt x 63 = true → bitField x 16 12 ≠ 0) then
      some { d with hdmcfg := dbl x }
    else none
  else if off = 0x3000 then some { d with woveid := dbl (n % 2 ^ 16) }
  else if 0x4000 ≤ off ∧ off < 0x4200 then
    some { d with route := Assoc.set 0 d.route ((off - 0x4000) / 8) (dbl (n &&& (2 ^ 63 + 0xF000000000000 + 0xFFFF))) }
  else if 0x20000 ≤ off ∧ off < 0x20800 then
    some { d with hvec := Assoc.set 0 d.hvec ((off - 0x20000) / 8) (dbl (n &&& (2 ^ 63 + (2 ^ 48 - 1)))) }
  else if off = 0x21000 then (if n % 256 = 0 then none else some { d with rcfg := dbl (n % 256) })
  else if off = 0x21008 then d.errptrTaken v
  else if off = 0x21010 then d.requeueTaken v
  else if off = 0x21020 then some { d with dbgsel := dbl (n % 2 ^ 18) }
  else if off = 0x21028 then d.dbgdataTaken v
  else if off = 0x21030 then d.clkctlTaken v
  else if off = 0x21040 then d.cfgctlTaken v
  else if off = 0x21050 then d.shootreqTaken v
  else if 0x50000 ≤ off ∧ off < 0x54000 then some { d with monthr := Assoc.set 0 d.monthr ((off - 0x50000) / 8) v }
  else if 0x80000 ≤ off ∧ off < 0x100000 then some { d with window := Memory.writeBytes d.window (off - 0x80000) (bytesOf 8 n) }
  else none

/-- Where a write is refused and reported: the offset of its register and the value written (R380, R354). -/
def refusalRule (d : Device) : Instr → Option (Nat × Nat)
  | .timelineWordWrite st ix v =>
    if registerRule d (.timelineWordWrite st ix v) = none then some (0x2000000 + 0x400000 * st.val + 8 * ix.val, v.toNat) else none
  | .tlctlWrite st v => if registerRule d (.tlctlWrite st v) = none then some (0x100000 + 8 * st.val, v.toNat) else none
  | .asctlWrite a w v => if registerRule d (.asctlWrite a w v) = none then some (0x10000 + 32 * a.val + 8 * w.val, v.toNat) else none
  | .measextWrite v => if v.toNat % 16 < 8 then some (0x320, v.toNat) else none
  | .errptrHeadWrite v => if d.errptrTaken v = none then some (0x21008, v.toNat) else none
  | .dbgdataWrite v => if d.debugged = none then some (0x21028, v.toNat) else none
  | .clkctlWrite v => if d.clkctlTaken v = none then some (0x21030, v.toNat) else none
  | .cfgctlCommit v => if d.cfgctlTaken v = none then some (0x21040, v.toNat) else none
  | .shootreqWrite v => if d.shootreqTaken v = none then some (0x21050, v.toNat) else none
  | _ => none

/-- What an aligned 8-byte read of some offsets of a started device returns (R354, R401). -/
def Device.offsetValue (d : Device) (off : Nat) : Option Dbl :=
  if off = 0 then some 0x4D50064000000000
  else if off = 8 then some d.serial
  else if 0x100 ≤ off ∧ off < 0x300 then some (dbl ((d.meas[Fin.ofNat 16 ((off - 0x100) / 32)]).toNat / 2 ^ (8 * (off % 32)) % 2 ^ 64))
  else if 0x300 ≤ off ∧ off < 0x320 then some (d.measdata[Fin.ofNat 4 (off / 8)])
  else if off = 0x1018 then some d.vatcfg
  else if 0x1100 ≤ off ∧ off < 0x1200 then some (d.hsigval[Fin.ofNat 32 (off / 8)])
  else if off = 0x2000 then some d.hdmcfg
  else if off = 0x3000 then some d.woveid
  else if 0x3100 ≤ off ∧ off < 0x3180 then some (d.wovectl[Fin.ofNat 16 ((off - 0x3100) / 8)])
  else if 0x4000 ≤ off ∧ off < 0x4200 then some (Assoc.get 0 d.route ((off - 0x4000) / 8))
  else if 0x10000 ≤ off ∧ off < 0x12000 then some (Assoc.get 0 d.asctl ((off - 0x10000) / 8))
  else if 0x20000 ≤ off ∧ off < 0x20800 then some (Assoc.get 0 d.hvec ((off - 0x20000) / 8))
  else if off = 0x21000 then some d.rcfg
  else if off = 0x21020 then some d.dbgsel
  else if off = 0x21038 then some d.startstat
  else if off = 0x21058 then some (dbl d.shootDone.toNat)
  else if 0x40000 ≤ off ∧ off < 0x44000 then some (Assoc.get 0 d.monval ((off - 0x40000) / 8))
  else if 0x50000 ≤ off ∧ off < 0x54000 then some (Assoc.get 0 d.monthr ((off - 0x50000) / 8))
  else if 0x100000 ≤ off ∧ off < 0x100040 then some (d.stack ((off - 0x100000) / 8)).tlctl
  else if 0x2000000 ≤ off ∧ off < 0x4000000 then
    some (Assoc.get 0 (d.stack ((off - 0x2000000) / 0x400000)).words (off % 0x400000 / 8))
  else none

/-- What a read returns: in seed mode zero but for MODID, SERIAL, IDPUB, STARTSTAT, CFGCTL, SEEDCTL and the image window (R354,
R408). -/
def Device.readRule (d : Device) (off : Nat) : Option Dbl :=
  if off % 8 ≠ 0 then none
  else if d.started then d.offsetValue off
  else if d.seedMode = false then none
  else if off = 0 ∨ off = 8 ∨ off = 0x21038 then d.offsetValue off
  else if (0x40 ≤ off ∧ off < 0x80) ∨ off = 0x21040 ∨ off = 0x21048 ∨ (0x80000 ≤ off ∧ off < 0x100000) then none
  else some 0

/-- The line at a location as an engine reads it, where its cells hold no error: the entries of its queue stand over them
(R274, R278). -/
def Device.cleanLine (d : Device) (loc : Nat) : Option Line :=
  match rsDecode (d.cells loc) with
  | .clean l => some (overlay loc l (d.queue (locStack loc) (locCh loc)))
  | _ => none

/-- A job that a record asks for, in slot `j`, as the module takes it (R282, R283). -/
def Device.newJob (d : Device) (j : Nat) (r : Line) : Job :=
  let x : Job :=
    { used := true, gen := (d.job j).gen + 1, record := r, asid := bitField r.toNat 408 8, root := 512, rootDone := false,
      phases := [], count := 0, fin := false, can := false, err := false }
  { x with phases := List.replicate x.nph { count := 0, fin := false, can := false, err := false, stop := false } }

/-- What the other actions of the host leave (R31, R223, R282, R351, R352, R357, R404, R409, R410). -/
def hostRule (d : Device) : Instr → Option Device
  | .cxlMemWrite off data mask =>
    (d.hdmAddr off.toNat).bind fun g =>
    let loc := dramMap g.pa g.im g.sw
    let q := d.queue (locStack loc) (locCh loc)
    if q.length < 64 ∧ d.commits.all (fun c => c.pending.all (fun e => e.loc != loc)) = true then
      some (d.setQueue (locStack loc) (locCh loc) (q ++ [{ loc := loc, data := data, mask := mask, stamp := d.mill, turns := 0 }]))
    else none
  | .cxlMemRead off =>
    (d.hdmAddr off.toNat).bind fun g =>
    (d.cleanLine (dramMap g.pa g.im g.sw)).map fun l => { d with outbox := d.outbox ++ [.cxlData l] }
  | .hostMessageQueueWrite core v =>
    (d.sheaf (core.val / 4)).active.bind fun l =>
    let c := d.ctx l core.val
    let key := ctxKey l core.val
    let waits := d.queueWaits.any (fun w => w.link.isNone && w.key == key && w.q == 3)
    if c.present = false then none
    else if c.queues[3].length + c.popped[3].length < 256 ∧ waits = false then
      some (d.setCtx l core.val { c with queues := c.queues.set 3 (c.queues[3] ++ [v]) })
    else some { d with queueWaits := d.queueWaits ++ [{ link := none, key := key, q := 3, v := v }] }
  | .jobPortWrite v =>
    let at_ := bitField v.toNat 6 42 * 64
    let free := d.freeJobs
    if inDevice at_ = true ∧ bitField v.toNat 0 6 = 0 ∧ bitField v.toNat 48 16 = 0 ∧ free ≠ [] then
      (d.cleanLine (dramMap at_ 0 0)).bind fun r =>
      let j := free.getD (Config.pick d.fresh % free.length) 0
      let x := d.newJob j r
      if x.recordOk then
        let t := ({ d with fresh := d.fresh + 1 } : Device).setJob j x
        some (wakeLaunches 1024 (settleJob j { t with
          admissions := d.admissions ++ [(0, j, bitField r.toNat 464 48)], accepted := (d.accepted + 1) % 65536 }))
      else none
    else none
  | _ => none

/-- What the module answers on the DOE mailbox: the one algorithm set, the chain of slot 0, MEAS0 to MEAS15 as blocks 1 to 16, the
signed report, and no setting of certificates or mutual authentication (R357, R358). -/
def Device.spdmSays (d : Device) : SpdmReq → SpdmAnswer
  | .algorithms => .algorithms [.sm2P256] [.sm3] [.sm4Gcm]
  | .certificate 0 => .certificate (Config.spdm d.fresh [])
  | .certificate _ => .unsupported
  | .measurements => .measurements ((List.finRange 16).map (fun i => (i.val + 1, d.meas[i])))
  | .report mask nonce => .report (d.report mask.toNat (bytesOf 32 nonce.toNat))
  | .setCertificate => .unsupported
  | .mutualAuth => .unsupported
  | .other req => .other (Config.spdm d.fresh req)

/-- What the actions that seed mode takes as well, and those of the module's own timers, leave (R352, R357, R404, R409,
R410). -/
def moduleRule (d : Device) : Instr → Option Device
  | .cxlUnsupportedRequest => if d.started || d.seedMode then some { d with outbox := d.outbox ++ [.cxlError] } else none
  | .spdmRequest req =>
    if d.started || d.seedMode then
      some { d with outbox := d.outbox ++ [.spdm (d.spdmSays req)], fresh := d.fresh + 1 }
    else none
  | .seedctlGenkey =>
    if (d.started || d.seedMode) = true ∧ d.store.key = none then
      let k := Config.publicKey d.fresh
      some { d with store := { d.store with key := some k }, keyOk := true, idpub := k, fresh := d.fresh + 1 }
    else none
  | .clockChangeComplete =>
    match d.clkBusy with
    | some (f, due) => if due ≤ d.mill then some { d with clkMhz := f, clkBusy := none } else none
    | none => none
  | .cfgCommitComplete =>
    match d.cfgBusy with
    | some due =>
      let b := Memory.readBytes d.window 0 d.cfgLen
      if due ≤ d.mill then
        if Config.imageOk b = true ∧ d.store.floor ≤ Config.imageVersion (ofBytes b) then
          some { d with cfgBusy := none, cfgOk := true, store := { d.store with image := some b } }
        else some { d with cfgBusy := none, cfgOk := false }
      else none
    | none => none
  | _ => none

/-! ## Starts (R405 to R408) -/

/-- The module with power just applied or a reset just taken: every register at its reset value, the store kept (R405,
R406). -/
def Device.cleared (d : Device) : Device :=
  { Device.reset with
    mill := d.mill, hostMem := d.hostMem, outbox := d.outbox, store := d.store, seq := d.seq, fresh := d.fresh,
    tripped := d.tripped, keyOk := d.store.key.isSome }

/-- Seed mode (R407, R408): the reason and step in STARTSTAT, the identity key's public half where it can be unsealed, else zero, and
MEAS0 extended by the image's digest where there is an image. -/
def Device.seeded (d : Device) (why step : Nat) : Device :=
  let t := d.cleared
  let m := BitVec.ofNat 256 (ofBytes (sm3 (List.replicate 32 0 ++ bytesOf 32 (Config.startDigest d.fresh).toNat)))
  { t with
    startstat := dbl (d.store.fails % 16 + step % 256 * 2 ^ 40 + why % 256 * 2 ^ 48 + 2 ^ 62), fresh := d.fresh + 2,
    idpub := if Config.choice (d.fresh + 1) then d.store.key.getD 0 else 0,
    meas := if d.store.image.isSome then t.meas.set 0 m else t.meas }

/-- A start that shows in the store as broken off has failed with code 11 (R407). -/
def Device.brokenOff (d : Device) : Device :=
  if d.store.starting then { d with store := { d.store with why := 11, step := 1, starting := false } } else d

/-- What ends in seed mode at once: a start without an image, and one after three failures (R407, R408). -/
def Device.seedRule (d : Device) : Option Device :=
  let t := d.brokenOff
  if d.store.image = none then some ({ d with store := { d.store with fails := 0, starting := false } }.seeded 1 1)
  else if 3 ≤ d.store.fails then some (t.seeded t.store.why t.store.step)
  else none

/-- The code of a start of an image (R407): a bad signature or format before an old VERSION, and that before what later steps
find; another number for a start that succeeds. -/
def Device.outcome (d : Device) (image : List Byte) : Nat :=
  if Config.imageOk image = false then (if Config.choice d.fresh then 2 else 4)
  else if Config.imageVersion (ofBytes image) < d.store.floor then 3
  else if d.store.key ≠ some (Config.publicKey (2 ^ 64 + ofBytes image)) then 5
  else if 5 ≤ Config.startOutcome d.fresh then Config.startOutcome d.fresh
  else 0

/-- The module with a start on an image begun: the failure counted in advance, the mark of a start in progress made, and
the outcome drawn (R407). -/
def Device.startBegun (d : Device) : Device :=
  { d.cleared with store := { d.brokenOff.store with fails := d.store.fails + 1, starting := true }, fresh := d.fresh + 1 }

/-- A start that overruns waits for the ROM's timer (R407). -/
def Device.startWaits (d : Device) : Device :=
  { d.cleared with
    startstat := dbl (d.store.fails % 16 + d.store.step % 256 * 2 ^ 40 + d.store.why % 256 * 2 ^ 48),
    startDue := some (d.mill + 1 + Config.engineDelay d.fresh), fresh := d.fresh + 1 }

/-- What a start of an image with fewer than three failures leaves, with code `code`: the next attempt after a failure, a wait for
the ROM's timer, or the running device (R407). -/
def Device.startedBy (d : Device) (image : List Byte) (code : Nat) : Device :=
  if 2 ≤ code ∧ code ≤ 9 then attemptStart (if d.store.starting then 3 else 4) (recordFailure code (failStep code d.fresh) d.startBegun)
  else if code = 10 then d.startBegun.startWaits
  else finishStart image d.startBegun

/-- The module at step 1 of the start that an event of power, reset, the host or the ROM's timer begins (R405 to R408). -/
def startBy (d : Device) : Instr → Option Device
  | .powerOnStart => some { d with tripped := false }
  | .conventionalResetStart => some d
  | .seedctlRetry => if d.seedMode then some { d with store := { d.store with fails := 0 } } else none
  | .startTimeout =>
    match d.startDue with
    | some due =>
      if due ≤ d.mill then
        some { d with fresh := d.fresh + 1, store := { d.store with why := 10, step := 1 + Config.pick d.fresh % 8, starting := false } }
      else none
    | none => none
  | _ => none

/-- The place of a monitor in the order of its samples (R402). -/
def monitorPlace (m : Nat) : Nat := (monitorIndices.takeWhile (fun k => k != m)).length

/-- MONVAL of a monitor after the sample numbered `k` (R402, R403): the value, the sequence number, the alarm and VALID. -/
def Device.sampled (d : Device) (m k : Nat) : Dbl :=
  let x := (Config.sample k).toNat
  let thr := (Assoc.get 0 d.monthr m).toNat
  let out := decide (monitorValue m x > monitorValue m (thr / 2 ^ 32)) || decide (monitorValue m x < monitorValue m (thr % 2 ^ 32))
  dbl (x + (((Assoc.get 0 d.monval m).toNat / 2 ^ 32 + 1) % 2 ^ 16) * 2 ^ 32 + bitOf out * 2 ^ 62 + 2 ^ 63)

end Sys2Proof.Machine

/-- Management writes that are taken set their registers. On a started device, a write of VATCFG, a timeline word, TLCTL,
ASCTL, MEASEXT, ERRPTR, REQUEUE, HALTCTL, DBGDATA, CLKCTL, CFGCTL or SHOOTREQ that its rule takes leaves the device
with that register changed as the rule says and nothing else; the same for an aligned 8-byte write at an offset of the
management map. The model's choices that it rests on: which rules of the ring are checked at a timeline word and at
TLCTL, and what becomes of reserved bits (log entry 82), where position 0 begins (83) and where a running ring stands
under another PM1 (149), and that a halt outlasts an abort (155). (R267, R268, R289, R328, R354, R356, R381, R383,
R390, R398, R404, R410.) -/
def Obligations.ManagementWritesSetTheirRegisters : Prop :=
  (∀ (s : State) (e : Instr) (t : Device), s.dev.started = true → registerRule s.dev e = some t →
    exec e s = .next { s with dev := t }) ∧
  (∀ (s : State) (v : Dbl) (t : Device), (s.dev.started || s.dev.seedMode) = true → s.dev.cfgctlTaken v = some t →
    exec (.cfgctlCommit v) s = .next { s with dev := t }) ∧
  (∀ (s : State) (off : BitVec 26) (v : Dbl) (t : Device), s.dev.started = true → offsetRule s.dev off.toNat v = some t →
    exec (.mgmtRegisterWrite off { size := 8, data := some v }) s = .next { s with dev := t })

/-- Management reads are answered and writes that are refused are reported. An aligned 8-byte read returns the register's
value, in seed mode zero but for the registers that seed mode keeps; a write that its register's rule refuses changes
nothing and is reported with its offset and value; an access that is unaligned or not of 8 bytes is answered as
unsupported. The model's choices that it rests on: a read is carried by the step MGMT_REGISTER_WRITE (log entry 136),
and which writes of a timeline word and of TLCTL are refused (82). (R354, R401, R408, R380, R289, R267, R268, R328,
R356, R381, R404, R410.) -/
def Obligations.ManagementAccessesAreAnsweredOrRefused : Prop :=
  (∀ (s : State) (off : BitVec 26) (v : Dbl), s.dev.readRule off.toNat = some v →
    exec (.mgmtRegisterWrite off { size := 8, data := none }) s = .next { s with dev := { s.dev with outbox := s.dev.outbox ++ [.value v] } }) ∧
  (∀ (s : State) (e : Instr) (off v : Nat), s.dev.started = true → refusalRule s.dev e = some (off, v) →
    exec e s = .next { s with dev := s.dev.deviceEvent (evOf 28 0 off v 0 0) }) ∧
  (∀ s : State, s.dev.started = true → s.dev.seedMode = false →
    exec .seedctlRetry s = .next { s with dev := s.dev.deviceEvent (evOf 28 0 0x21048 (2 ^ 63) 0 0) }) ∧
  (∀ s : State, s.dev.started = true → s.dev.store.key.isSome = true →
    exec .seedctlGenkey s = .next { s with dev := s.dev.deviceEvent (evOf 28 0 0x21048 (2 ^ 62) 0 0) }) ∧
  (∀ (s : State) (v : Dbl), s.dev.started = true → s.dev.vatcfgTaken v = none →
    exec (.vatcfgWrite v) s = .next { s with dev := s.dev.deviceEvent (evOf 30 5 0 0 0 0) }) ∧
  (∀ (s : State) (off : BitVec 26) (a : MgmtAccess), (s.dev.started || s.dev.seedMode) = true → (off.toNat % 8 ≠ 0 ∨ a.size ≠ 8) →
    exec (.mgmtRegisterWrite off a) s = .next { s with dev := { s.dev with outbox := s.dev.outbox ++ [.unsupported] } })

/-- What the host does to memory, queues, jobs and the module is answered. CXL.mem writes enter their channel's queue and
reads return the line, APFENCE counts, snoops find no data, a host message enters its queue or waits, a job record
that passes its checks takes a free job slot, and SPDM requests, key generation, clock changes and configuration
commits are answered. Which free job slot is taken is a free value; readings of SPDM are those of log entry 113. (R31,
R223, R282, R283, R351, R352, R357, R358, R404, R409, R410.) -/
def Obligations.HostActionsAreAnswered : Prop :=
  (∀ (s : State) (e : Instr) (t : Device), s.dev.started = true → hostRule s.dev e = some t → exec e s = .next { s with dev := t }) ∧
  (∀ s : State, s.dev.started = true →
    exec .apfenceRead s = .next { s with dev := { s.dev with apfence := s.dev.apfence + 1, outbox := s.dev.outbox ++ [.value s.dev.apfence] } } ∧
    exec .hostSnoop s = .next { s with dev := { s.dev with outbox := s.dev.outbox ++ [.snoopNoData] } }) ∧
  (∀ (s : State) (e : Instr) (t : Device), moduleRule s.dev e = some t → exec e s = .next { s with dev := t })

/-- A start ends in seed mode, waits, or runs its steps. From power on, a conventional reset, a retry of the host and the
ROM's timer, a start without an image or after three failures ends in seed mode with its reason and step; any other
counts a failure in advance, clears the device and leaves what the code of the attempt leaves. The code of an attempt
whose image is sound is a free value. (R405, R406, R407, R408.) -/
def Obligations.StartsEndInSeedModeOrRunTheirSteps : Prop :=
  (∀ (s : State) (e : Instr) (d t : Device), startBy s.dev e = some d → d.seedRule = some t →
    exec e s = .next { s with dev := t }) ∧
  (∀ (s : State) (e : Instr) (d : Device) (image : List Byte), startBy s.dev e = some d → d.store.image = some image → d.store.fails < 3 →
    exec e s = .next { s with dev := d.startedBy image (d.outcome image) }) ∧
  (∀ s : State, exec .powerLoss s = .next { s with dev := { s.dev.cleared with tripped := false } })

/-- A start that succeeds leaves the registers at their reset values. After a start that succeeds the mill tick is 0,
memories, contexts, launches and the log are empty, the registers are at their Reset columns, the rollback floor, the
serial number and the monitors' thresholds are the image's, and MEAS8 to MEAS15 are zero. (R402, R406, R407, R356.) -/
def Obligations.AFinishedStartLeavesTheStatedValues : Prop :=
  ∀ (d : Device) (image : List Byte), let t := finishStart image d
    t.mill = 0 ∧ t.started = true ∧ t.seedMode = false ∧ t.store.fails = 0 ∧ t.store.starting = false ∧
    t.store.floor = Config.imageFloor (ofBytes image) ∧ t.serial = Config.imageSerial (ofBytes image) ∧
    t.idpub = Config.publicKey (2 ^ 64 + ofBytes image) ∧
    t.monthr = loadThresholds (ofBytes image) ∧ t.log = [] ∧ t.spad = [] ∧ t.felt = [] ∧ t.acc = [] ∧ t.dram = [] ∧ t.ctxs = [] ∧
    t.launches = [] ∧ t.rcfg = 16 ∧ t.vatcfg = 0x0018141614000000 ∧ t.woveid = 0xFFFF ∧ t.hostMem = d.hostMem ∧
    (∀ i : Fin 16, 8 ≤ i.val → t.meas[i] = 0)

/-- A sample gives every monitor its value, sequence number and alarm. A monitor sample sets MONVAL of every monitor: the
value sampled (a free value), the sequence number one more, the alarm where the value is outside its thresholds,
VALID; it leaves the agenda, the mill tick and the scratchpads. (R402, R403.) -/
def Obligations.EveryMonitorIsSampled : Prop :=
  ∀ s : State, ∃ t, exec .monitorSample s = .next t ∧ t.agenda = s.agenda ∧ t.dev.mill = s.dev.mill ∧ t.dev.spad = s.dev.spad ∧
    ∀ m ∈ monitorIndices, Assoc.get 0 t.dev.monval m = s.dev.sampled m (s.dev.fresh + monitorPlace m)

namespace Sys2Proof.Machine

/-! ## Holds, leases and commits (R162, R189, R192, R213, R253, R274, R287, R297) -/

/-- Whether a core's bundle at the sheet's tick is a wait point, and whether its condition holds (R187): none where the core issues no
such bundle. -/
def Device.waitAt (d : Device) (l core : Nat) : Option Bool :=
  let c := d.ctx l core
  if c.live.next ≠ (d.launch l).tick then none
  else
    match d.bundleAt core (d.launch l).asid c.live.pc with
    | .ok b => if b.waits then some (d.bundleReady l core b) else none
    | .error _ => none

/-- The cores of a sheet that have not exited. -/
def Device.runningOf (d : Device) (l : Nat) : List Nat := (d.launch l).cores.filter (fun core => !(d.ctx l core).live.exited)

/-- What the ends of holds and leases leave (R162, R188, R189): a hold ends where every condition holds, and not before; a lease ends
when its limit has passed and the tick before its freedom has come. -/
def sheetRule (d : Device) : Instr → Option Device
  | .holdEnd l =>
    let x := d.launch l.val
    let ws := (d.runningOf l.val).map (d.waitAt l.val)
    match x.mode with
    | .hold _ =>
      if x.st ≠ .active then none
      else if ws.all (fun w => w == some true) then some (d.setLaunch l.val { x with mode := .run })
      else if ws.all Option.isSome then some d
      else none
    | _ => none
  | .leaseEnd g =>
    let x := d.sheaf g.val
    x.active.bind fun l =>
    let t := (d.launch l).tick
    if x.lease.holder.isSome ∧ x.lease.limit < t ∧ x.lease.free ≤ t + 1 then
      some (d.setSheaf g.val { x with lease := { x.lease with holder := none } })
    else if x.lease.limit ≥ t then some d
    else none
  | _ => none

/-- Whether two entries are for one channel. -/
def WqEntry.together (x y : WqEntry) : Bool := locStack x.loc == locStack y.loc && locCh x.loc == locCh y.loc

/-- Every entry that a commit has waiting, with its launch slot, in the order of the commits and within one in commit order. -/
def Device.waitingEntries (d : Device) : List (Nat × WqEntry) := d.commits.flatMap (fun c => c.pending.map (fun e => (c.l, e)))

/-- Whether the waiting entry of a place enters its queue when the commits of a launch do (R274): it is that launch's, every entry of
its channel before it is too, and there is room after those. -/
def Device.enters (d : Device) (l p : Nat) : Bool :=
  match d.waitingEntries[p]? with
  | none => false
  | some (n, e) =>
    let earlier := (d.waitingEntries.take p).filter (fun x => x.2.together e)
    n == l && earlier.all (fun x => x.1 == l) && decide ((d.queue (locStack e.loc) (locCh e.loc)).length + earlier.length < 64)

/-- What one effect of a signal phase leaves (R213, R253, R256, R258, R318, R322, R323, R395, R396, R398); none where it must wait. -/
def signalDone (key : Nat) : Effect → Device → Option Device
  | .hsig vec v, d => some { d with hsigval := d.hsigval.set (Fin.ofNat 32 vec) v, outbox := d.outbox ++ [.msix vec] }
  | .signal k a v, d =>
    if (d.ctxAt k).present = false then some (d.note 5 { pc := 0, tick := 0, asid := d.keyAsid k, lslot := k / 640, core := k % 640 } (evOf 29 6 0 0 0 0))
    else if d.bankFree a then
      let x := ofBytes (Memory.readBytes d.spad a 8)
      some (spWrite a (bytesOf 4 (Nat.min (2 ^ 32 - 1) (x % 2 ^ 32 + v))) d)
    else none
  | .ctxsw l inn, d =>
    let x := d.launch l
    some (if x.st = .free ∨ x.st = .held ∨ x.st = .done then d else d.setLaunch l { x with park := !inn })
  | .haltc core .halt, d =>
    match (d.sheaf (core / 4)).active with
    | some l => some (if (d.launch l).st = .active then d.setLaunch l { d.launch l with halt := true } else d)
    | none => some d
  | .haltc core .ungate, d => some (d.setSheaf (core / 4) { d.sheaf (core / 4) with gated := false })
  | .haltc core .gate, d =>
    if d.residents (core / 4) ≠ [] then some (d.deviceEvent (evOf 28 0 0 core 0 0)) else some (haltEffect core .gate d)
  | .haltc core .go, d =>
    match (d.sheaf (core / 4)).active with
    | none => some d
    | some l =>
      let x := d.launch l
      if x.kept ≠ none then some (d.setLaunch l { x with kept := none, halt := false })
      else
        match x.mode with
        | .halt _ => some (if x.st = .active then d.setLaunch l { x with mode := .run, halt := false } else d)
        | _ => some d
  | .image load l va a, d =>
    let i : Image :=
      { load := load, key := key, asid := d.keyAsid key, l := l, va := va, at_ := a, due := d.mill + 1 + Config.engineDelay d.fresh, banks := none, status := 0 }
    some { d with images := Assoc.set none d.images d.seq (some i), seq := d.seq + 1, fresh := d.fresh + 1 }
  | .shoot sc asid page bar, d =>
    if d.shootQ.length < 64 then some { d with shootQ := d.shootQ ++ [{ scope := sc, asid := asid, page := page, bar := some (key, bar) }] } else none
  | .submit false l g req, d => some (submitLaunch key (d.keyAsid key) (l.getD 0) g req.toNat d)
  | .submit true _ g req, d => some (submitGraph key (d.keyAsid key) g req.toNat d)
  | .cancel h, d => some (cancelItem h.toNat d)
  | .send f, d => some (sendFrame key f d)
  | .fred a bits data, d => some (departFred key a bits (data.getD []) d)
  | _, _ => none

/-- What the effects of a signal phase leave, one after another, cores ascending and each core's in issue order (R213). -/
def signalsDone (l : Nat) : List (Nat × Effect) → Device → Option Device
  | [], d => some d
  | (core, e) :: t, d => (signalDone (640 * l + core) e d).bind (signalsDone l t)

/-- The launch after the signal phase of a commit at a ream's end (R287): each unit counts one more ream, and the units that exited
with it have finished. -/
def Launch.counted (x : Launch) (exits : List Nat) : Launch :=
  { x with
    units := (x.units.zip (rangeFrom 0 x.units.length)).map (fun p => (p.1.1 + 1, p.1.2.1 || exits.contains p.2, p.1.2.2))
    count := x.count + (exits.filter (fun u => !(x.units.getD u (0, false, false, false)).2.1)).length }

/-- What a commit's later phases leave (R192, R213, R287). -/
def commitRule (d : Device) : Instr → Option Device
  | .reamAdvance l =>
    let x := d.launch l.val
    if x.st = .active ∧ x.mode = .commit ∧ d.commits.all (fun c => c.l != l.val || (c.pending.isEmpty && !c.last)) = true then
      if d.preempts l.val then
        some (d.setLaunch l.val { x with st := .shadow, mode := .parked, tick := x.restart, checked := x.restart, ticked := false, since := d.mill, switchAt := d.mill })
      else
        let y := { x with mode := .run, tick := x.restart, checked := x.restart, ticked := false, oversize := false }
        if x.kept = some true then some (d.setLaunch l.val { y with kept := none, halt := true })
        else some (if x.halt = true ∨ x.kept = some false then enterHalt l.val (d.setLaunch l.val y) else d.setLaunch l.val y)
    else none
  | .commitSignalPhase l =>
    (d.headCommit l.val).bind fun c =>
    if c.signalled ∨ c.pending ≠ [] ∨ d.mill < c.due then none
    else
      (signalsDone l.val c.signals d).bind fun e =>
      (e.headCommit l.val).map fun c' =>
      let e := if c'.early then e else e.setLaunch l.val ((e.launch l.val).counted c'.exits)
      { e with commits := replaceFirst l.val (if c'.last then some { c' with signals := [], signalled := true } else none) e.commits }
  | .commitCompletionPhase l =>
    (d.headCommit l.val).bind fun c =>
    if c.last ∧ c.signalled then some (completeLaunch l.val c.can c.err { d with commits := d.commits.filter (fun k => k.l != l.val) })
    else some d
  | _ => none

/-! ## The timeline (R265, R266, R269, R270, R275, R276, R301) -/

/-- A channel with a command more, where it breaks no timing rule (R270). -/
def Device.issues (d : Device) (st c k : Nat) (l : List DramCmd) : Option Stack :=
  let x := d.stack st
  if planRow l (x.against c k) = none then some (x.command c l) else none

/-- The activate that a word 28 positions ahead asks for, with the row it opens (R266, R270). -/
def activated (st c k : Nat) (d : Device) : Option Device :=
  let x := d.stack st
  let w := x.wordAt (k + 28) c
  if (wordKind w = 1 ∨ wordKind w = 6) ∧ bitAt w 60 = true then
    if (x.openRow c (bitField w 53 6) k).isSome then none
    else
      (d.issues st c k [{ kind := .act, pos := k, bank := bitField w 53 6 }]).map fun y =>
      d.setStack st (y.setRow c (bitField w 53 6) (some (bitField w 39 14, none)))
  else some d

/-- What a word of a channel leaves at its position (R266, R275, R276): an idle word nothing; a refresh its command; a read or a
scrub, of the row open, its command (and the precharge AP asks for), and the line for its claims or the scrub's check; a
write the head entry's line, merged where its mask is partial, in the open row or in one opened 28 positions before it and
closed 33 after. -/
def worded (st c k : Nat) (d : Device) : Option Device :=
  let x := d.stack st
  let w := x.wordAt k c
  let ix := 32 * (k % x.positions) + c
  let b := bitField w 53 6
  if wordKind w = 0 then some d
  else if wordKind w = 4 then (d.issues st c k [{ kind := .refAb, pos := k, bank := 0 }]).map (d.setStack st)
  else if wordKind w = 5 then (d.issues st c k [{ kind := .refPb, pos := k, bank := b }]).map (d.setStack st)
  else if wordKind w = 1 ∨ wordKind w = 6 then
    if x.openRow c b k ≠ some (bitField w 39 14) then none
    else
      let q := prechargeAt k (lastAct b (x.issued c)) (lastWrite b (x.issued c))
      let pre : List DramCmd := if bitAt w 59 then [{ kind := .pre, pos := q, bank := b }] else []
      (d.issues st c k ({ kind := .read, pos := k, bank := b } :: pre)).map fun y =>
      let e := d.setStack st (if bitAt w 59 then y.setRow c b (some (bitField w 39 14, some q)) else y)
      if wordKind w = 1 then readWord st ix k (wordLoc st ix w) e else scrubWord (bitAt w 9) (wordLoc st ix w) e
  else if wordKind w = 2 then
    match d.queue st c with
    | [] => some d
    | e :: t =>
      if d.readPending st e then some d
      else
        let q := locBank e.loc
        let write : DramCmd := { kind := .write, pos := k, bank := q }
        let plan : Option (List DramCmd × Option (Nat × Option Nat)) :=
          if x.openRow c q k = some (locRow e.loc) then some ([write], Assoc.get none x.rows (64 * c + q))
          else if x.openRow c q k = none ∧ x.base + 28 ≤ k then
            some ([{ kind := .act, pos := k - 28, bank := q }, write, { kind := .pre, pos := k + 33, bank := q }], some (locRow e.loc, some (k + 33)))
          else none
        plan.bind fun p => (d.issues st c k p.1).map fun y =>
        let u := (d.setStack st (y.setRow c q p.2)).setQueue st c t
        if e.mask = fullMask then u.writeCells e.loc e.data
        else
          match rsDecode (d.cells e.loc) with
          | .clean z => u.writeCells e.loc (mergeLine z e.data e.mask)
          | .corrected z r => (u.note 0 Where.device (correctedEv e.loc r)).writeCells e.loc (mergeLine z e.data e.mask)
          | .bad => u.deviceEvent (evOf 26 2 (locationWord e.loc) e.mask.toNat 0 0)
  else none

/-- What the words of some channels leave at a position, each after the activate due at it. -/
def wordedAll (st k : Nat) : List Nat → Device → Option Device
  | [], d => some d
  | c :: t, d => ((activated st c k d).bind (worded st c k)).bind (wordedAll st k t)

/-- The line of a copy that the web has brought (R269). -/
def Copy.brought (c : Copy) (w : WebLine) : Copy :=
  { c with lines := (c.lines.zip (rangeFrom 0 c.lines.length)).map (fun p =>
      if p.2 = w.line then (p.1.1, p.1.2.1, p.1.2.2.1, some w.data) else p.1) }

/-- What a position of a ring, a stalled entry's report and the web's lines leave (R265, R269, R301). -/
def timelineRule (d : Device) : Instr → Option Device
  | .timelinePosition st =>
    let x := d.stack st.val
    if x.running = true ∧ x.t0 + 3 * (x.pos - x.base) / 5 ≤ d.mill then
      (wordedAll st.val x.pos (rangeFrom 0 32) d).map fun e =>
      let y := { e.stack st.val with pos := x.pos + 1 }
      let aged := fun (q : List WqEntry) => match q with
        | [] => []
        | h :: t => { h with turns := Nat.min 65 (h.turns + 1) } :: t
      e.setStack st.val (if (x.pos + 1) % x.positions = 0 then { y with queues := y.queues.map (fun p => (p.1, aged p.2)) } else y)
    else some d
  | .drainStall st ch =>
    match d.queue st.val ch.val with
    | e :: t =>
      if e.turns = 64 then
        some ((d.setQueue st.val ch.val ({ e with turns := 65 } :: t)).deviceEvent (evOf 27 0 (locationWord e.loc) 0 0 0))
      else some d
    | [] => some d
  | .webLineArrival st =>
    match d.web.filter (fun w => w.stack == st.val && decide (w.arrive ≤ d.mill)) with
    | [] => some d
    | [w] =>
      let e := { d with web := d.web.filter (fun v => !(v.stack == st.val && decide (v.arrive ≤ d.mill))) }
      some (match Assoc.get none d.copies w.copy with
        | some c => { e with copies := Assoc.set none d.copies w.copy (some (c.brought w)) }
        | none => e)
    | _ => none
  | _ => none

end Sys2Proof.Machine

/-- Holds, leases and the phases of a commit end when they are due. A hold ends where every core's condition holds, and
not before; a lease ends when its limit has passed and the tick before its freedom has come; a ream advances once the
commit's data have entered their queues, giving way where another sheet must run; the signal phase performs its
effects in order, counts the ream and the exits; the completion phase completes the launch. The model's choices that
it rests on: which commits COUNT counts (log entry 53), HALTC.gate of a sheaf in use is refused with a record of code
28 (108), and how a replay finds its sheaves (139). (R162, R189, R192, R213, R253, R287, R293, R318, R322, R323, R395,
R396.) -/
def Obligations.HoldsLeasesAndCommitsRunTheirPhases : Prop :=
  ∀ (s : State) (e : Instr) (t : Device), sheetRule s.dev e = some t ∨ commitRule s.dev e = some t → exec e s = .next { s with dev := t }

/-- The entries of a sheet's commits enter their channels' queues in order. Over all the commits that wait, of one or
several reams of a sheet: every entry of the sheet's commits that finds room in its channel's queue, and that no
earlier entry of that channel that waits is before, enters it at this mill tick, in the commits' order, with the two
units of a pair together; the others stay, in their order; nothing else changes. That an entry which waits holds back
the later entries of its channel alone is the model's choice (log entry 68). (R211, R212, R274, R302.) -/
def Obligations.CommitEntriesEnterInOrder : Prop :=
  ∀ (s : State) (l : LSlot), let d := s.dev
    let es := d.waitingEntries
    let chosen := fun (keep : Nat → Bool) (n k : Nat) => ((List.range n).filter (fun i => keep (k + i))).filterMap (fun i => (es[k + i]?).map (·.2))
    ∃ t : Device, exec (.commitEntryEnqueue l) s = .next { s with dev := t } ∧
      (t.commits.length = d.commits.length ∧ ∀ i c, d.commits[i]? = some c →
        let before := ((d.commits.take i).flatMap (·.pending)).length
        t.commits[i]? = some { c with pending := chosen (fun p => !d.enters l.val p) c.pending.length before }) ∧
      (∀ st ch, t.queue st ch = d.queue st ch ++
        (((chosen (d.enters l.val) es.length 0).filter (fun e => locStack e.loc == st && locCh e.loc == ch)).map (fun e => { e with stamp := d.mill }))) ∧
      { t with hbm := d.hbm, commits := d.commits } = d

/-- A position of the timeline reads, refreshes, scrubs and drains as its words say. When its time has come, a position of
a running ring issues, channel by channel, the activate due 28 positions ahead and the word's command where no timing
rule is broken: a read brings the line to its claims, a write drains the head of the queue, a refresh and a scrub do
theirs; ages count at the turn of the ring; a write into a closed bank activates its row 28 positions earlier and
precharges it at +33; a stalled entry is reported once; a web line reaches its copy. The model's choices that it rests
on: where position 0 begins and how positions count (log entry 83), the activate and precharge of a closed bank (84),
the scrub's write-back into a full queue (85), a read that nobody has claimed (86), and the tick at which a line
reaches its port (87). (R265, R266, R269, R270, R275, R276, R301.) -/
def Obligations.TheTimelineTakesItsPositions : Prop :=
  ∀ (s : State) (e : Instr) (t : Device), timelineRule s.dev e = some t → exec e s = .next { s with dev := t }

/-- A hold that lasts too long, or stands in a reservation's way, aborts its ream. A sheet that has held for 2^HOLD mill
ticks, or that meets a reservation, is aborted with a record of reason 1 or 2 that carries the mill tick at which the
hold began: its cores are at their checkpoints, its tick is the restart point, it is SHADOW and counts one more
replay; scratchpads and device memory are as they were. That the record carries that mill tick in INFO0 and names the
sheet's first core is the model's choice (log entry 79). (R193, R294, R297, R384.) -/
def Obligations.AnOverlongHoldAbortsItsReam : Prop :=
  ∀ (s : State) (l : LSlot) (began : Nat), let d := s.dev
    let x := d.launch l.val
    x.st = .active → x.mode = .hold began → x.replaysCur < d.replayCap →
    (2 ^ bitField d.vatcfg.toNat 48 8 ≤ d.mill - began ∨ d.reservations.any (fun r => r != l.val && (d.launch r).meets x) = true) →
    (∀ k, ∀ b ∈ (d.ctx l.val k).live.store, ∀ n g m, b.eff ≠ .submit n (some l.val) g m) →
    let reason := if 2 ^ bitField d.vatcfg.toNat 48 8 ≤ d.mill - began then 1 else 2
    let w := x.place l.val x.core0 (d.ctx l.val x.core0).live.pc
    ∃ t : Device, exec (.holdTimeout l) s = .next { s with dev := t } ∧
      (t.launch l.val).st = .shadow ∧ (t.launch l.val).tick = x.restart ∧ (t.launch l.val).need = none ∧
      (t.launch l.val).replaysCur = Nat.min 255 (x.replaysCur + 1) ∧
      t.log = (d.record (evOf 24 reason began 0 0 0) w { cls := 1, ends := false, replay := true }).1.log ∧
      (∀ core ∈ x.cores, (t.ctx l.val core).live = (d.ctx l.val core).ckpt) ∧ t.spad = d.spad ∧ t.dram = d.dram

namespace Sys2Proof.Machine

/-! ## Landing (R9, R28 to R34, R94, R112, R184, R197, R228, R296) -/

/-- A register of `8 * n` bits with bytes `lo` to `lo + len - 1` taken from `new`. -/
def splice (n : Nat) (old new : BitVec n) (lo len : Nat) : BitVec n :=
  let part := fun (x : BitVec n) (a k : Nat) => x.toNat / 2 ^ (8 * a) % 2 ^ (8 * k) * 2 ^ (8 * a)
  BitVec.ofNat n (part old 0 lo + part new lo len + old.toNat / 2 ^ (8 * (lo + len)) * 2 ^ (8 * (lo + len)))

/-- A register of a file replaced, every other as it was. -/
def setReg {α : Type} {n : Nat} (file : Vector α n) (r : Fin n) (v : α) : Vector α n := Vector.ofFn (fun k => if k = r then v else file[k])

/-- The registers after the landing of one write (R28 to R34, R93, R94): the register it names, and no other. -/
def Regs.landed (x : Regs) : RegWrite → Regs
  | .s r v => { x with s := setReg x.s r v }
  | .p r b => { x with p := setReg x.p r b }
  | .aAddr r v => { x with a := setReg x.a r { addr := v, inc := x.a[r].inc, wrap := x.a[r].wrap } }
  | .aInc r v => { x with a := setReg x.a r { addr := x.a[r].addr, inc := v, wrap := x.a[r].wrap } }
  | .aWrap r v => { x with a := setReg x.a r { addr := x.a[r].addr, inc := x.a[r].inc, wrap := v } }
  | .v r lo len v => { x with v := setReg x.v r (splice 4096 x.v[r] v lo len) }
  | .k r lo len v => { x with k := setReg x.k r (splice 512 x.k[r] v lo len) }
  | .m r v => { x with m := setReg x.m r v }
  | .tdata r v => { x with t := setReg x.t r { data := v, typ := x.t[r].typ, tag := x.t[r].tag } }
  | .ttype r w (some g) => { x with t := setReg x.t r { data := x.t[r].data, typ := w, tag := g } }
  | .ttype r w none => { x with t := setReg x.t r { data := x.t[r].data, typ := w, tag := x.t[r].tag } }
  | .cb r v => { x with cb := setReg x.cb r v }
  | .lw r v => { x with lw := setReg x.lw r v }
  | .lwBoff r v => { x with lw := setReg x.lw r (lwWithBoff x.lw[r] v.toNat) }
  | .fctl v => { x with fctl := v }
  | .fstat v => { x with fstat := v }
  | .hkey v => { x with hkey := v }
  | .mmrev v => { x with mmrev := v }
  | .dv _ => x
  | .hs _ _ => x
  | .hp _ _ => x

/-- The DIRTY bit of a register (R296). -/
def dirtyOf : RegWrite → Option Nat
  | .s r _ => some (r.val / 8)
  | .aAddr _ _ => some 8
  | .aInc _ _ => some 8
  | .aWrap _ _ => some 8
  | .p _ _ => some 9
  | .m _ _ => some 9
  | .v r _ _ _ => some (10 + r.val / 8)
  | .tdata r _ => some (18 + r.val)
  | .ttype r _ _ => some (18 + r.val)
  | .dv _ => some 34
  | .k _ _ _ _ => some 35
  | .cb _ _ => some 36
  | .lw _ _ => some 37
  | .lwBoff _ _ => some 37
  | .fctl _ => some 39
  | .fstat _ => some 39
  | .hkey _ => some 39
  | _ => none

/-- The DIRTY bits with those of some writes set. -/
def BitVec.dirtied (b : BitVec 41) (ws : List RegWrite) : BitVec 41 :=
  BitVec.ofFnLE (fun i => b[i] || ws.any (fun w => dirtyOf w == some i.val))

/-- Whether a write is of a program context's registers. -/
def RegWrite.program : RegWrite → Bool
  | .hs _ _ => false
  | .hp _ _ => false
  | _ => true

/-- The conditions under which the core of a sheet that runs lands one action at the sheet's tick: it is the one due by now, no event
waits, and the numbers of actions are each their own (R9). -/
structure Device.LandsOne (d : Device) (core l : Nat) (a : List Flight) (f : Flight) (b : List Flight) : Prop where
  active : (d.sheaf (core / 4)).active = some l
  running : (d.launch l).st = .active ∧ (d.launch l).mode = .run ∧ (d.launch l).ticked = false
  present : (d.ctx l core).present = true
  quiet : ∀ k, k = core ∨ k ∈ (d.launch l).cores → (d.ctx l k).pending = []
  split : (d.ctx l core).live.flights = a ++ f :: b
  due : f.due ≤ (d.launch l).tick
  later : ∀ g ∈ a ++ b, (d.launch l).tick < g.due ∧ g.seq ≠ f.seq

/-- The device with a context's actions in flight, registers and DIRTY bits replaced, nothing else. -/
def Device.landedCtx (d : Device) (l core : Nat) (fl : List Flight) (r : Regs) (b : BitVec 41) : Device :=
  let c := d.ctx l core
  d.setCtx l core { c with live := { c.live with flights := fl, regs := r }, dirty := b }

/-- Whether flags raise no enabled trap (R113). -/
abbrev Regs.trapFree (r : Regs) (fl : Flags) : Prop := r.fctl.toNat / 2 ^ 8 % 2 ^ 5 &&& fl.toNat = 0

/-- The write that adds some flags to FSTAT; none where there are none (R112). -/
def Regs.flagged (r : Regs) (fl : Flags) : List RegWrite := if fl = 0 then [] else [.fstat (r.fstat ||| fl.setWidth 32)]

/-- A row of `n` packed six-bit elements with a byte for each; a row of other elements as it stands. -/
def unpackedRow (n : Nat) (row : List Byte) : Nat :=
  let x := ofBytes row
  if n = 0 then x else ofBytes ((List.range n).map (fun j => BitVec.ofNat 8 (x / 2 ^ (6 * j) % 64)))

/-- The weight of a laid window from an index, at a destination format: its window's bits from the stream, its group's scale (R78 to
R80, R140, R166). -/
def laidWeightAt (byte : Nat → Byte) (w : BitVec 192) (give : Exact → Nat × Flags) (index : Nat) : Nat × Flags :=
  let j := index % lwN w
  let bit := fun t => let p := (j * lwKw w + t) % lwBits w
    (byte (lwSptr w + p / 8)).toNat / 2 ^ (p % 8) % 2 * 2 ^ t
  let v := laidValue (((List.range (lwWl w)).map bit).foldl (· + ·) 0) (lwMixm w) (lwMixc w)
  let g := (byte (lwGsptr w + j / 64)).toNat
  give (if g = 255 then .nan else (exactOfInt v).scale ((g : Int) - 127))

/-- The write of a window's BOFF advanced by some weights (R140, R166). -/
def advanced (adv : Option LwNum) (w : BitVec 192) (n : Nat) : List RegWrite :=
  adv.elim [] fun q => [.lwBoff q (BitVec.ofNat 26 ((lwBoff w + n * lwKw w) % lwBits w))]

/-- What a load or a command leaves when it completes from what it has captured: the device but for the context's registers, the
register writes, and the flags (R112, R140, R164, R166, R172 to R174, R176, R196, R230 to R232, R237, R414). -/
def Device.finishedAs (d : Device) (l core : Nat) (f : Flight) : Finish → Option (Device × List RegWrite × Flags)
  | .scalar r a n =>
    some (d, if r = 0 ∨ 60 ≤ r.val then [] else [.s r (dbl (ofBytes (Memory.readBytes f.buf a n)))], 0)
  | .vector r lines =>
    some (d, [.v r 0 512 (BitVec.ofNat 4096 (ofBytes (lines.flatMap (fun a => Memory.readBytes f.buf a 64))))], 0)
  | .gather r w addrs => some (d, [.v r 0 512 (vdata w (addrs.map (fun a => ofBytes (Memory.readBytes f.buf a (w / 8)))))], 0)
  | .scale q a => some (d, [.k q 0 64 (BitVec.ofNat 512 (ofBytes (Memory.readBytes f.buf a 64)))], 0)
  | .segment r seg => some (d, [.v r (64 * seg) 64 (BitVec.ofNat 4096 (ofBytes (Memory.readBytes f.buf 0 64) * 2 ^ (512 * seg)))], 0)
  | .tile t pair rows len n false =>
    some (d, ((pairRegs t pair).zip (tileData pair (rows.map (fun a => unpackedRow n (Memory.readBytes f.buf a len))))).map (fun p => .tdata p.1 p.2), 0)
  | .tile t _ rows 64 0 true =>
    some (d, [.tdata t (BitVec.ofNat 65536 (ofBytes (rows.flatMap (fun a => Memory.readBytes f.buf a 64))))], 0)
  | .tile _ _ _ _ _ true => none
  | .codebook q a =>
    let v := BitVec.ofNat 256 (ofBytes (Memory.readBytes f.buf a 32))
    let g := d.sheaf (core / 4)
    let gone := g.table.any (fun t => t.core == core && (t.a == some q || t.b == some q))
    some (if (d.ctx l core).live.regs.cb[q] ≠ v ∧ gone = true then d.setSheaf (core / 4) { g with table := none } else d, [.cb q v], 0)
  | .window q a =>
    let w := BitVec.ofNat 192 (ofBytes (Memory.readBytes f.buf a 24))
    if lwFails w (d.launch l).spSize = none then some (d, [.lw q w], 0) else none
  | .laid r w w32 adv md mask old off =>
    let n := if w32 then 32 else 16
    let base := 2097152 * core + ((d.launch l).seat core).spBase
    let weight := fun (i : Nat) =>
      laidWeightAt (fun p => Memory.read f.buf (base + p)) w (deliverFz md (i + off.toNat) (if w32 then .fp32 else .bf16)) (lwBoff w / lwKw w + i)
    let elem := fun (i : Nat) => match mask with
      | none => weight i
      | some (m, z) => if m / 2 ^ i % 2 = 1 then weight i else (if z then 0 else old.toNat / 2 ^ (n * i) % 2 ^ n, 0)
    let all := (List.range (4096 / n)).map elem
    some (d, .v r 0 512 (vdata n (all.map (·.1))) :: advanced adv w (4096 / n), (all.map (·.2)).foldl (· ||| ·) 0)
  | .bufRegion b typ k n tag rows len scales slen =>
    let six := if fmtWidth (tFmt typ.toNat) = 6 then k else 0
    some (d.setSheaf (core / 4) ((d.sheaf (core / 4)).setBuf b
      { typ := typ, k := k, n := n, tag := tag,
        cols := rows.map (fun a => BitVec.ofNat 2048 (unpackedRow six (Memory.readBytes f.buf a len))),
        scales := scales.flatMap (fun a => Memory.readBytes f.buf a slen), metas := List.replicate n none }), [], 0)
  | .bufLaid b typ k n w adv sat =>
    let base := 2097152 * core + ((d.launch l).seat core).spBase
    let weight := fun (j i : Nat) =>
      (laidWeightAt (fun p => Memory.read f.buf (base + p)) w (deliver { modesRne with sat := sat } 0 (.fl .bf16)) (lwBoff w / lwKw w + i + k * j)).1
    some (d.setSheaf (core / 4) ((d.sheaf (core / 4)).setBuf b
      { typ := typ, k := k, n := n, tag := 0,
        cols := (List.range n).map (fun j => BitVec.ofNat 2048 (ofElems 16 ((List.range k).map (weight j)))),
        scales := [], metas := List.replicate n none }), advanced adv w (k * n), 0)
  | .laidFlags w k n0 c sat =>
    let base := 2097152 * core + ((d.launch l).seat core).spBase
    let flags := fun (j i : Nat) =>
      (laidWeightAt (fun p => Memory.read f.buf (base + p)) w (deliver { modesRne with sat := sat } 0 (.fl .bf16)) (lwBoff w / lwKw w + i + k * j)).2
    some (d, [], (((List.range c).flatMap (fun j => (List.range k).map (flags (n0 + j)))).foldl (· ||| ·) 0))
  | .copyWindow id =>
    some ((Assoc.get none d.copies id).elim d (fun c => { d with copies := Assoc.set none d.copies id (some { c with window := f.buf }) }), [], 0)

/-- The actions that stay in flight when a codebook register changes: a table under construction from it is dropped (R172). -/
def Device.keptFlights (d : Device) (l core : Nat) (f : Flight) (fl : List Flight) : List Flight :=
  match f.op with
  | .finish (.codebook q a) =>
    if (d.ctx l core).live.regs.cb[q] = BitVec.ofNat 256 (ofBytes (Memory.readBytes f.buf a 32)) then fl
    else fl.filter (fun g => match g.op with
      | .table x y _ _ => x != some q && y != some q
      | _ => true)
  | _ => fl

/-- The bytes that an action of a store writes, from its address on (R228, R230, R231). -/
def storedBytes : FlyOp → Option (Nat × List Byte × Flags)
  | .store a b => some (a, b, 0)
  | .storeFlags a b fl => some (a, b, fl)
  | _ => none

/-- A unit of `n` bytes of global memory as an atomic finds it at its place in commit order: under its channel's queue, the commits
still waiting and the effects before it; none of an uncorrectable line (R211, R215, R278). -/
def Device.unitFound (d : Device) (own : List WqEntry) (g : GAddr) (n : Nat) : Option (List Byte) × Device :=
  if paTarget g.pa ≠ 0 then (some (Memory.readBytes d.hostMem (g.pa % 2 ^ 44) n), d)
  else
    let loc := dramMap g.pa g.im g.sw
    let above := d.queue (locStack loc) (locCh loc) ++ (d.commits.flatMap (·.pending) ++ own)
    let unit := fun (x : Line) => (bytesOf 64 (overlay loc x above).toNat).drop (g.pa % 64) |>.take n
    match rsDecode (d.cells loc) with
    | .clean x => (some (unit x), d)
    | .corrected x e => (some (unit x), d.note 0 Where.device (correctedEv loc e))
    | .bad => (none, d.deviceEvent (evOf 26 1 (locationWord loc) 0 0 0))

/-- What an effect adds to a commit at its place in commit order (R211, R213, R215, R245, R246): a write's lines, one entry for each;
an atomic's new unit and the old value on its way to the core; an untimed copy's start; any other effect to the signal phase. -/
def dataRule (due core : Nat) (b : Buffered) (p : DataPhase) (d : Device) : DataPhase × Device :=
  match b.eff with
  | .write _ _ lines bytes =>
    let bs := bytes.getD []
    ({ p with entries := p.entries ++ (lines.filter (fun x => paTarget x.2.pa == 0)).map (fun x => bytesEntry x.2 bs) },
      { d with hostMem := (bs.filter (fun x => paTarget x.addr.pa == 1)).foldl (fun m x => Memory.write m (x.addr.pa % 2 ^ 44) x.val) d.hostMem })
  | .gatom g n op v c ret =>
    let (found, e) := d.unitFound p.entries g n
    let (old, e) := match found with
      | some x => (x, e)
      | none => ((List.range n).map (fun i => Config.freeByte (2 ^ 128 + 64 * e.fresh + i)), { e with fresh := e.fresh + 1 })
    let new := bytesOf n (atomNew op n (ofBytes old) v.toNat c.toNat)
    let back := match ret with
      | some r => if r = 0 ∨ 60 ≤ r.val then none else some r
      | none => none
    let p := match back with
      | some r => { p with returns := p.returns ++ [(core, { seq := e.seq, due := due, pc := b.pc, issued := b.issued, slot := 0, op := .atomRet r (dbl (ofBytes old)), buf := [] })] }
      | none => p
    let e := if back.isSome then { e with seq := e.seq + 1 } else e
    if paTarget g.pa ≠ 0 then (p, { e with hostMem := Memory.writeBytes e.hostMem (g.pa % 2 ^ 44) new })
    else if found.isSome then ({ p with entries := p.entries ++ [spanEntry g new] }, e)
    else (p, e)
  | .copy n =>
    (p, (Assoc.get none d.ucopies n).elim d (fun u =>
      { d with ucopies := Assoc.set none d.ucopies n (some { u with started := true, due := d.mill + 1 + Config.engineDelay d.fresh }), fresh := d.fresh + 1 }))
  | e => ({ p with signals := p.signals ++ [(core, e)] }, d)

/-- The data phase of some effects, one after another in commit order. -/
def dataPhase (due : Nat) : List (Nat × Buffered) → DataPhase → Device → DataPhase × Device
  | [], p, d => (p, d)
  | (core, b) :: t, p, d => dataPhase due t (dataRule due core b p d).1 (dataRule due core b p d).2

/-- The effects of a sheet's ream in commit order: ascending core index, within a core issue order (R211). -/
def Device.inCommitOrder (d : Device) (l : Nat) : List (Nat × Buffered) :=
  (d.launch l).cores.flatMap (fun core => (d.ctx l core).live.store.map (fun b => (core, b)))

end Sys2Proof.Machine

/-- A result, and a load or a command that completes, lands in exactly its registers. Where one action of a core is due,
the landing writes exactly its registers (scalar, predicate, address field, vector bytes, mask, tile, type word,
dimension, scale, codebook, window, special register), ORs its flags into FSTAT, marks DIRTY, and changes nothing
else; a load or a command that completes (scalar, vector, gather, scale, segment, tile of every layout, six-bit rows
among them, codebook, window, laid window, press buffer of a region or of laid weights, and the window of a copy)
writes what it captured, and where it is a buffer, exactly that buffer; and where nothing is due, nothing changes. The
flags are such that no trap is enabled; the cases of an enabled one are in InstructionsStopWhereTheirRulesSay. That
the events of all cores of a tick are served once the last core has landed is the model's choice (log entry 142). (R9,
R28, R30, R32, R33, R34, R94, R112, R184, R228, R296.) -/
def Obligations.AResultLandsInItsRegistersAlone : Prop :=
  (∀ (s : State) (core : CoreIx) (l : Nat) (a b : List Flight) (f : Flight) (ws : List RegWrite) (fl : Flags) (vd : Option VNum),
    s.dev.LandsOne core.val l a f b → f.op = .regs ws fl vd → (∀ w ∈ ws, w.program = true) →
    let c := s.dev.ctx l core.val
    let r := ws.foldl Regs.landed c.live.regs
    let all := ws ++ r.flagged fl
    r.trapFree fl →
    exec (.resultLanding core) s =
      .next { s with dev := s.dev.landedCtx l core.val (a ++ b) (all.foldl Regs.landed c.live.regs) (c.dirty.dirtied all) }) ∧
  (∀ (s : State) (core : CoreIx) (l : Nat) (a b : List Flight) (f : Flight) (x : Finish) (u : Device) (ws : List RegWrite) (fl : Flags),
    s.dev.LandsOne core.val l a f b → f.op = .finish x → s.dev.finishedAs l core.val f x = some (u, ws, fl) →
    let c := s.dev.ctx l core.val
    let all := ws ++ c.live.regs.flagged fl
    c.live.regs.trapFree fl →
    exec (.resultLanding core) s =
      .next { s with dev := u.landedCtx l core.val (s.dev.keptFlights l core.val f (a ++ b)) (all.foldl Regs.landed c.live.regs) (c.dirty.dirtied all) }) ∧
  (∀ (s : State) (core : CoreIx) (l : Nat),
    (s.dev.sheaf (core.val / 4)).active = some l → (∀ k, k = core.val ∨ k ∈ (s.dev.launch l).cores → (s.dev.ctx l k).pending = []) →
    (∀ f ∈ (s.dev.ctx l core.val).live.flights, (s.dev.launch l).tick < f.due) →
    exec (.resultLanding core) s = .next s)

/-- A store lands exactly its bytes, in a scratchpad or the felt. Where a store is due, every byte from its address on
reads as the store's, every other byte of the scratchpads as before, the pages it meets are marked written, its flags
are ORed into FSTAT, and every other memory, register and field of the device is as it was; for a line of the felt the
same, its 64 bytes in the felt, its line's stamp the landing tick, and every other field of every sheaf (the other
stamps, buffers, lease and deckle) as before. That the events of all cores of a tick are served once the last core has
landed is the model's choice (log entry 142). (R197, R228, R229, R231.) -/
def Obligations.AStoreLandsItsBytesAlone : Prop :=
  (∀ (s : State) (core : CoreIx) (l : Nat) (a b : List Flight) (f : Flight) (at_ : Nat) (bytes : List Byte) (fl : Flags),
    s.dev.memoriesWf = true → s.dev.LandsOne core.val l a f b → storedBytes f.op = some (at_, bytes, fl) →
    let c := s.dev.ctx l core.val
    let ws := c.live.regs.flagged fl
    c.live.regs.trapFree fl →
    ∃ t : Device, exec (.resultLanding core) s = .next { s with dev := t } ∧
      (∀ i, i < bytes.length → Memory.read t.spad (at_ + i) = bytes.getD i 0) ∧
      (∀ k, k < at_ ∨ at_ + bytes.length ≤ k → Memory.read t.spad k = Memory.read s.dev.spad k) ∧
      (∀ k, Assoc.get false t.spDirty k = (Assoc.get false s.dev.spDirty k ||
        decide (bytes ≠ [] ∧ at_ / 4096 ≤ k ∧ k ≤ (at_ + bytes.length - 1) / 4096))) ∧
      { t with spad := s.dev.spad, spDirty := s.dev.spDirty } =
        s.dev.landedCtx l core.val (a ++ b) (ws.foldl Regs.landed c.live.regs) (c.dirty.dirtied ws)) ∧
  (∀ (s : State) (core : CoreIx) (l : Nat) (a b : List Flight) (f : Flight) (line : Nat) (v : Line) (fl : Flags),
    s.dev.memoriesWf = true → s.dev.LandsOne core.val l a f b → f.op = .felt line v fl →
    let at_ := feltKey (core.val / 4) line
    let c := s.dev.ctx l core.val
    let ws := c.live.regs.flagged fl
    let g := s.dev.sheaf (core.val / 4)
    c.live.regs.trapFree fl →
    ∃ t : Device, exec (.resultLanding core) s = .next { s with dev := t } ∧
      (∀ i, i < 64 → Memory.read t.felt (at_ + i) = BitVec.ofNat 8 (v.toNat / 2 ^ (8 * i))) ∧
      (∀ k, k < at_ ∨ at_ + 64 ≤ k → Memory.read t.felt k = Memory.read s.dev.felt k) ∧
      { t with felt := s.dev.felt } =
        (s.dev.setSheaf (core.val / 4) { g with stamps := Assoc.set none g.stamps line (some f.due) }).landedCtx l core.val (a ++ b)
          (ws.foldl Regs.landed c.live.regs) (c.dirty.dirtied ws))

/-- What lands at a tick only adds to FSTAT, unless an MTSR of FSTAT is among it. Whatever results of a core land at a
tick, where no MTSR of FSTAT is among them, every flag that FSTAT held it still holds. (An abort, CTXLD, DBGDATA and a
handler's write of the interrupted register replace FSTAT by their own rules, and are not landings.) (R94, R112.) -/
def Obligations.LandingOnlyAddsToTheFlags : Prop :=
  ∀ (d : Device) (l core t : Nat),
    (∀ f ∈ (d.ctx l core).live.flights, ∀ ws fl vd, f.op = .regs ws fl vd → ∀ v, .fstat v ∉ ws) →
    let old := (d.ctx l core).live.regs.fstat
    ((landCore l core t d).ctx l core).live.regs.fstat &&& old = old

/-- A commit at a ream's end takes a checkpoint and releases the store buffers. BND's commit, of a launch none of whose
units is cancelled, puts one commit at the end of those that wait, which holds the ream's buffered effects in commit
order (ascending core, then issue order): each write an entry of its lines, each atomic its new unit, its old value on
its way to the issuing core, each untimed copy started, every other effect in the signal phase; the entries that find
room enter their queues at once. It sets the restart point to the next tick, takes each core's registers and program
counter as its checkpoint, resets BUDGET, empties the store buffers and forgets the popped entries; the scratchpads,
the felt, the accumulators and device memory are as before. The model's choices that it rests on: the instants of the
signal phase and of an engine's start are free values (log entries 4 and 68), what an atomic gives back of an
uncorrectable line is a free value and it writes nothing (63), and a cancel that names the launch itself joins its own
commit (156). (R192, R193, R209, R211, R300, R385.) -/
def Obligations.ACommitReleasesItsReam : Prop :=
  ∀ (d : Device) (l : Nat), let x := d.launch l
    (∀ u ∈ x.units, u.2.2.1 = false) →
    let t := commitReam l d
    let all := dataPhase (x.tick + 25) (d.inCommitOrder l) { entries := [], returns := [], signals := [] } d
    let p := all.1
    let e := all.2
    let exited := x.cores.filter (fun core => (d.ctx l core).live.exited)
    let can := x.cancel || (d.inCommitOrder l).any (fun q => d.cancelsSelf l [q.2])
    let last := can || decide (exited.length = x.ncores)
    let c : Commit :=
      { l := l, at_ := d.mill, tick := x.tick, pending := settleUnits [] p.entries, signals := p.signals, last := last, early := false,
        sys := systemScope l d, exits := (exited.map (fun core => core - x.core0)).filter (fun u => !(x.unit u).2.1),
        due := e.mill + 1 + (if last then Config.engineDelay e.fresh % 32 else Config.engineDelay e.fresh), signalled := false, can := can, err := false,
        pages := (d.inCommitOrder l).flatMap (fun q => q.2.pages.map (fun g => (q.1, x.asid, g))) }
    let u := enterAll { e with commits := e.commits ++ [c], fresh := e.fresh + 1 }
    t.commits = u.commits ∧ t.hostMem = u.hostMem ∧ t.ucopies = u.ucopies ∧ (∀ st ch, t.queue st ch = u.queue st ch) ∧
    (t.launch l).st = x.st ∧ (t.launch l).mode = .commit ∧ (t.launch l).restart = x.tick + 1 ∧ (t.launch l).tick = x.tick ∧
    (t.launch l).replaysCur = 0 ∧ (t.launch l).fences = 0 ∧ t.spad = d.spad ∧ t.felt = d.felt ∧ t.acc = d.acc ∧ t.dram = d.dram ∧
    (∀ core ∈ x.cores, let c := t.ctx l core
      c.live.regs = (d.ctx l core).live.regs ∧ c.live.store = [] ∧ c.live.budget = x.budget ∧ c.live.effects = 256 ∧
      c.ckpt.regs = (d.ctx l core).live.regs ∧ c.ckpt.pc = (d.ctx l core).live.pc ∧ c.popped = Vector.replicate 4 [] ∧
      c.live.flights = (d.ctx l core).live.flights ++ (p.returns.filter (fun q => q.1 == core)).map (·.2))

namespace Sys2Proof.Machine

/-! ## Bundles of several slots, reissues and the handler's bundles (R41, R55, R175, R188, R300, R387) -/

/-- The tile or press command of a bundle with its slot, which REP repeats (R175). -/
def commandOf (ys : List Slot) : Option (Instr × Nat) := (ys.find? (fun y => tileClass y.instr)).map (fun y => (y.instr, y.ix))

/-- The device as a slot of a bundle reads it: the state at the bundle's issue, the numbers of what the slots before it left taken. -/
def Device.slotView (d : Device) (ys : List Slot) (n : Nat) (y : Slot) : Device :=
  { d with seq := n, issue := { d.issue with slot := y.ix, cmd := commandOf ys } }

/-- What a slot of a bundle does: the rules are those of the instruction alone (R41). -/
def slotDoes (d : Device) (i : Instr) : Option Did :=
  match i with
  | .hsig _ _ => controlRule d i
  | .pclr _ => (pressRule d d i).map (fun p => p.2)
  | .rep _ _ _ _ => (pressRule d d i).map (fun p => p.2)
  | .ldb _ _ _ => memoryRule d d i
  | .ldh _ _ _ => memoryRule d d i
  | .ldw _ _ _ => memoryRule d d i
  | .ldd _ _ _ => memoryRule d d i
  | .stb _ _ _ => memoryRule d d i
  | .sth _ _ _ => memoryRule d d i
  | .stw _ _ _ => memoryRule d d i
  | .std _ _ _ => memoryRule d d i
  | .vld _ _ _ => memoryRule d d i
  | .vst _ _ _ => memoryRule d d i
  | i =>
    match scalarRule d i, predicateRule d i, addressRule d i with
    | some (n, r, v), _, _ => some { flights := results n [.s r v] 0 none }
    | _, some (p, b), _ => some { flights := results 1 [.p p b] 0 none }
    | _, _, some w => some { flights := results 1 [w] 0 none }
    | _, _, _ => none

/-- The slots of a bundle, each with the first number it takes and what it does, all of the state at the issue; a memory slot's
bank-ticks are those of its port, which is its place among the memory slots (R41). -/
def Device.slotsDo (d : Device) (ys : List Slot) : Nat → Nat → List Slot → Option (List (Device × Did))
  | _, _, [] => some []
  | n, port, y :: t =>
    let v := d.slotView ys n y
    (slotDoes v y.instr).bind fun x =>
    let x := if memoryClass y.instr then { x with uses := x.uses.map (fun u => { u with code := port }) } else x
    (d.slotsDo ys (n + x.flights.length + x.more) (if memoryClass y.instr then port + 1 else port) t).map fun r => (v, x) :: r

/-- The actions that the slots of a bundle put in flight, in slot order. -/
def inFlight (l : List (Device × Did)) : List Flight := l.flatMap (fun p => p.1.numbered p.1.seq p.2.flights)

/-- The device of a bundle about to issue, its issue named: the context, the bundle and its length. -/
def Device.bundleView (d : Device) (l core : Nat) (b : Bundle) : Device :=
  { d with issue := { Issue.idle with core := core, l := l, nslots := b.nslots, template := b.template } }

/-- The conditions under which a bundle of some slots, NOPs apart, issues: those of one instruction, of all of them together (R31, R35,
R191, R201, R300). -/
structure Device.BundleClear (d : Device) (ys : List Slot) (l : List (Device × Did)) : Prop where
  present : d.cur.present = true
  landed : ∀ f ∈ d.live.flights, d.now < f.due
  inside : (d.now + 1) % d.curLaunch.ream ≠ 0
  queues : ∀ q : Fin 4, (namedQueues (ys.map (fun y => y.instr)))[q] = true → d.cur.queues[q] ≠ []
  lands : ∀ f ∈ inFlight l, findLanding f.due f.op.places d.live.flights = none
  apart : (inFlight l).Pairwise (fun f g => f.due = g.due → ∀ p ∈ f.op.places, ∀ q ∈ g.op.places, p.meets q = false)
  banks : findConflict (d.bankPlans d.issue.l) ((l.flatMap (fun p => p.2.uses)).map (fun u => (0, u))) = none
  budget : (l.map (fun p => p.2.effects)).sum ≤ d.live.effects

/-- The device after a bundle: each slot has done what it does, each queue that any slot names has given one entry, and the bundle has
one successor. -/
def Device.afterBundle (d : Device) (ys : List Slot) (l : List (Device × Did)) : Device :=
  let x : Did :=
    { uses := l.flatMap (fun p => p.2.uses), press := l.flatMap (fun p => p.2.press), store := l.flatMap (fun p => p.2.store),
      reps := l.flatMap (fun p => p.2.reps), dims := l.findSome? (fun p => p.2.dims), promises := l.findSome? (fun p => p.2.promises),
      lines := (l.map (fun p => p.2.lines)).sum, effects := (l.map (fun p => p.2.effects)).sum }
  let c := d.ctxAfter .nop x
  let named := namedQueues (ys.map (fun y => y.instr))
  let c := { c with
    live := { c.live with flights := d.live.flights ++ inFlight l }
    queues := Vector.ofFn (fun q => if named[q] then d.cur.queues[q].drop 1 else d.cur.queues[q])
    popped := Vector.ofFn (fun q => if named[q] then d.cur.popped[q] ++ d.cur.queues[q].take 1 else d.cur.popped[q]) }
  { d with
    ctxs := Assoc.set Ctx.empty d.ctxs (ctxKey d.issue.l d.issue.core) c
    seq := d.seq + (l.map (fun p => p.2.flights.length + p.2.more)).sum
    issue := Issue.idle }

/-- The device as the handler's bundle of a context is about to issue one instruction (R387). -/
def Device.handlerView (d : Device) (l core pc : Nat) (b : Bundle) (ix : Nat) : Device :=
  { d with issue := { Issue.idle with core := core, l := l, pc := pc, handler := true, nslots := b.nslots, template := b.template, slot := ix } }

/-- The device as the reissue of a repeat sees it: the bundle and the slot of the command it repeats (R175). -/
def Device.reissueView (d : Device) (l core : Nat) (r : Rep) : Device :=
  let e := { d with issue := { Issue.idle with core := core, l := l, tick := (d.launch l).tick, slot := r.slot, pc := r.pc } }
  e.setLive { e.live with pc := r.pc }

/-- What a repeatable command does, with the device that it leaves outside the issuing context; `o` is the device as its slot sees
it (R164 to R171). -/
def repeatRule (d o : Device) (i : Instr) : Option (Device × Did) := if repeatable i then (pressRule d o i).or (drainingRule d o i) else none

/-- A reissue steps the address registers that its command names as well (R175). -/
def Device.reissued (d : Device) (i : Instr) (x : Did) : Did := { x with flights := x.flights ++ d.repSteps i }

/-- What a reissue in an empty tick leaves, given what its command did and the device outside the context that this left. -/
def Device.afterReissue (d now : Device) (l core : Nat) (r : Rep) (x : Did) : Device :=
  let c := d.ctx l core
  let v := c.live
  let t := (d.launch l).tick
  let e := d.reissueView l core r
  let heads := e.heads (r.command (r.done + 1))
  let live : Live := { v with
    regs := { v.regs with dv := x.dims.getD v.regs.dv }
    flights := v.flights ++ e.numbered d.seq x.flights
    banks := v.banks.filter (fun b => decide (t ≤ b.hi)) ++ x.uses
    press := (v.press ++ x.press).filter (fun p => decide (t ≤ p.hi))
    reps := (v.stepReps t x.lines).reps }
  { now with
    ctxs := Assoc.set Ctx.empty d.ctxs (ctxKey l core)
      { c with
        live := live
        queues := Vector.ofFn (fun q => if heads[q].isSome then c.queues[q].drop 1 else c.queues[q])
        popped := Vector.ofFn (fun q => c.popped[q] ++ heads[q].toList)
        promises := x.promises.getD c.promises
        before := some (t, v, Vector.ofFn (fun q => c.popped[q].length)) }
    seq := d.seq + x.flights.length
    issue := Issue.idle }

/-- The device as the reissue beside a bundle sees it: the address and the slot of the command it repeats, the numbers that the slots of
the bundle leave (R175). -/
def Device.besideView (d : Device) (r : Rep) (x : List (Device × Did)) : Device :=
  let e := d.setLive { d.live with pc := r.pc }
  { e with seq := d.seq + (x.map (fun p => p.2.flights.length + p.2.more)).sum, issue := { d.issue with slot := r.slot } }

/-- The device as its slot reads it: beside other slots, with the type words that have been installed at this tick (R145). -/
def Device.besideOpened (w : Device) (ys : List Slot) (i : Instr) : Device :=
  let o := w.opened i
  { o with issue := { o.issue with types := if ys.isEmpty then [] else o.installs } }

/-- Whether a bundle may go beside a reissue: it holds no tile or press slot and no REP (R175). -/
def besideReissue (ys : List Slot) : Bool :=
  ys.all (fun y => !tileClass y.instr && (match y.instr with
    | .rep _ _ _ _ => false
    | _ => true))

end Sys2Proof.Machine

/-- A bundle does what each of its slots does, all reading the state before it. A core's issue, and the issue that ends an
early commit, of a bundle whose slots are scalar, predicate, address, loads, stores, vector loads and stores, HSIG,
and PCLR with REP, leaves the state in which every slot's actions are in flight, in slot order and each computed from
the registers before the bundle; memory slots take ports 0 and 1 by their order; each queue named gives one entry; the
successor is that of the bundle. (R31, R41, R42, R175, R188, R300, R305, R311.) -/
def Obligations.ABundleDoesWhatEachOfItsSlotsDoes : Prop :=
  (∀ (s : State) (core : CoreIx) (l : Nat) (now : Bool) (b : Bundle) (x : List (Device × Did)),
    (s.dev.sheaf (core.val / 4)).active = some l → s.dev.mayIssue l core = true → s.dev.tickPasses l now →
    let pc := (s.dev.ctx l core).live.pc
    let e := readWords core (s.dev.launch l).asid pc (beginTick l now s.dev)
    let ys := b.slots.filter (fun y => !isNop y.instr)
    e.bundleAt core (s.dev.launch l).asid pc = .ok b →
    let d := e.bundleView l core b
    d.live.dueReps d.now = [] → d.slotsDo ys d.seq 0 ys = some x → d.BundleClear ys x →
    exec (.issueBundle core) s = .next { s with dev := d.afterBundle ys x }) ∧
  (∀ (s : State) (l : LSlot) (core : Nat) (b : Bundle) (x : List (Device × Did)),
    (s.dev.launch l.val).st = .active → (s.dev.launch l.val).mode = .early core → (s.dev.launch l.val).asked = false →
    s.dev.committing l.val = false → s.dev.handling l.val = false →
    let pc := (s.dev.ctx l.val core).live.pc
    let e := readWords core (s.dev.launch l.val).asid pc
      (s.dev.setLaunch l.val { s.dev.launch l.val with mode := .run, ticked := true, issuedAt := s.dev.mill })
    let ys := b.slots.filter (fun y => !isNop y.instr)
    e.bundleAt core (s.dev.launch l.val).asid pc = .ok b →
    let d := e.bundleView l.val core b
    d.live.dueReps d.now = [] → d.slotsDo ys d.seq 0 ys = some x → d.BundleClear ys x →
    exec (.earlyCommitResume l) s = .next { s with dev := d.afterBundle ys x })

/-- A repeated command issues again, in an empty tick and beside a bundle. Where a repeat of PLDB, PLAID, PMMA, PMMZ, PCLR
or PDRN is due at a tick at which its core issues no bundle, the command, its slot or tile, its felt line and its
addresses stepped, does what its rule gives, and the address registers advance at issue + 1; at a tick at which the
core also issues a bundle without a tile or press slot or REP (of the slots that ABundleDoesWhatEachOfItsSlotsDoes
names), the bundle's slots and the reissue do what their rules give together, each computed from the registers before
the tick. That what is due at the reissue's own tick happens as soon as it has issued is the model's choice (log entry
115). (R175.) -/
def Obligations.ARepeatedCommandIssuesAgain : Prop :=
  (∀ (s : State) (core : CoreIx) (l : Nat) (r : Rep) (now : Device) (x : Did),
    let c := s.dev.ctx l core.val
    (s.dev.sheaf (core.val / 4)).active = some l → (s.dev.launch l).st = .active → (s.dev.launch l).mode = .run → c.present = true →
    c.live.exited = false → c.live.next ≠ (s.dev.launch l).tick → c.live.dueReps (s.dev.launch l).tick = [r] →
    (∀ f ∈ c.live.flights, (s.dev.launch l).tick < f.due) →
    let i := r.command (r.done + 1)
    let d := s.dev.reissueView l core.val r
    d.queuesReady i = true → repeatRule d (d.opened i) i = some (now, x) →
    let y := d.reissued i x
    d.Clear y →
    exec (.repReissue core) s =
      .next { s with dev := landCore l core.val (s.dev.launch l).tick (s.dev.afterReissue now l core.val r y) }) ∧
  (∀ (s : State) (core : CoreIx) (l : Nat) (pass : Bool) (b : Bundle) (x : List (Device × Did)) (r : Rep) (now : Device) (z : Did),
    (s.dev.sheaf (core.val / 4)).active = some l → s.dev.mayIssue l core = true → s.dev.tickPasses l pass →
    let pc := (s.dev.ctx l core).live.pc
    let e := readWords core (s.dev.launch l).asid pc (beginTick l pass s.dev)
    let ys := b.slots.filter (fun y => !isNop y.instr)
    e.bundleAt core (s.dev.launch l).asid pc = .ok b → besideReissue ys = true →
    let d := e.bundleView l core b
    let i := r.command (r.done + 1)
    d.live.dueReps d.now = [r] → d.slotsDo ys d.seq 0 ys = some x →
    let w := d.besideView r x
    repeatRule w (w.besideOpened ys i) i = some (now, z) → w.PressFree z.press →
    let all := ys ++ [⟨r.slot, i⟩]
    let y := x ++ [(w, w.reissued i z)]
    d.BundleClear all y →
    let t := d.afterBundle all y
    exec (.issueBundle core) s = .next { s with dev := landCore l core d.now { now with ctxs := t.ctxs, seq := t.seq, issue := Issue.idle } })

/-- The handler issues its bundles one a mill tick. Where the handler of a core is due, the issue of its bundle is exec of
the one instruction that the bundle holds, in the handler context; so CMP, PAND, POR, PNOT, NOP, JMP, BR, BRP and MTSR
complete there as their statement says. (R387.) -/
def Obligations.TheHandlerIssuesItsBundles : Prop :=
  ∀ (s : State) (core : CoreIx) (l : Nat) (h : Handler) (b : Bundle) (ix : Nat) (i : Instr),
    (s.dev.sheaf (core.val / 4)).active = some l → (s.dev.ctx l core.val).present = true → (s.dev.ctx l core.val).handler = some h →
    h.next ≤ s.dev.mill → h.outcome = none →
    let e := readWords core.val (s.dev.launch l).asid h.pc s.dev
    e.bundleAt core.val (s.dev.launch l).asid h.pc = .ok b →
    (b.slots.filter (fun y => !isNop y.instr) = [⟨ix, i⟩] ∨ (i = .nop ∧ b.slots.filter (fun y => !isNop y.instr) = [])) →
    isSlot i = true →
    let d := e.handlerView l core.val h.pc b ix
    exec (.handlerIssueBundle core) s = exec i { s with dev := d } ∧
    (∀ w pc, i.wf = true → (∀ x ∈ scalarFields i, x.val < 16) → handlerControl d i = some (w, pc) →
      (∀ x, w = some x → d.handlerFree 1 x) →
      let c' : Ctx := { d.cur with hfly := d.cur.hfly ++ (w.map (fun x => (d.mill + 1, x))).toList }
      exec (.handlerIssueBundle core) s = .next { s with dev := d.handlerGoesOn c' h pc })

/-- A wait point whose condition does not hold begins a hold. Where the check of a sheet's tick finds wait points that do
not all pass, the sheet holds from this mill tick and issues nothing; a core that may not issue leaves everything as
it is. That the next state keeps the counters as seen when the sheet was first delayed is the model's choice (log
entry 64). (R187, R188, R189.) -/
def Obligations.ABundleThatMustWaitHoldsItsSheet : Prop :=
  (∀ (s : State) (core : CoreIx) (l : Nat), let x := s.dev.launch l
    (s.dev.sheaf (core.val / 4)).active = some l → s.dev.mayIssue l core = true → x.checked ≠ x.tick + 1 → s.dev.sheetCheck l = .hold →
    exec (.issueBundle core) s = .next { s with dev := seeCounters l x.cores (s.dev.setLaunch l { x with mode := .hold s.dev.mill }) }) ∧
  (∀ (s : State) (core : CoreIx) (l : Nat), (s.dev.sheaf (core.val / 4)).active = some l → s.dev.mayIssue l core = false →
    exec (.issueBundle core) s = .next s)

namespace Sys2Proof.Machine

/-! ## The untimed engines and the wove (R180, R202, R217, R245, R253, R255 to R258, R346 to R350) -/

/-- An asynchronous error of a context (R380, code 29). -/
def Device.errorOf (d : Device) (key reason i0 i1 : Nat) : Device :=
  d.note 5 { pc := 0, tick := 0, asid := d.keyAsid key, lslot := key / 640, core := key % 640 } (evOf 29 reason i0 i1 0 0)

/-- Pieces of scratchpad written one after another. -/
def Device.storing (d : Device) (l : List (Nat × List Byte)) : Device := l.foldl (fun d p => spWrite p.1 p.2 d) d

/-- A barrier with more signals: CNT stops at its largest value (R252). -/
def Device.signalled (d : Device) (a v : Nat) : Device :=
  spWrite a (bytesOf 4 (Nat.min (2 ^ 32 - 1) (ofBytes (Memory.readBytes d.spad a 8) % 2 ^ 32 + v))) d

/-- What follows the data of an engine: the header's TYPE and TAG, an entry for a receive queue, and the barrier's signal. -/
def Device.notified (d : Device) (g : Signal) : Device :=
  let d := g.header.elim d (fun h => spWrite (h.1 + 8) [Memory.read d.spad (h.1 + 8) + 1] (spWrite h.1 (bytesOf 8 h.2.toNat) d))
  let d := g.note.elim d (fun n => pushQueue { link := some n.1, key := g.key, q := n.2.1, v := n.2.2 } d)
  if g.v = 0 then d else d.signalled g.at_ g.v

/-- A signal under way with the pieces that it may write at this tick written (R202, R343): lost where its context is gone, over where
every bank it needs is free, else with the pieces left. -/
def Device.delivered (d : Device) (g : Signal) : Option Signal × Device :=
  if (d.ctxAt g.key).present = false then (none, d.errorOf g.key 6 0 0)
  else
    let now := g.data.filter (fun p => d.bankFree p.1)
    let left := g.data.filter (fun p => !d.bankFree p.1)
    let rest := (g.header.map (fun h => d.bankFree h.1)).getD true && (decide (g.v = 0) || d.bankFree g.at_)
    if left = [] ∧ rest = true then (none, (d.storing now).notified g) else (some { g with data := left }, d.storing now)

/-- An engine that has finished: what it writes and signals, now or as the banks become free. -/
def Device.finished (d : Device) (g : Signal) : Device :=
  match d.delivered g with
  | (none, e) => e
  | (some h, e) => { e with signals := Assoc.set none e.signals e.seq (some h), seq := e.seq + 1 }

/-- The report of a command: its bytes, cut at the ends of lines, then its barrier's signal. -/
def Device.reported (d : Device) (key a : Nat) (l : List Byte) (bar : Nat) : Device :=
  d.finished { key := key, at_ := bar, v := 1, due := 0, data := linePieces a l, header := none, note := none }

/-- A free mill tick at which an untimed engine next acts (R202). -/
def Device.nextAct (d : Device) : Nat := d.mill + 1 + Config.engineDelay d.fresh

/-- The destination line that an untimed copy writes next, with the rows that have bytes in it and the source lines that these need. -/
def UCopy.front (u : UCopy) : Option (Nat × List Nat × List Nat) :=
  u.todo.head?.map fun p =>
    let rows := (u.todo.filter (fun q => q.2 == p.2)).map (fun q => q.1)
    (p.2, rows, rows.flatMap (fun row => u.spec.sourceLines row (u.spec.pieceOf row p.2).1 (u.spec.pieceOf row p.2).2))

/-- A source line as an untimed copy reads it: of its scratchpad through a free bank-tick, of device memory or of host memory. -/
def UCopy.source (d : Device) (u : UCopy) (a : Nat) : Option Line :=
  if u.spec.fromSp then
    if d.ctxGone u.srcCtx then none else if d.bankFree a then some (lineOf (Memory.readBytes d.spad a 64)) else none
  else
    (u.srcPages.find? (fun p => p.1 == a)).bind fun p =>
    if paTarget p.2.pa = 0 then d.cleanLine (dramMap p.2.pa p.2.im p.2.sw)
    else if paTarget p.2.pa = 1 then some (lineOf (Memory.readBytes d.hostMem (p.2.pa % 2 ^ 44) 64))
    else none

/-- The device with the pieces of a destination line written at one instant (R217): in a scratchpad, in host memory, or as an entry of
its channel's queue; none where it must wait. -/
def UCopy.target (d : Device) (u : UCopy) (line : Nat) (rows : List Nat) : Option Device :=
  let ps := u.linePieces line rows
  if u.spec.global then
    (u.dstPages.find? (fun p => p.1 == va48 line)).bind fun p =>
    let bs : List GByte := ps.flatMap (fun q => (q.2.zip (rangeFrom 0 q.2.length)).map (fun b => { addr := p.2.plus (q.1 - line + b.2), val := b.1 }))
    if paTarget p.2.pa = 1 then some { d with hostMem := hostBytes d.hostMem bs }
    else if paTarget p.2.pa = 0 ∧ d.engineRoom p.2 = true then
      let e := bytesEntry p.2 bs
      some (d.setQueue (locStack e.loc) (locCh e.loc) (d.queue (locStack e.loc) (locCh e.loc) ++ [{ e with stamp := d.mill }]))
    else none
  else if d.ctxGone u.dstCtx = false ∧ d.bankFree line = true then some (d.storing ps)
  else none

/-- A FRED that ends with a status (R258, R419). -/
def Device.fredEnds (d : Device) (n : Nat) (x : Fred) (status : Nat) : Device :=
  let d := { d with freds := Assoc.set none d.freds n none }
  let d := if status = 2 then d.errorOf x.key 5 x.missing 0 else d
  let core := x.key % 640
  let at_ := fun (lo : Nat) => spKey core ((d.launch (x.key / 640)).spPhys core (fredField x.bits lo 32))
  let dst := if status = 0 then linePieces (at_ 32) x.result else []
  d.finished { key := x.key, at_ := at_ 64, v := 1, due := 0, data := dst ++ [(x.at_ + 16, [BitVec.ofNat 8 status])], header := none, note := none }

/-- A contribution dropped or refused, without a context to name. -/
def Device.refusedFrom (d : Device) (reason peer win : Nat) : Device := d.note 5 Where.device (evOf 29 reason peer win 0 0)

/-- The requests of a core's copy engine that are outstanding ahead of untimed copy `n` (R19): the lines that its timed copies have yet to
receive, and the one line at a time of each untimed copy begun before it. -/
def Device.outstanding (d : Device) (core n : Nat) : Nat :=
  let timed := d.copies.filterMap (fun p => p.2.bind (fun c => if c.key % 640 = core then some (c.lines.filter (fun x => x.2.2.2.isNone)).length else none))
  let untimed := d.ucopies.filter (fun p => decide (p.1 < n) && p.2.any (fun u => u.started && u.key % 640 == core))
  timed.foldl (· + ·) 0 + untimed.length

/-- What the untimed engines' steps leave (R180, R202, R217, R245, R253, R255, R258, R262, R349, R350). -/
def engineRule (d : Device) : Instr → Option Device
  | .barrierSignalDelivery n =>
    (Assoc.get none d.signals n).map fun g =>
    if d.mill < g.due then d else { (d.delivered g).2 with signals := Assoc.set none (d.delivered g).2.signals n (d.delivered g).1 }
  | .untimedCopyLine n =>
    (d.ucopy n).bind fun u =>
    if u.started = false ∨ d.mill < u.due then some d
    else if u.stopped then some (d.setUcopy n none)
    else if u.failed ∨ 1024 ≤ d.outstanding (u.key % 640) n then some d
    else
      u.front.bind fun f =>
      match f.2.2.find? (fun a => !u.got.any (fun p => p.1 == a)) with
      | some a => (u.source d a).map fun x => ({ d with fresh := d.fresh + 1 } : Device).setUcopy n (some { u with got := u.got ++ [(a, x)], due := d.nextAct })
      | none => (u.target d f.1 f.2.1).map fun e =>
        ({ e with fresh := d.fresh + 1 } : Device).setUcopy n (some { u with todo := u.todo.filter (fun p => p.2 != f.1), due := d.nextAct })
  | .untimedCopyComplete n =>
    (d.ucopy n).bind fun u =>
    if u.started = false ∨ d.mill < u.due ∨ u.stopped = true then some d
    else if u.failed then some (d.setUcopy n none)
    else if u.todo ≠ [] then some d
    else
      let e := d.setUcopy n none
      match u.header with
      | none => some (e.finished { key := u.key, at_ := u.bar, v := 1, due := 0, data := [], header := none, note := none })
      | some h =>
        if d.ctxGone u.dstCtx = false ∧ d.bankFree h = true then
          let e := spWrite (h + 8) [Memory.read d.spad (h + 8) + 1] (spWrite h (bytesOf 8 u.spec.typ.toNat) e)
          some (e.finished { key := u.key, at_ := u.bar, v := 1, due := 0, data := [], header := none, note := none })
        else none
  | .vtencService q =>
    match Assoc.get none d.vtBusy q.val, Assoc.get [] d.vtQueues q.val with
    | none, c :: t =>
      let new := (d.vtLines c).filter (fun a => !c.got.any (fun p => p.1 == a) && d.bankFree a)
      let c := { c with got := c.got ++ new.map (fun a => (a, lineOf (Memory.readBytes d.spad a 64))) }
      if (d.vtLines c).all (fun a => c.got.any (fun p => p.1 == a)) then
        let tgt := fun (i : Nat) => decodeFloat .fp32 (ofBytes ((rangeFrom 0 4).map (fun k => c.byte (spKey (c.key % 640) c.tgt + 4 * i + k))))
        let out := vtEncode c.lw (fun j => c.byte (d.vtScales c + j)) tgt (2 ^ 129 + d.fresh * 2 ^ 30)
        let b : VtBusy := { cmd := c, done := d.mill + 2 * lwN c.lw + 64, bytes := bytesOf (lwBits c.lw / 8) out.1, result := dbl out.2 }
        some { d with vtQueues := Assoc.set [] d.vtQueues q.val t, vtBusy := Assoc.set none d.vtBusy q.val (some b), fresh := d.fresh + 1 }
      else some { d with vtQueues := Assoc.set [] d.vtQueues q.val (c :: t) }
    | _, _ => some d
  | .vtencComplete q =>
    (Assoc.get none d.vtBusy q.val).map fun b =>
    if d.mill < b.done then d
    else
      let e := { d with vtBusy := Assoc.set none d.vtBusy q.val none }
      let core := b.cmd.key % 640
      let dst := spKey core ((d.launch (b.cmd.key / 640)).spPhys core (lwSptr b.cmd.lw))
      if (d.ctxAt b.cmd.key).present = false then e.errorOf b.cmd.key 6 0 0
      else e.finished { key := b.cmd.key, at_ := spKey core b.cmd.bar, v := 1, due := 0, data := linePieces dst b.bytes ++ linePieces (spKey core b.cmd.res) (bytesOf 8 b.result.toNat), header := none, note := none, vt := true }
  | .queueEntryEnter core q =>
    let mine := fun (w : QueueWait) => decide (w.key % 640 = core.val) && decide (w.q = q)
    match d.queueWaits.filter mine with
    | [] => some d
    | [w] =>
      let c := d.ctxAt w.key
      let before := d.queueWaits.takeWhile (fun x => !mine x)
      if c.queues[q].length + c.popped[q].length < 256 ∧ before.any (fun x => x.blocks w) = false then
        some { d.setCtxAt w.key { c with queues := c.queues.set q (c.queues[q] ++ [w.v]) } with queueWaits := d.queueWaits.filter (fun x => !mine x) }
      else some d
    | _ => none
  | .fredComplete n =>
    (Assoc.get none d.freds n).map fun x =>
    if x.due ≠ 0 ∧ x.due ≤ d.mill then d.fredEnds n x (if x.mismatch then 1 else if x.lost then 2 else 0)
    else if x.lost ∧ x.due = 0 ∧ x.left < d.mill then d.fredEnds n x 2
    else d
  | .fredTimeout n =>
    (Assoc.get none d.freds n).map fun x =>
    if x.due = 0 ∧ 2 ^ bitField d.vatcfg.toNat 48 8 ≤ d.mill - x.left then d.fredEnds n x 2 else d
  | .fredHeldExpiry n =>
    (Assoc.get none d.held n).map fun h =>
    if 2 ^ bitField d.vatcfg.toNat 48 8 ≤ d.mill - h.at_ then
      ({ d with held := Assoc.set none d.held n none } : Device).refusedFrom 7 h.f.src.toNat 0
    else d
  | _ => none

/-- What came over a link and is for another module: sent on with one hop more, unless it has made 15 hops or has no route (R346). -/
def Device.sentOn (d : Device) (dest src win hops : Nat) (o : Nat → Out) : Device :=
  if 15 ≤ hops then d.refusedFrom 2 src win
  else (d.routeTo dest).elim (d.refusedFrom 2 src win) (fun link =>
    let e := { d with fresh := d.fresh + 1 }
    if Config.choice d.fresh then dropFlit link dest win e else { e with outbox := d.outbox ++ [o link] })

/-- A contribution for this module taken (R258, R347, R350): refused where its tag or its sender is not of the group; added to the
FRED of its number; held for a FRED that is yet to leave; or dropped as stale. The lines of the group's table hold no error. -/
def Device.contributed (d : Device) (f : FredFrame) : Device :=
  (d.tagSpace f.ptag.toNat).elim (d.refusedFrom 2 f.src.toNat 0) fun asid =>
    let g := f.group.toNat
    let d := noteTable ((d.asGroups asid).1 + 128 * g) 128 d
    if f.src.toNat ∉ d.groupMembers asid g then d.refusedFrom 2 f.src.toNat 0
    else
      match d.freds.find? (fun p => p.2.any (fun x => x.isFor asid g f.k.toNat)) with
      | some (n, some x) =>
        if x.due ≠ 0 then d.refusedFrom 7 f.src.toNat 0
        else
          let y := { x with arrived := addArrived x.members x.arrived [f] }
          let y := if y.arrived.length = y.members.length then { y with due := d.nextAct } else y
          { d with freds := Assoc.set none d.freds n (some y), fresh := d.fresh + 1 }
      | _ =>
        if (f.k.toNat + 65536 - Assoc.get 0 d.fredCount (asid * 256 + g) % 65536) % 65536 < 32768 then
          { d with held := Assoc.set none d.held d.seq (some { f := f, asid := asid, at_ := d.mill }), seq := d.seq + 1 }
        else d.refusedFrom 7 f.src.toNat 0

/-- A frame for this module taken (R257, R344, R347): dropped where no window of its tag's address space is its, or no context
of it is resident; else its rows, its header and the notification, where the type matches and they fit. -/
def Device.framed (d : Device) (link : Nat) (f : WoveFrame) : Option Device :=
  let drop := fun (d : Device) => d.refusedFrom 2 f.src.toNat f.win.toNat
  match d.tagSpace f.ptag.toNat with
  | none => some (drop d)
  | some asid =>
    let (base, n) := d.asWindows asid
    let d := noteTable (base + 32 * f.win.toNat) 32 d
    let w := BitVec.ofNat 256 (d.tableWords (base + 32 * f.win.toNat) 4)
    let core := windowField w 64 10
    if n ≤ f.win.toNat ∨ windowField w 0 2 ≠ 2 ∨ 640 ≤ core then some (drop d)
    else
      match d.residentOn asid core with
      | none => some (drop d)
      | some l =>
        let x := d.launch l
        let key := 640 * l + core
        let at_ := spKey core (x.spPhys core (windowField w 160 21))
        let h := headerOf at_ (windowField w 160 21) (Memory.readBytes d.spad at_ 16)
        let mode := windowField w 4 4
        if (x.holds (windowField w 160 21) 16 && (decide (mode ≠ 0) || x.holds (windowField w 96 21) 8)) = false then some (drop d)
        else if (d.bankFree at_ && !d.framesHeld.any (fun h => h.link == link)) = false then
          if windowField w 48 16 = 0xFFFF ∨ windowField w 48 16 = f.src.toNat then
            some { d with framesHeld := d.framesHeld ++ [{ link := link, key := key, gen := x.gen, window := w, frame := f }] }
          else none
        else if (windowField w 48 16 = 0xFFFF ∨ windowField w 48 16 = f.src.toNat) ∧ typeMismatch (d.ctxAt key).live.regs.dv (windowField w 192 64) f.typ.toNat = none ∧
            typeCheck f.typ.toNat = none then
          match frameRows f (d.ctxAt key).live.regs.dv h with
          | .error _ => none
          | .ok rows =>
            let step := if tLayout f.typ.toNat = 3 then 64 else 64 * h.pitch
            if (rows.zip (rangeFrom 0 rows.length)).all (fun p => x.holds (h.data + step * p.2) p.1.length) then
              let entry : Dbl := dbl (f.src.toNat * 2 ^ 32 + f.win.toNat * 2 ^ 16)
              let note : Option (Nat × Fin 4 × Dbl) := if mode = 0 then none else some (link, if mode = 1 then 0 else 1, entry)
              let data := rowPieces step (spKey core (x.spPhys core h.data)) rows
              let bar := spKey core (x.spPhys core (windowField w 96 21))
              some (d.finished { key := key, at_ := bar, v := if mode = 0 then 1 else 0, due := 0, data := data, header := some (at_, f.typ), note := note })
            else none
        else none

/-- A peer's access to exported memory served (R348): the write enters its channel's queue, the read is answered, an access that no
export entry allows is refused. -/
def Device.accessed (d : Device) (r : PeerReq) : Option Device :=
  let d := (d.tagSpace r.ptag.toNat).elim d (fun asid => noteTable ((d.asExports asid).1 + 16 * r.entry.toNat) 16 d)
  match d.exported r, r.write with
  | none, _ => some { d.refusedFrom 3 r.src.toNat 0 with outbox := d.outbox ++ [.peerRefused] }
  | some pa, some (x, m) =>
    let loc := dramMap (pa / 64 * 64) 0 0
    let e : WqEntry := { loc := loc, data := x, mask := m, stamp := d.mill, turns := 0 }
    if d.lineOpen loc = true ∧ d.bulk = [] then some (d.setQueue (locStack loc) (locCh loc) (d.queue (locStack loc) (locCh loc) ++ [e])) else none
  | some pa, none => (d.cleanLine (dramMap (pa / 64 * 64) 0 0)).map fun x => { d with outbox := d.outbox ++ [.peerData x] }

/-- What arrives over a link that carries frames and drops no flit of it, and the links' own changes (R346, R347). -/
def woveRule (d : Device) : Instr → Option Device
  | .fredContributionArrival a =>
    let e := { d with fresh := d.fresh + 1 }
    if d.linkUp a.link.val = false then some d
    else if Config.choice d.fresh then some (dropFlit a.link.val a.body.src.toNat 0 e)
    else if a.body.dest.toNat = bitField d.woveid.toNat 0 16 then some (e.contributed a.body)
    else some (e.sentOn a.body.dest.toNat a.body.src.toNat 0 a.body.hops (fun link => .fred link { a.body with hops := a.body.hops + 1 }))
  | .woveFrameReceive a =>
    let e := { d with fresh := d.fresh + 1 }
    if d.linkUp a.link.val = false then some d
    else if Config.choice d.fresh then some (dropFlit a.link.val a.body.src.toNat a.body.win.toNat e)
    else if a.body.dest.toNat = bitField d.woveid.toNat 0 16 then e.framed a.link.val a.body
    else some (e.sentOn a.body.dest.toNat a.body.src.toNat a.body.win.toNat a.body.hops (fun link => .frame link { a.body with hops := a.body.hops + 1 }))
  | .peerAccessRequest a =>
    let e := { d with fresh := d.fresh + 1 }
    if d.linkUp a.link.val = false then some d
    else if Config.choice d.fresh then some (dropFlit a.link.val a.body.src.toNat 0 e)
    else if a.body.dest.toNat = bitField d.woveid.toNat 0 16 then e.accessed a.body
    else some (e.sentOn a.body.dest.toNat a.body.src.toNat 0 a.body.hops (fun link => .peer link { a.body with hops := a.body.hops + 1 }))
  | .woveLinkUp l =>
    some (if (d.wovectl[l]).getLsbD 62 then { d with wovectl := d.wovectl.set l (d.wovectl[l] ||| 0x8000000000000000) } else d)
  | .woveLinkDown l => some { d with wovectl := d.wovectl.set l (d.wovectl[l] &&& 0x7FFFFFFFFFFFFFFF) }
  | _ => none

end Sys2Proof.Machine

/-- Untimed engines run their commands, and what the wove brings is taken or sent on. Barrier signals, untimed copies,
VTENC, receive-queue entries and FREDs, when they next act, write and signal what their rules give through free bank-
ticks, wait, or report; a frame, a contribution or a peer's access that arrives is taken here, refused with its
reason, dropped with its link's flit, or sent on with one hop more; links come up and go down. When an engine acts and
whether a link drops a flit are free values (log entries 4 and 88). The model's choices that it rests on: how an
untimed copy with a bad line, or whose context is gone, ends (102), how VTENC reads and writes (104) and that it sets
no flags (146), the order in which a received frame is matched (105), how contributions are matched (106), the wait at
1,024 outstanding requests (133), and the order of one mill tick's receives, signals and streaming (160). (R180, R202,
R217, R245, R253, R255, R257, R258, R346, R347, R348, R350.) -/
def Obligations.UntimedEnginesAndTheWoveTakeTheirSteps : Prop :=
  (∀ (s : State) (e : Instr) (t : Device), engineRule s.dev e = some t → exec e s = .next { s with dev := t }) ∧
  (∀ (s : State) (e : Instr) (t : Device), s.dev.started = true → woveRule s.dev e = some t → exec e s = .next { s with dev := t })

namespace Sys2Proof.Machine

/-! ## The vat, shoot-downs, migrations, images and attestation (R260, R261, R290 to R296, R303, R318, R332, R341, R396, R398, R399) -/

/-- The vat's steps whose outcome the record alone decides (R290 to R293, R318): a reservation, where no sheet holds on the sheaves it
takes; the sheaves of a sheet made active that have switched; a launch whose sheaves are not all available; an admission
that must wait. -/
def vatRule (d : Device) : Instr → Option Device
  | .vatReservation l =>
    let x := d.launch l.val
    if x.st = .ready ∧ 2 ^ bitField d.vatcfg.toNat 32 8 ≤ d.mill - x.since then
      if d.launches.all (fun p => !p.2.holding || p.1 == l.val) then
        some { d.setLaunch l.val { x with st := .rsvd, rsvAt := d.mill } with reservations := d.reservations ++ [l.val] }
      else none
    else some d
  | .vatSwitchActive l =>
    let x := d.launch l.val
    if x.st = .active ∧ x.mode = .parked then
      if d.mill < x.switchAt then some d
      else
        let y := { x with mode := .run, switchAt := d.mill, ran := if x.turn then x.ran else 0, turn := false, ticked := false }
        if x.kept = some true then some (d.setLaunch l.val { y with kept := none, halt := true })
        else if x.halt = true ∨ x.kept = some false then
          let e := { d with ctxs := d.ctxs.map (fun (p : Nat × Ctx) => if p.1 / 640 = l.val then (p.1, { p.2 with handler := none }) else p) }
          some (seeCounters l.val x.cores (e.setLaunch l.val { y with mode := .halt false, halt := false, kept := none }))
        else some (d.setLaunch l.val y)
    else if d.mayActivate l.val then none
    else some d
  | .vatPlacement l =>
    let x := d.launch l.val
    if x.st = .ready ∨ x.st = .rsvd ∨ x.st = .out then
      match d.placeable l.val x.sheaves with
      | none => some d
      | some [] => none
      | some vs =>
        some (vs.foldl (fun e v =>
          let y := e.launch v
          if y.departing then e
          else ({ e with fresh := e.fresh + 1 } : Device).setLaunch v { y with streaming := .leaving, switchAt := e.nextAct }) d)
    else some d
  | .contextStreamComplete l =>
    let x := d.launch l.val
    if x.st ≠ .shadow ∨ d.mill < x.switchAt ∨ x.streaming = .idle then some d else none
  | _ => none

/-- A migration replaced. -/
def Device.setMigrOf (d : Device) (n : Nat) (m : Option Migr) : Device := { d with migrs := Assoc.set none d.migrs n m }

/-- The device after the end of a shoot-down that no engine is waited for has been looked for (R341, R398). -/
def Device.shotDown (d : Device) : Device :=
  match d.shootNow with
  | none => d
  | some n =>
    if n.waiting ≠ [] then d
    else
      match n.req.bar with
      | some (key, bar) => ({ d with shootNow := none } : Device).finished { key := key, at_ := bar, v := 1, due := 0, data := [], header := none, note := none }
      | none => { d with shootNow := none, shootDone := d.shootDone + 1 }

/-- The device after the oldest attestation that is due has reported, the next one due within 1,200,000 mill ticks (R358, R399). -/
def Device.attested (d : Device) : Device :=
  match d.attests with
  | [] => d
  | a :: t =>
    if d.mill < a.due then d
    else
      let e := match t with
        | [] => { d with attests := [], fresh := d.fresh + 1 }
        | b :: r => { d with attests := { b with due := d.mill + 1 + Config.engineDelay (d.fresh + 1) % 1200000 } :: r, fresh := d.fresh + 2 }
      e.reported a.key a.at_ (d.report a.mask a.nonce) a.bar

/-- The lines of a page copied in ascending order, each read as the cells hold it under its queue, and written through the write queues;
whether all could be read (R260, R278). -/
def frameCopied (owner : Nat) (src dst : GAddr) : List Nat → Device → Bool × Device
  | [], d => (true, d)
  | j :: t, d =>
    let a := { src with pa := src.pa + 64 * j }
    let b := { dst with pa := dst.pa + 64 * j }
    if paTarget a.pa = 0 then
      match readLine (dramMap a.pa a.im a.sw) d with
      | (some x, e) => frameCopied owner src dst t (bulkWrite owner b (bytesOf 64 x.toNat) e)
      | (none, e) => (false, e)
    else frameCopied owner src dst t (bulkWrite owner b (Memory.readBytes d.hostMem (a.pa % 2 ^ 44) 64) d)

/-- What the steps of shoot-downs, migrations, images and attestations leave (R260, R303, R341, R396, R398, R399). -/
def serviceRule (d : Device) : Instr → Option Device
  | .shootdownAck core =>
    (d.shootNow.map fun n =>
    if core.val ∉ n.waiting then some d
    else if d.standsOn core.val then none
    else if (d.tlb core.val).any (fun e => e.dying && e.within n.req.scope n.req.asid n.req.page && d.entryBusy core.val e) then some d
    else
      some { d.reapTlb core.val with shootNow := some { n with waiting := n.waiting.filter (fun c => c != core.val) } }).getD (some d)
  | .migrPage n =>
    (Assoc.get none d.migrs n).bind fun m =>
    let owner := 2 * n + 1
    if d.mill < m.due ∨ m.left = 0 ∨ d.bulk.any (fun p => p.1 == owner) = true then some d
    else
      let e := noteWalk m.asid m.va d
      let goOn := fun (e : Device) (bits st : Nat) =>
        let va := va48 (m.va / 2 ^ bits * 2 ^ bits + 2 ^ bits)
        ({ e with fresh := e.fresh + 1 } : Device).setMigrOf n (some { m with va := va, left := m.left - 1, status := Nat.max m.status st, due := e.nextAct, stage := 0 })
      match e.walk m.asid m.va with
      | .error _ => some (goOn e 16 2)
      | .ok f =>
        let w0 := f.word0.toNat
        if m.stage = 0 then
          let src : GAddr := { pa := bitField f.word1.toNat 16 30 * 65536 / 2 ^ f.bits * 2 ^ f.bits, im := leafIm w0, sw := leafSw w0 }
          let dst := leafAddr w0 f.bits (m.va / 2 ^ f.bits * 2 ^ f.bits)
          if leafRes w0 then some (goOn e f.bits 3)
          else if leafMig w0 = false ∨ paTarget (bitField f.word1.toNat 16 30 * 65536) > 1 ∨ paTarget dst.pa > 1 ∨
              (paTarget (bitField f.word1.toNat 16 30 * 65536) = 0 ∧ inDevice (bitField f.word1.toNat 16 30 * 65536) = false) then
            some (goOn e f.bits 2)
          else
            let (all, u) := frameCopied owner src dst (List.range (2 ^ f.bits / 64)) e
            some (u.setMigrOf n (some (if all then { m with stage := 1 } else { m with left := 0, status := Nat.max m.status 2 })))
        else if m.stage = 1 then
          let w := w0 % 2 ^ 60 + 2 ^ 61 + w0 / 2 ^ 62 * 2 ^ 62
          some ((bulkWrite owner { pa := f.at_, im := 0, sw := 0 } (bytesOf 8 w) e).setMigrOf n (some { m with stage := 2 }))
        else
          let e := invalidate (m.key % 640) .page m.asid (m.va / 65536) e
          let c := e.ctxAt m.key
          let late := decide (m.deadline < (e.launch (m.key / 640)).tick)
          let e' := if late && c.present then e.setCtxAt m.key { c with slip := if c.slip = BitVec.allOnes 32 then c.slip else c.slip + 1 } else e
          some (goOn e' f.bits (bitOf late))
  | .migrComplete n =>
    (Assoc.get none d.migrs n).map fun m =>
    if d.mill < m.due ∨ m.left ≠ 0 ∨ d.bulk.any (fun p => p.1 == 2 * n + 1) = true then d
    else (rereadLeaves m.asid (d.setMigrOf n none)).reported m.key (m.at_ + 28) [BitVec.ofNat 8 m.status] m.bar
  | .ctxImageComplete n =>
    (Assoc.get none d.images n).bind fun i =>
    let x := d.launch i.l
    if d.mill < i.due then some d
    else if x.st ≠ .shadow ∧ x.st ≠ .out then
      some (({ d with images := Assoc.set none d.images n none } : Device).reported i.key (i.at_ + 8) [1] i.at_)
    else if i.banks = none ∧ x.streaming ≠ .idle then some d
    else if i.banks = some [] ∧ d.bulk.any (fun p => p.1 == 2 * n + 1) = false then
      some (({ d with images := Assoc.set none d.images n none } : Device).reported i.key (i.at_ + 8) [BitVec.ofNat 8 i.status] i.at_)
    else none
  | _ => none

/-- The 32-bit word `j` of core `u`'s entry in a dimension-variable table (R284). -/
def tableWord (table : List Byte) (u j : Nat) : Nat := ofBytes ((table.drop (64 * u + 4 * j)).take 4)

/-- Whether a word of variable `j` in a dimension-variable table obeys R143 and R284. -/
def wordObeys (j w : Nat) : Prop :=
  w = 0 ∨ (w / 2 ^ 30 = 1 ∧ w % 2 ^ 30 ≠ 0 ∧ w % 2 ^ 30 < 65536) ∨ (w / 2 ^ 30 = 2 ∧ w % 2 ^ 30 < 16 ∧ w % 2 ^ 30 < j)

/-- The dimension variable that a word of the table holds (R143). -/
def variableOf (w : Nat) : DimVar :=
  if w / 2 ^ 30 = 1 then .bound (BitVec.ofNat 16 w) else if w / 2 ^ 30 = 2 then .aliased (Fin.ofNat 16 (w % 16)) else .unbound

/-- The start of a unit (R36, R93, R168, R225, R284, R387): its first bundle, its arguments in s1 to s8, its dimension variables, the
revision and fence mode of its launch, every other register zero or empty, and nothing in flight; all of it the first checkpoint. -/
def unitStart (x : Launch) (utab args table : List Byte) (u : Nat) : Ctx :=
  let at_ := ofBytes ((utab.drop (8 * u)).take 8)
  let regs : Regs :=
    { s := Vector.ofFn (fun k => if 1 ≤ k.val ∧ k.val ≤ 8 then dbl (ofBytes ((args.drop (8 * (k.val - 1))).take 8)) else 0),
      a := Vector.replicate 16 { addr := 0, inc := 0, wrap := 0 }, p := Vector.replicate 8 false, v := Vector.replicate 64 0,
      m := Vector.replicate 8 0, t := Vector.replicate 16 { data := 0, typ := 0, tag := 0 },
      dv := Vector.ofFn (fun j => variableOf (tableWord table u j.val)), k := Vector.replicate 8 0, cb := Vector.replicate 4 0,
      lw := Vector.replicate 8 0, loops := [], fctl := 0x10, fstat := 0, hkey := 0,
      mmrev := BitVec.ofNat 32 (x.field 262 2 + x.field 261 1 * 2 ^ 8) }
  let live : Live :=
    { regs := regs, flights := [], banks := [], press := [], reps := [], pc := at_, next := 0, exited := at_ == 0, store := [],
      budget := x.budget, effects := 256 }
  { present := true, live := live, ckpt := live, hs := Vector.replicate 16 0, hp := Vector.replicate 8 false, hfly := [], handler := none,
    promises := [], queues := Vector.replicate 4 [], popped := Vector.replicate 4 [], dirty := BitVec.allOnes 41, slip := 0, pending := [],
    before := none, seen := none }

end Sys2Proof.Machine

/-- The vat, shoot-downs, migrations, images and reports take their steps. A reservation is made where no sheet holds and
the launch has waited 2^RESV mill ticks (VATCFG[39:32]); a switched sheet runs at its tick; a launch that cannot be
placed waits, or has one victim stream out; cores acknowledge a shoot-down when nothing uses the entry, and it
completes with its barrier; a migration copies each page's lines to its new frame, then changes its translation, one
page after another, and reports; an image and an attestation report. Instants are free values (log entries 4 and 56).
The model's choices that it rests on: only READY launches become reserved (72), contexts of an OUT launch are not
present (108), which residents stream out for the head of the order (150), and a park of a launch that has no sheet
yet (158). (R260, R290, R291, R293, R294, R303, R318, R341, R396, R398, R399.) -/
def Obligations.TheVatAndItsServicesTakeTheirSteps : Prop :=
  (∀ (s : State) (e : Instr) (t : Device), vatRule s.dev e = some t ∨ serviceRule s.dev e = some t → exec e s = .next { s with dev := t }) ∧
  (∀ s : State, s.dev.canAdmit = false → exec .graphAdmit s = .next s) ∧
  (∀ s : State, exec .shootdownComplete s = .next { s with dev := s.dev.shotDown } ∧ exec .attestComplete s = .next { s with dev := s.dev.attested })

/-- A shoot-down that starts leaves no entry of its scope in force. Starting the oldest request, every entry of its scope
in the TLB of a core that is not gated is dying, every other entry is as before, every core that is not gated must
acknowledge, and nothing else changes. (R303, R341, R398.) -/
def Obligations.AShootdownLeavesNoEntryInForce : Prop :=
  ∀ (s : State) (r : Shoot) (q : List Shoot), s.dev.shootNow = none → s.dev.shootQ = r :: q →
    ∃ t : Device, exec .shootdownStart s = .next { s with dev := t } ∧ t.shootQ = q ∧
      (∃ n, t.shootNow = some n ∧ n.req = r ∧ ∀ core, core ∈ n.waiting ↔ core < 640 ∧ (s.dev.sheaf (core / 4)).gated = false) ∧
      (∀ core, core < 640 → (s.dev.sheaf (core / 4)).gated = false → ∀ e ∈ t.tlb core, e.within r.scope r.asid r.page = true → e.dying = true) ∧
      (∀ core, ∀ e ∈ s.dev.tlb core, e.within r.scope r.asid r.page = false → e.dying = false → e ∈ t.tlb core) ∧
      { t with tlbs := s.dev.tlbs, shootQ := s.dev.shootQ, shootNow := none } = s.dev

/-- An activation of another sheet finds its sheaves clean, a replay at once finds what the attempt left. A shadow sheet
that may run becomes active on its sheaves at a switch tick within 100 mill ticks, its tick unchanged; its sheaves
have no lease request. Where the sheaf's active sheet was another, or the sheet has not kept its turn since, the sheaf
has empty press buffers, no product table, no tensor scale, no stamps and no deckle, and a felt of zeros; where the
same sheet goes on, aborted and chosen again at once, its sheaf has all of these as they were. Scratchpads,
accumulators and contexts are as they were. Which activations count as a change of the active sheet is the model's
reading (log entry 139). (R193, R290, R293, R332, R386.) -/
def Obligations.AnActivationTakesItsSheavesClean : Prop :=
  ∀ (s : State) (l : LSlot), let d := s.dev
    let x := d.launch l.val
    x.st = .shadow → d.mayActivate l.val = true → x.leases.length = x.sheaves.length →
    ∃ t : Device, exec (.vatSwitchActive l) s = .next { s with dev := t } ∧
      (t.launch l.val).st = .active ∧ (t.launch l.val).mode = .parked ∧ (t.launch l.val).tick = x.tick ∧
      d.mill ≤ (t.launch l.val).switchAt ∧ (t.launch l.val).switchAt < d.mill + 100 ∧ t.spad = d.spad ∧ t.acc = d.acc ∧ t.ctxs = d.ctxs ∧
      (∀ g ∈ x.sheaves, (t.sheaf g).active = some l.val ∧ (t.sheaf g).requests = [] ∧ (t.sheaf g).gated = (d.sheaf g).gated) ∧
      (∀ g ∈ x.sheaves, (d.sheaf g).active ≠ some l.val ∨ x.turn = false → let y := t.sheaf g
        y.buf0 = PressBuf.empty ∧ y.buf1 = PressBuf.empty ∧ y.table = none ∧ y.scale = none ∧ y.stamps = [] ∧ y.deckle = [] ∧
        ∀ k, k < 262144 → Memory.read t.felt (262144 * g + k) = 0) ∧
      (∀ g ∈ x.sheaves, (d.sheaf g).active = some l.val → x.turn = true → let y := d.sheaf g
        t.sheaf g = { y with active := some l.val, lease := (t.sheaf g).lease, leaseSeen := (t.sheaf g).lease, requests := [] } ∧
        ∀ k, k < 262144 → Memory.read t.felt (262144 * g + k) = Memory.read d.felt (262144 * g + k))

/-- A sheet that streams out leaves its contexts clean and keeps its state, and returns with it. When the stream of a
sheet ends, its cores are no longer present, with DIRTY clear and the promise table discarded and their registers,
program counters and actions in flight kept; when its banks have been written it is OUT; when they have been read
again its contexts are present with the same state. The model's choices that it rests on: the bytes of the in-flight
area (log entry 75), the instants at which registers and banks are read and written (76), and that the contexts of a
launch that is OUT are not present (108). (R198, R295, R296, R396.) -/
def Obligations.AStreamedSheetLeavesAndReturns : Prop :=
  (∀ (s : State) (l : LSlot), let x := s.dev.launch l.val
    x.st = .shadow → x.switchAt ≤ s.dev.mill → x.streaming = .leaving →
    ∃ t : Device, exec (.contextStreamComplete l) s = .next { s with dev := t } ∧ (t.launch l.val).streaming = .saving x.bankKeys ∧
      (t.launch l.val).st = .shadow ∧ t.spad = s.dev.spad ∧
      ∀ core ∈ x.cores, (t.ctx l.val core).present = false ∧ (t.ctx l.val core).dirty = 0 ∧ (t.ctx l.val core).promises = [] ∧
        (t.ctx l.val core).live = (s.dev.ctx l.val core).live) ∧
  (∀ (s : State) (l : LSlot), let x := s.dev.launch l.val
    x.st = .shadow → x.switchAt ≤ s.dev.mill → x.streaming = .saving [] → s.dev.bulk.any (fun p => p.1 == 2 * l.val) = false →
    ∃ t : Device, exec (.contextStreamComplete l) s = .next { s with dev := t } ∧ (t.launch l.val).st = .out ∧
      (t.launch l.val).streaming = .idle ∧ (t.launch l.val).seats = [] ∧ (t.launch l.val).turn = false ∧ (t.launch l.val).since = s.dev.mill) ∧
  (∀ (s : State) (l : LSlot), let x := s.dev.launch l.val
    x.st = .shadow → x.switchAt ≤ s.dev.mill → x.streaming = .loading [] →
    ∃ t : Device, exec (.contextStreamComplete l) s = .next { s with dev := t } ∧ (t.launch l.val).st = .shadow ∧
      (t.launch l.val).streaming = .idle ∧ (t.launch l.val).streamed = true ∧
      ∀ core ∈ x.cores, (t.ctx l.val core).present = true ∧ (t.ctx l.val core).dirty = 0 ∧
        (t.ctx l.val core).live = (s.dev.ctx l.val core).live)

/-- A placed launch starts its cores with their entries, arguments, variables and cleared registers. A launch that can be
placed at once and whose tables can be read becomes active at sheet tick 0; each core has its entry of the unit table
as its program counter (exited where that is 0), its arguments in s1 to s8 (zero where ARGS is 0), the dimension
variables of its table (unbound where DVTAB is 0), FCTL 0x10, MMREV of its launch, and every other register (scalar,
address, predicate, vector, mask, tile, scale, codebook, window, loop, FSTAT, HKEY) zero or empty, DIRTY all ones, a
full budget, nothing in flight, and that state as its checkpoint; the types of its accumulator slots are empty. Where
the model has handler registers beyond those that the rules name, they start at zero too (log entries 128 and 141).
(R36, R93, R168, R225, R284, R287, R291, R296, R300.) -/
def Obligations.APlacedLaunchStartsItsCores : Prop :=
  ∀ (s : State) (l : LSlot) (utab args table : List Byte) (d1 d2 d3 : Device) (ws : List (BitVec 256)), let d := s.dev
    let x := d.launch l.val
    let read := fun (lo n : Nat) (e : Device) => if x.field lo 48 = 0 then (some [], e) else vatRead x.asid (x.field lo 48) n e
    x.st = .ready ∨ x.st = .rsvd → d.placeable l.val x.sheaves = some [] → d.asEnabled x.asid = true →
    vatRead x.asid (x.field 464 48) (8 * x.ncores) d = (some utab, d1) → read 416 64 d1 = (some args, d2) →
    read 199 (64 * x.ncores) d2 = (some table, d3) →
    (∀ u j, u < x.ncores → j < 16 → wordObeys j (tableWord table u j)) →
    (noteTable (d3.asWindows x.asid).1 (32 * (d3.asWindows x.asid).2) d3).launchWindows x.asid = some ws →
    ∃ t : Device, exec (.vatPlacement l) s = .next { s with dev := t } ∧
      (t.launch l.val).st = .active ∧ (t.launch l.val).tick = 0 ∧ (t.launch l.val).replays = 0 ∧ (t.launch l.val).windows = ws ∧
      (∀ core ∈ x.cores, t.ctx l.val core = unitStart x utab args table (core - x.core0)) ∧
      (∀ core ∈ x.cores, ∀ n, n < x.accn → let k := accKey core (((t.launch l.val).seat core).accBase + n)
        Assoc.get 0 t.accType k = 0 ∧ Assoc.get false t.accOpen k = false)

/-- An admitted graph, and a job's root launch, take free slots of new generations. Where the oldest admission is a graph
and enough launch slots are free, it takes that many distinct free slots, each of a new generation, and its launches
enter from its records; where it is a job's root launch and a graph slot and a launch slot are free, it takes one of
each, of new generations, as a graph of one launch of that job, and the launch enters from its record. Which slots is
a free value (log entry 132). (R282, R285, R286, R318.) -/
def Obligations.AnAdmittedGraphTakesFreeSlots : Prop :=
  (∀ (s : State) (g va : Nat) (q : List (Nat × Nat × Nat)), let d := s.dev
    d.admissions = (1, g, va) :: q → ((d.graph g).pending.getD 0) ≤ d.freeLaunches.length →
    let n := (d.graph g).pending.getD 0
    let entered := fun (ls : List Nat) (e : Device) =>
      enterGraph g (e.job (e.graph g).job).asid none ((ls.zip (rangeFrom 1 n)).map (fun p => (p.1, va48 (va + 64 * p.2)))) e
    ∃ ls e, takeSlots g n { d with admissions := q } = (ls, e) ∧ ls.length = n ∧ ls.Nodup ∧ (∀ l ∈ ls, l ∈ d.freeLaunches) ∧
      (∀ l ∈ ls, (e.launch l).gen = (d.launch l).gen + 1 ∧ (e.launch l).graph = g) ∧
      exec .graphAdmit s = .next { s with dev := entered ls e }) ∧
  (∀ (s : State) (j va : Nat) (q : List (Nat × Nat × Nat)), let d := s.dev
    d.admissions = (0, j, va) :: q → d.freeGraphs ≠ [] → d.freeLaunches ≠ [] →
    ∃ g l, g ∈ d.freeGraphs ∧ l ∈ d.freeLaunches ∧
      let a := { d with admissions := q, fresh := d.fresh + 2 }
      let b := a.setGraph g { Graph.free with used := true, gen := (d.graph g).gen + 1, job := j }
      let e := (b.setJob j { d.job j with root := g }).setLaunch l { Launch.free with st := .held, gen := (d.launch l).gen + 1, graph := g }
      exec .graphAdmit s = .next { s with dev := enterGraph g (d.job j).asid none [(l, va)] e })

namespace Sys2Proof.Machine

/-! ## Where a bundle stops (R31, R35, R56, R57, R113, R188, R191, R194, R201, R229, R300, R331, R392) -/

/-- An event that the instruction raises: its code, reason and four fields (R380). -/
def Device.stops (d : Device) (code reason i0 i1 i2 i3 : Nat) : Ev :=
  { code := code, reason := reason, i0 := i0, i1 := i1, i2 := i2, i3 := i3, aux := 0, slot := d.issue.slot }

/-- The misaligned-access fault or the bounds fault of an access to `n` bytes (R229, R331). -/
def Device.accessStop (d : Device) (a n align : Nat) : Option Ev :=
  if a % align ≠ 0 then some (d.stops 12 0 a 0 0 0)
  else if d.curLaunch.spSize < a + n then some (d.stops 13 1 a d.curLaunch.spSize 0 0)
  else none

/-- The privilege fault of a selector (R392): MMREV and the registers after it are a system context's to read, MMREV its to write,
and those of the interrupted context a handler's alone. -/
def Device.selectorStop (d : Device) (w : Bool) (sel : Nat) : Option Ev :=
  let system := d.curLaunch.asid = 0
  let ok := if w then (4 ≤ sel ∧ sel ≤ 6) ∨ (sel = 0x0B ∧ system) else sel ≤ 0x0A ∨ (sel ≤ 0x10 ∧ system)
  if ok then none else some (d.stops 21 0 (if w then 2 else 1) sel 0 0)

/-- The event that an instruction raises at issue because of what it names. -/
def stopRule (d : Device) : Instr → Option Ev
  | .ldb _ a o => d.accessStop (d.at10 a o 1) 1 1
  | .ldh _ a o => d.accessStop (d.at10 a o 2) 2 2
  | .ldw _ a o => d.accessStop (d.at10 a o 4) 4 4
  | .ldd _ a o => d.accessStop (d.at10 a o 8) 8 8
  | .stb _ a o => d.accessStop (d.at10 a o 1) 1 1
  | .sth _ a o => d.accessStop (d.at10 a o 2) 2 2
  | .stw _ a o => d.accessStop (d.at10 a o 4) 4 4
  | .std _ a o => d.accessStop (d.at10 a o 8) 8 8
  | .vld _ a o => d.accessStop (d.at10 a o 64) 512 64
  | .vst _ a o => d.accessStop (d.at10 a o 64) 512 64
  | .binit a _ => d.accessStop d.regs.a[a].addr.toNat 8 8
  | .dktakeSp _ a => d.accessStop d.regs.a[a].addr.toNat 64 64
  | .mfsr _ sr => d.selectorStop false sr.toNat
  | .mtsr _ sr => d.selectorStop true sr.toNat
  | .flrd _ a o =>
    let j := d.at10 a o 1 % 4096
    match Assoc.get none d.curSheaf.stamps j with
    | none => some (d.stops 6 2 j (2 ^ 64 - 1) 0 0)
    | some u => if d.now < u then some (d.stops 6 2 j u 0 0) else none
  | _ => none

/-- The device after an instruction alone in its bundle has raised an event: nothing of it remains, and the event is taken (R56). -/
def Device.stopped (d : Device) (e : Ev) : Device := takeEvent d.issue.l d.issue.core d.live.pc e d.unissued

/-- The conditions of `Device.Ready` but for the entries of the queues and the ream's boundary. -/
structure Device.Comes (d : Device) (i : Instr) : Prop where
  present : d.cur.present = true
  program : d.issue.handler = false
  reps : d.live.dueReps d.now = []
  landed : ∀ f ∈ d.live.flights, d.now < f.due
  holds : d.mustHold i = false

/-- What a landing that raises an event leaves, and the event: a result or a laid vector whose flags trap (R113, with the
operation's place and, for a vector result, its register), a window that is not well formed (R174), a fault due at a tick. -/
def Device.raisedAs (d : Device) (l core : Nat) (f : Flight) : Option (Device × List RegWrite × Ev) :=
  let c := d.ctx l core
  let trap := fun (u : Device) (ws : List RegWrite) (fl : Flags) (vd : Option VNum) =>
    let r := ws.foldl Regs.landed c.live.regs
    if r.trapFree fl ∨ ws.any (fun w => !w.program) = true then none
    else some (u, ws ++ [.fstat (r.fstat ||| fl.setWidth 32)],
      ({ code := 7, reason := fl.toNat + 32, i0 := f.pc, i1 := f.issued, i2 := 0, i3 := 0, aux := vd.elim 0 (fun v => 128 + v.val), slot := f.slot } : Ev))
  match f.op with
  | .regs ws fl vd => trap d ws fl vd
  | .raise e => some (d, [], e)
  | .finish (.window q a) =>
    (lwFails (BitVec.ofNat 192 (ofBytes (Memory.readBytes f.buf a 24))) (d.launch l).spSize).map fun n =>
      (d, [], ({ code := 10, reason := n, i0 := q.val, i1 := 0, i2 := 0, i3 := 0, aux := 0, slot := f.slot } : Ev))
  | .finish x => (d.finishedAs l core f x).bind fun (u, ws, fl) => trap u ws fl (match x with
    | .laid r _ _ _ _ _ _ _ => some r
    | _ => none)
  | _ => none

/-- The scalar instructions whose sources are read before anything else (R119, R120). -/
def plainScalar : Instr → Bool
  | .add _ _ _ | .sub _ _ _ | .and _ _ _ | .or _ _ _ | .xor _ _ _ | .andn _ _ _ | .shl _ _ _ | .shr _ _ _ | .sra _ _ _ | .rol _ _ _
  | .min _ _ _ | .max _ _ _ | .minn _ _ _ | .maxn _ _ _ | .clz _ _ | .ctz _ _ | .popc _ _ | .sext _ _ _ | .zext _ _ _ | .sel _ _ _ _
  | .mul _ _ _ | .mulh _ _ _ | .mulhn _ _ _ | .div _ _ _ | .divn _ _ _ | .rem _ _ _ | .remn _ _ _
  | .addi _ _ _ | .andi _ _ _ | .ori _ _ _ | .xori _ _ _ | .shli _ _ _ | .shri _ _ _ | .srai _ _ _ => true
  | _ => false

end Sys2Proof.Machine

/-- Where an instruction stops, with the event it raises. Loads, stores, barrier and deckle accesses that are misaligned
or outside the partition, reads of a felt line before its valid tick, and MFSR and MTSR of a register that the context
may not name raise their events; so do a result due where another lands (schedule fault, both instructions named), a
bank-tick taken twice (bank conflict, both requesters named), a buffered effect beyond the 256 of a ream, a BND
missing from or outside the ream's last tick, an empty queue outside a wait point, and a flag that FCTL enables
(arithmetic trap, after the result has landed, recorded at its detection). Nothing else of the bundle remains (R56).
The model's choices that it rests on: MTSR of a selector that is read-only or unlisted is the privilege fault (log
entry 45), INFO1 of reason 8 is the boundary tick (90), the AUX of an arithmetic trap names the vector destination of
the lowest slot (127), and the events of all cores of a tick are served in core order once the last core has landed
(142). (R35, R56, R113, R191, R194, R197, R201, R229, R300, R331, R392.) -/
def Obligations.InstructionsStopWhereTheirRulesSay : Prop :=
  (∀ (s : State) (i : Instr) (e : Ev), s.dev.Ready i → i.wf = true → stopRule s.dev i = some e → exec i s = .next { s with dev := s.dev.stopped e }) ∧
  (∀ (s : State) (i : Instr) (n : Nat) (r : SReg) (v : Dbl) (k : Nat) (f : Flight), s.dev.Ready i → scalarRule s.dev i = some (n, r, v) →
    r ≠ 0 → r.val < 60 → findLanding (s.dev.now + n) [{ kind := 0, reg := r.val, lo := 0, len := 1 }] s.dev.live.flights = some (k, f) →
    exec i s = .next { s with dev := s.dev.stopped (s.dev.stops 3 1 r.val (s.dev.now + n) f.pc f.issued) }) ∧
  (∀ (s : State) (i : Instr) (x : Did) (sl : Nat) (p u : BankRes), s.dev.Ready i → memoryRule s.dev (s.dev.opened i) i = some x →
    s.dev.LandsFree x.flights →
    findConflict (s.dev.bankPlans s.dev.issue.l) (x.uses.map (fun u => (s.dev.issue.slot, u))) = some (sl, p, u) →
    exec i s = .next { s with dev := s.dev.stopped (s.dev.stops 5 0 (u.bank + Nat.max p.lo u.lo * 2 ^ 8) p.descriptor p.pc u.descriptor) }) ∧
  (∀ (s : State) (a : SReg) (v : BitVec 6), s.dev.Ready (.hsig a v) → s.dev.live.effects = 0 →
    exec (.hsig a v) s = .next { s with dev := s.dev.stopped (s.dev.stops 19 (if s.dev.curLaunch.oversize then 3 else 2) 0 s.dev.live.budget 0 0) }) ∧
  (∀ (s : State) (i : Instr), s.dev.Comes i → (s.dev.queuesReady i = true ∨ boundary i = true) →
    ((s.dev.now + 1) % s.dev.curLaunch.ream = 0 ∧ boundary i = false ∧ isSlot i = true ∨ (s.dev.now + 1) % s.dev.curLaunch.ream ≠ 0 ∧ boundary i = true) →
    let e := { s.dev.stops 3 8 0 s.dev.now 0 0 with slot := if boundary i then s.dev.issue.slot else 0 }
    exec i s = .next { s with dev := s.dev.stopped e }) ∧
  (∀ (s : State) (i : Instr) (r : SReg), s.dev.Comes i → plainScalar i = true → (s.dev.now + 1) % s.dev.curLaunch.ream ≠ 0 →
    (scalarSources i).find? (fun r => decide (60 ≤ r.val) && (s.dev.cur.queues[Fin.ofNat 4 (r.val - 60)]).isEmpty) = some r →
    exec i s = .next { s with dev := s.dev.stopped (s.dev.stops 6 1 (r.val - 60) 0 0 0) }) ∧
  (∀ (s : State) (core : CoreIx) (l : Nat) (a b : List Flight) (f : Flight) (u : Device) (ws : List RegWrite) (e : Ev),
    s.dev.LandsOne core.val l a f b → s.dev.raisedAs l core.val f = some (u, ws, e) →
    let c := s.dev.ctx l core.val
    let x := s.dev.launch l
    let t := u.landedCtx l core.val (a ++ b) (ws.foldl Regs.landed c.live.regs) (c.dirty.dirtied ws)
    let tick := if e.code = 22 ∨ e.code = 23 then x.tick - 1 else x.tick
    let w : Where := { pc := c.live.pc, tick := tick, asid := x.asid, lslot := l, core := core.val }
    let (v, r) := t.record e w { cls := e.cls, ends := false, replay := false }
    let waits := v.setCtx l core.val { v.ctx l core.val with pending := [{ ev := e, pc := c.live.pc, record := some r }] }
    let served := serveEvent (recordKept r) l core.val e w v
    exec (.resultLanding core) s = .next { s with dev := if x.cores.getLast? = some core.val then served else waits })

/-- Format faults and illegal slots stop a bundle before it executes. A bundle with a format fault or an illegal slot
raises its event at its tick, and nothing of it remains. The scan finds an early stop where one of slots 0 to 2 has S
= 1, no stop where none of eight words has, and X on the stop slot where it has both; major 0x3F is illegal with
reason 1 and a reserved major with reason 2, whatever the other bits, and an extension that the instruction does not
accept gives reason 5. (R55, R56, R57.) -/
def Obligations.FetchedBundlesStopBeforeTheyExecute : Prop :=
  (∀ (s : State) (core : CoreIx) (l : Nat) (e : Ev), let d := s.dev
    let x := d.launch l
    let u := readWords core.val x.asid (d.ctx l core.val).live.pc (beginTick l false d)
    (d.sheaf (core.val / 4)).active = some l → d.mayIssue l core.val = true → x.checked ≠ x.tick + 1 →
    (∀ p ∈ d.tickBundles l, fetchFails p.2 = none) → (core.val, some (.error e)) ∈ d.tickBundles l →
    u.bundleAt core.val x.asid (d.ctx l core.val).live.pc = .error e → (e.code = 1 ∨ e.code = 2) →
    let c := u.ctx l core.val
    let v := { u.setCtx l core.val { c with live := { c.live with reps := c.live.reps.filter (fun r => !r.dueAt x.tick) } } with issue := Issue.idle }
    exec (.issueBundle core) s = .next { s with dev := takeEvent l core.val c.live.pc e v }) ∧
  (∀ (w : Nat → Nat) (k : Nat), k < 3 → bitAt (w k) 31 = true → (∀ j, j < k → bitAt (w j) 31 = false) → (∀ j, j ≤ k → bitAt (w j) 30 = false) →
    scanBundle (fun i => (.ok (w i) : Except FetchEv Nat)) = .ok (.bad 2 0 0)) ∧
  (∀ w : Nat → Nat, (∀ j, j < 8 → bitAt (w j) 31 = false) → ∃ t, scanBundle (fun i => (.ok (w i) : Except FetchEv Nat)) = .ok (.bad 3 t 0)) ∧
  (∀ w : Nat → Nat, bitAt (w 0) 31 = true → bitAt (w 0) 30 = true → scanBundle (fun i => (.ok (w i) : Except FetchEv Nat)) = .ok (.bad 4 0 0)) ∧
  (∀ (w x : Nat), bitField w 24 6 = 0x3F → decodeSlot w none = .error 1 ∧ decodeSlot w (some x) = .error 1) ∧
  (∀ (w : Nat) (x : Option Nat), slotClass w = none → bitField w 24 6 ≠ 0x3F → bitField w 24 6 ≠ 0 → decodeSlot w x = .error 2) ∧
  (∀ (i : Instr) (x : Nat), isSlot i = true → takesExt i = false → i.wf = true → decodeSlot (slotWord i) (some x) = .error 5)

namespace Sys2Proof.Machine

/-! ## Results as rational numbers (R66, R92, R95 to R98, R100, R101) -/

/-- The real that a finite exact value stands for. -/
def Exact.real : Exact → Option ℚ
  | .zero _ => some 0
  | .fin s n e false => some ((if s then -1 else 1) * (n * (2 : ℚ) ^ e))
  | _ => none

/-- The largest finite value of a format (R66). -/
def maxFinite : FloatFmt → ℚ
  | .fp32 => (2 ^ 24 - 1) * 2 ^ 104
  | .bf16 => (2 ^ 8 - 1) * 2 ^ 120
  | .fp16 => 65504
  | .e4m3 => 448
  | .e5m2 => 57344
  | .e2m3 => 15 / 2
  | .e3m2 => 28
  | .e2m1 => 6

/-- The exponent bits, significand bits and bias of a format (R66). -/
def fieldsOf : FloatFmt → Nat × Nat × Nat
  | .fp32 => (8, 23, 127)
  | .bf16 => (8, 7, 127)
  | .fp16 => (5, 10, 15)
  | .e4m3 => (4, 3, 7)
  | .e5m2 => (5, 2, 15)
  | .e2m3 => (2, 3, 1)
  | .e3m2 => (3, 2, 3)
  | .e2m1 => (2, 1, 1)

/-- Whether the exponent and significand of a code are those of an infinity or a NaN (R66). -/
def isSpecial (f : FloatFmt) (e m : Nat) : Bool :=
  match f with
  | .fp32 => e == 255
  | .bf16 => e == 255
  | .fp16 => e == 31
  | .e4m3 => e == 15 && m == 7
  | .e5m2 => e == 31
  | _ => false

/-- What a delivery writes: a finite magnitude, an infinity or the format's NaN. -/
inductive Rounded where
  | finite (y : ℚ)
  | infinite
  | nan

/-- Whether a code of a format shows a sign and an outcome. -/
def shows (f : FloatFmt) (s : Bool) (c : Nat) : Rounded → Prop
  | .finite y => (decodeFloat f c).real = some (if s then -y else y) ∧ bitAt c ((fmtInfo f).w - 1) = s ∧ c < 2 ^ (fmtInfo f).w
  | .infinite => decodeFloat f c = .inf s
  | .nan => (fmtInfo f).nanCode = some c

/-- A magnitude rounded to a multiple of the unit in the last place (R95, R101). -/
def roundTo (md : Modes) (ctr : Nat) (u a : ℚ) : ℚ :=
  let n := ⌊a / u⌋
  let f := a / u - n
  let r := srbWidth md.srb
  let up := if md.rnd = 0 then 1 / 2 < f ∨ (f = 1 / 2 ∧ n % 2 = 1)
    else md.rnd = 2 ∧ (2 : ℤ) ^ r ≤ ⌊f * 2 ^ r⌋ + (husk md.key.toNat ctr / 2 ^ (32 - r) : Nat)
  (if up then n + 1 else n) * u

/-- The outcome of a rounded magnitude beyond the largest finite value, with its flags (R97). -/
def beyond (f : FloatFmt) (md : Modes) : Rounded × Flags :=
  match f with
  | .e2m3 => (.finite (maxFinite f), fOF ||| fNX ||| fST)
  | .e3m2 => (.finite (maxFinite f), fOF ||| fNX ||| fST)
  | .e2m1 => (.finite (maxFinite f), fOF ||| fNX ||| fST)
  | _ =>
    if md.sat then (.finite (maxFinite f), fOF ||| fNX ||| fST)
    else if md.rnd = 1 then (.finite (maxFinite f), fOF ||| fNX)
    else if f = .e4m3 then (.nan, fOF ||| fNX)
    else (.infinite, fOF ||| fNX)

/-- Deliver of a finite magnitude to a floating-point format (R95). -/
def asked (md : Modes) (ctr : Nat) (f : FloatFmt) (a : ℚ) : Rounded × Flags :=
  let p := fieldsOf f
  let u : ℚ := 2 ^ (max (Int.log 2 a) (1 - (p.2.2 : ℤ)) - p.2.1)
  let y := roundTo md ctr u a
  let fl : Flags := if a / u = ⌊a / u⌋ then 0 else if a < 2 ^ (1 - (p.2.2 : ℤ)) then fNX ||| fUF else fNX
  if maxFinite f < y then ((beyond f md).1, fl ||| (beyond f md).2) else (.finite y, fl)

/-- What an infinity writes, with its flags (R96). -/
def infinityTo (f : FloatFmt) (sat : Bool) : Rounded × Flags :=
  match f with
  | .e2m3 => (.finite (maxFinite f), fNV ||| fST)
  | .e3m2 => (.finite (maxFinite f), fNV ||| fST)
  | .e2m1 => (.finite (maxFinite f), fNV ||| fST)
  | .e4m3 => if sat then (.finite (maxFinite f), fST) else (.nan, fNV)
  | _ => if sat then (.finite (maxFinite f), fST) else (.infinite, 0)

/-- What a NaN writes, with its flags (R96): positive zero where the format has no NaN. -/
def nanTo (f : FloatFmt) : Rounded × Flags :=
  match f with
  | .e2m3 => (.finite 0, fNV)
  | .e3m2 => (.finite 0, fNV)
  | .e2m1 => (.finite 0, fNV)
  | _ => (.nan, 0)

/-- The range of an integer format (R76). -/
def intRange (w : Nat) (sg : Bool) : ℤ × ℤ := if sg then (-2 ^ (w - 1), 2 ^ (w - 1) - 1) else (0, 2 ^ w - 1)

/-- Deliver of a finite value to an integer format (R95, R97): the integer and the flags. -/
def askedInt (md : Modes) (ctr w : Nat) (sg s : Bool) (a : ℚ) : ℤ × Flags :=
  let y := ⌊roundTo md ctr 1 a⌋
  let v := if s then -y else y
  let fl : Flags := if a = ⌊a⌋ then 0 else fNX
  let r := intRange w sg
  if r.2 < v then (r.2, fl ||| fST ||| fNX) else if v < r.1 then (r.1, fl ||| fST ||| fNX) else (v, fl)

end Sys2Proof.Machine

/-- Results are the exact values, rounded once, as the rules of delivery say, and NaN and infinity as theirs say. For
every format, mode, counter and finite non-zero real of the form n * 2^e, the code delivered shows the real rounded to
the unit in the last place (to nearest even, toward zero, or by the draw of husk), or the overflow outcome of its
class, with the flags NX, UF, OF and ST; integer destinations the same with their limits; zeros keep their sign; with
FZ a result below the smallest normal is a zero with UF and NX. Sums and products of finite values are exact, and a
code decodes to the real that its fields give, or, where it is a special one, to NaN or the infinity of its sign. A
NaN and an infinity write what their destination has for them, with the flags NV and ST that the rules give; NaN goes
through every sum and product, infinities of opposite sign and zero times infinity give NaN; an element operation
raises NV where its result is NaN and no operand is; VREDSUM gives NaN, NaN with NV, or the infinity by its cases.
That the NaN comes first where it stands beside both infinities is the model's choice (log entry 148). (R66, R76, R92,
R95, R96, R97, R98, R100, R101, R129.) -/
def Obligations.ResultsAreRoundedFromExactValues : Prop :=
  (∀ (md : Modes) (ctr : Nat) (f : FloatFmt) (s : Bool) (n : Nat) (e : Int), md.rnd ≤ 2 → 0 < n →
    let r := deliver md ctr (.fl f) (.fin s n e false)
    let x := asked md ctr f (n * 2 ^ e)
    shows f s r.1 x.1 ∧ r.2 = x.2) ∧
  (∀ (md : Modes) (ctr : Nat) (i : IntFmt) (s : Bool) (n : Nat) (e : Int), md.rnd ≤ 2 → 0 < n →
    let x := askedInt md ctr i.bits i.signed s (n * 2 ^ e)
    deliver md ctr (intDest i) (.fin s n e false) = (codeOfInt i.bits x.1, x.2)) ∧
  (∀ (md : Modes) (ctr : Nat) (f : FloatFmt) (s : Bool),
    shows f s (deliver md ctr (.fl f) (.zero s)).1 (.finite 0) ∧ (deliver md ctr (.fl f) (.zero s)).2 = 0) ∧
  (∀ (md : Modes) (ctr : Nat) (f : FloatFmt) (s : Bool) (n : Nat) (e : Int), 0 < n →
    let small := (n : ℚ) * 2 ^ e < 2 ^ (1 - ((fieldsOf f).2.2 : ℤ))
    (md.fz = true → small → shows f s (deliverFz md ctr f (.fin s n e false)).1 (.finite 0) ∧ (deliverFz md ctr f (.fin s n e false)).2 = fUF ||| fNX) ∧
    (md.fz = false ∨ ¬small → deliverFz md ctr f (.fin s n e false) = deliver md ctr (.fl f) (.fin s n e false))) ∧
  (∀ (x y : Exact) (p q : ℚ), x.real = some p → y.real = some q → (x.add y).real = some (p + q) ∧ (x.mul y).real = some (p * q)) ∧
  (∀ (f : FloatFmt) (s : Bool) (e m : Nat), let p := fieldsOf f
    e < 2 ^ p.1 → m < 2 ^ p.2.1 →
    (decodeFloat f (m + e * 2 ^ p.2.1 + bitOf s * 2 ^ (p.1 + p.2.1))).real =
      if isSpecial f e m then none
      else some ((if s then -1 else 1) * (if e = 0 then (m : ℚ) * 2 ^ (1 - (p.2.2 : ℤ) - p.2.1) else (2 ^ p.2.1 + (m : ℚ)) * 2 ^ ((e : ℤ) - p.2.2 - p.2.1)))) ∧
  (∀ (f : FloatFmt) (s : Bool) (e m : Nat), let p := fieldsOf f
    e < 2 ^ p.1 → m < 2 ^ p.2.1 → isSpecial f e m = true →
    decodeFloat f (m + e * 2 ^ p.2.1 + bitOf s * 2 ^ (p.1 + p.2.1)) = if f = .e4m3 ∨ m ≠ 0 then .nan else .inf s) ∧
  (∀ (md : Modes) (ctr : Nat) (f : FloatFmt),
    shows f false (deliver md ctr (.fl f) .nan).1 (nanTo f).1 ∧ (deliver md ctr (.fl f) .nan).2 = (nanTo f).2 ∧
    ∀ s : Bool, shows f s (deliver md ctr (.fl f) (.inf s)).1 (infinityTo f md.sat).1 ∧
      (deliver md ctr (.fl f) (.inf s)).2 = (infinityTo f md.sat).2) ∧
  (∀ (md : Modes) (ctr : Nat) (i : IntFmt),
    deliver md ctr (intDest i) .nan = (0, fNV) ∧
    ∀ s : Bool, let r := intRange i.bits i.signed
      deliver md ctr (intDest i) (.inf s) = (codeOfInt i.bits (if s then r.1 else r.2), fNV ||| fST)) ∧
  (∀ x : Exact, x.add .nan = .nan ∧ Exact.add .nan x = .nan ∧ x.mul .nan = .nan ∧ Exact.mul .nan x = .nan) ∧
  (∀ s t : Bool, (Exact.inf s).add (.inf t) = (if s = t then .inf s else .nan) ∧ (Exact.inf s).mul (.inf t) = .inf (s != t) ∧
    (Exact.inf s).mul (.zero t) = .nan ∧ (Exact.zero t).mul (.inf s) = .nan) ∧
  (∀ (s t : Bool) (n : Nat) (e : Int) (k : Bool), (Exact.inf s).mul (.fin t n e k) = .inf (s != t) ∧ (Exact.fin t n e k).mul (.inf s) = .inf (s != t)) ∧
  (∀ (s : Bool) (y : Exact) (q : ℚ), y.real = some q → (Exact.inf s).add y = .inf s ∧ y.add (.inf s) = .inf s) ∧
  (∀ (md : Modes) (f : FloatFmt) (ctr : Nat) (ops : List Exact) (x : Exact), let r := arithElem md f ctr ops x
    r.1 = (deliverFz md ctr f x).1 ∧ r.2 = (deliverFz md ctr f x).2 ||| (if x = .nan ∧ .nan ∉ ops then fNV else 0)) ∧
  (∀ (md : Modes) (f : FloatFmt) (ctr : Nat) (s : Bool),
    deliverFz md ctr f .nan = deliver md ctr (.fl f) .nan ∧ deliverFz md ctr f (.inf s) = deliver md ctr (.fl f) (.inf s)) ∧
  (∀ l : List Exact,
    (.nan ∈ l → reduceSum l = (.nan, 0)) ∧
    (.nan ∉ l → .inf false ∈ l → .inf true ∈ l → reduceSum l = (.nan, fNV)) ∧
    (∀ s, .nan ∉ l → .inf s ∈ l → .inf (!s) ∉ l → reduceSum l = (.inf s, 0)))
end

