-- ==== Sys2Proof/Laws/Assoc.lean ====
section
/-! SUPPORT. What the operations on sparse stores and memories do: a read after a write, the canonical form they keep, and
two writes of one key. -/

namespace Sys2Proof.Machine

theorem Assoc.get_erase_self {α : Type} (d : α) (i : Nat) (m : Assoc α) : Assoc.get d (Assoc.erase i m) i = d := by
  induction m with
  | nil => rfl
  | cons p t ih =>
    obtain ⟨k, w⟩ := p
    by_cases h : k = i <;> simp [Assoc.erase, Assoc.get, h, ih]

theorem Assoc.get_erase_ne {α : Type} (d : α) {i j : Nat} (m : Assoc α) (h : j ≠ i) :
    Assoc.get d (Assoc.erase i m) j = Assoc.get d m j := by
  induction m with
  | nil => rfl
  | cons p t ih =>
    obtain ⟨k, w⟩ := p
    by_cases hk : k = i
    · subst hk
      simp [Assoc.erase, Assoc.get, ih, Ne.symm h]
    · simp only [Assoc.erase, hk, if_false, Assoc.get, ih]

theorem Assoc.get_insert_self {α : Type} (d : α) (i : Nat) (v : α) (m : Assoc α) :
    Assoc.get d (Assoc.insert i v m) i = v := by
  induction m with
  | nil => simp [Assoc.insert, Assoc.get]
  | cons p t ih =>
    obtain ⟨k, w⟩ := p
    by_cases h1 : i < k
    · simp [Assoc.insert, Assoc.get, h1]
    · by_cases h2 : i = k
      · simp [Assoc.insert, Assoc.get, h2]
      · simp [Assoc.insert, Assoc.get, h1, h2, Ne.symm h2, ih]

theorem Assoc.get_insert_ne {α : Type} (d : α) {i j : Nat} (v : α) (m : Assoc α) (h : j ≠ i) :
    Assoc.get d (Assoc.insert i v m) j = Assoc.get d m j := by
  induction m with
  | nil => simp [Assoc.insert, Assoc.get, Ne.symm h]
  | cons p t ih =>
    obtain ⟨k, w⟩ := p
    by_cases h1 : i < k
    · simp [Assoc.insert, Assoc.get, h1, Ne.symm h]
    · by_cases h2 : i = k
      · subst h2
        simp [Assoc.insert, Assoc.get, Ne.symm h]
      · simp only [Assoc.insert, h1, h2, if_false, Assoc.get, ih]

/-- The value at a key after a write of that key. -/
theorem Assoc.get_set_self {α : Type} [DecidableEq α] (d : α) (m : Assoc α) (i : Nat) (v : α) :
    Assoc.get d (Assoc.set d m i v) i = v := by
  by_cases h : v = d
  · simp [Assoc.set, h, Assoc.get_erase_self]
  · simp [Assoc.set, h, Assoc.get_insert_self]

/-- The value at another key after a write. -/
theorem Assoc.get_set_ne {α : Type} [DecidableEq α] (d : α) (m : Assoc α) {i j : Nat} (v : α) (h : j ≠ i) :
    Assoc.get d (Assoc.set d m i v) j = Assoc.get d m j := by
  by_cases hv : v = d
  · simp [Assoc.set, hv, Assoc.get_erase_ne d m h]
  · simp [Assoc.set, hv, Assoc.get_insert_ne d v m h]

theorem Assoc.insert_insert {α : Type} (i : Nat) (v w : α) (m : Assoc α) :
    Assoc.insert i v (Assoc.insert i w m) = Assoc.insert i v m := by
  induction m with
  | nil => simp [Assoc.insert]
  | cons p t ih =>
    obtain ⟨k, x⟩ := p
    by_cases h1 : i < k
    · simp [Assoc.insert, h1]
    · by_cases h2 : i = k
      · simp [Assoc.insert, h2]
      · simp [Assoc.insert, h1, h2, ih]

/-- The second of two writes of one key stands, where neither removes it. -/
theorem Assoc.set_set {α : Type} [DecidableEq α] (d : α) (m : Assoc α) (i : Nat) {v w : α} (hv : v ≠ d) (hw : w ≠ d) :
    Assoc.set d (Assoc.set d m i w) i v = Assoc.set d m i v := by
  simp [Assoc.set, hv, hw, Assoc.insert_insert]

/-! ## The canonical form -/

theorem Assoc.wfFrom_le {α : Type} [DecidableEq α] (d : α) (m : Assoc α) {lo lo' : Nat} (h : lo' ≤ lo)
    (hm : Assoc.wfFrom d lo m = true) : Assoc.wfFrom d lo' m = true := by
  cases m with
  | nil => rfl
  | cons p t =>
    obtain ⟨k, v⟩ := p
    simp only [Assoc.wfFrom, Bool.and_eq_true, decide_eq_true_eq] at hm ⊢
    exact ⟨⟨by omega, hm.1.2⟩, hm.2⟩

theorem Assoc.wfFrom_erase {α : Type} [DecidableEq α] (d : α) (i : Nat) (m : Assoc α) :
    ∀ lo, Assoc.wfFrom d lo m = true → Assoc.wfFrom d lo (Assoc.erase i m) = true := by
  induction m with
  | nil => intro lo h; exact h
  | cons p t ih =>
    obtain ⟨k, v⟩ := p
    intro lo h
    simp only [Assoc.wfFrom, Bool.and_eq_true, decide_eq_true_eq] at h
    by_cases hk : k = i
    · simp only [Assoc.erase, hk, if_true]
      exact Assoc.wfFrom_le d _ (by omega) (ih _ h.2)
    · simp only [Assoc.erase, hk, if_false, Assoc.wfFrom, Bool.and_eq_true, decide_eq_true_eq]
      exact ⟨h.1, ih _ h.2⟩

theorem Assoc.wfFrom_insert {α : Type} [DecidableEq α] (d : α) (i : Nat) {v : α} (hv : v ≠ d) (m : Assoc α) :
    ∀ lo, lo ≤ i → Assoc.wfFrom d lo m = true → Assoc.wfFrom d lo (Assoc.insert i v m) = true := by
  induction m with
  | nil => intro lo hl _; simp [Assoc.insert, Assoc.wfFrom, hl, hv]
  | cons p t ih =>
    obtain ⟨k, w⟩ := p
    intro lo hl h
    simp only [Assoc.wfFrom, Bool.and_eq_true, decide_eq_true_eq] at h
    by_cases h1 : i < k
    · simp only [Assoc.insert, h1, if_true, Assoc.wfFrom, Bool.and_eq_true, decide_eq_true_eq]
      refine ⟨⟨hl, by simp [hv]⟩, ⟨by omega, h.1.2⟩, h.2⟩
    · by_cases h2 : i = k
      · subst h2
        simp only [Assoc.insert, Nat.lt_irrefl, if_false, if_true, Assoc.wfFrom, Bool.and_eq_true, decide_eq_true_eq]
        exact ⟨⟨hl, by simp [hv]⟩, h.2⟩
      · simp only [Assoc.insert, h1, h2, if_false, Assoc.wfFrom, Bool.and_eq_true, decide_eq_true_eq]
        exact ⟨h.1, ih (k + 1) (by omega) h.2⟩

/-- A write keeps the canonical form. -/
theorem Assoc.wf_set {α : Type} [DecidableEq α] (d : α) (m : Assoc α) (i : Nat) (v : α) (h : Assoc.wf d m = true) :
    Assoc.wf d (Assoc.set d m i v) = true := by
  by_cases hv : v = d
  · simpa [Assoc.set, hv, Assoc.wf] using Assoc.wfFrom_erase d i m 0 h
  · simpa [Assoc.set, hv, Assoc.wf] using Assoc.wfFrom_insert d i hv m 0 (Nat.zero_le i) h

theorem Assoc.wfFrom_filter {α : Type} [DecidableEq α] (d : α) (p : Nat × α → Bool) (m : Assoc α) :
    ∀ lo, Assoc.wfFrom d lo m = true → Assoc.wfFrom d lo (m.filter p) = true := by
  induction m with
  | nil => intro lo h; exact h
  | cons q t ih =>
    obtain ⟨k, v⟩ := q
    intro lo h
    simp only [Assoc.wfFrom, Bool.and_eq_true, decide_eq_true_eq] at h
    by_cases hp : p (k, v) = true
    · simp only [List.filter_cons, hp, if_true, Assoc.wfFrom, Bool.and_eq_true, decide_eq_true_eq]
      exact ⟨h.1, ih _ h.2⟩
    · simp only [List.filter_cons, hp]
      exact Assoc.wfFrom_le d _ (by omega) (ih _ h.2)

/-- Some entries dropped keep the canonical form. -/
theorem Assoc.wf_filter {α : Type} [DecidableEq α] (d : α) (p : Nat × α → Bool) (m : Assoc α) (h : Assoc.wf d m = true) :
    Assoc.wf d (m.filter p) = true := Assoc.wfFrom_filter d p m 0 h

theorem Assoc.get_below {α : Type} [DecidableEq α] (d : α) (m : Assoc α) :
    ∀ lo j, Assoc.wfFrom d lo m = true → j < lo → Assoc.get d m j = d := by
  induction m with
  | nil => intro lo j _ _; rfl
  | cons p t ih =>
    obtain ⟨k, v⟩ := p
    intro lo j h hj
    simp only [Assoc.wfFrom, Bool.and_eq_true, decide_eq_true_eq] at h
    have hk : k ≠ j := by omega
    simp only [Assoc.get, hk, if_false]
    exact ih (k + 1) j h.2 (by omega)

theorem Assoc.ext_from {α : Type} [DecidableEq α] (d : α) : ∀ (m n : Assoc α) (lo : Nat),
    Assoc.wfFrom d lo m = true → Assoc.wfFrom d lo n = true → (∀ i, Assoc.get d m i = Assoc.get d n i) → m = n
  | [], [], _, _, _, _ => rfl
  | [], (k, v) :: t, lo, _, hn, h => by
    have := h k
    simp only [Assoc.wfFrom, Bool.and_eq_true, decide_eq_true_eq, Bool.not_eq_true', decide_eq_false_iff_not] at hn
    simp only [Assoc.get, if_true] at this
    exact absurd this.symm hn.1.2
  | (k, v) :: t, [], lo, hm, _, h => by
    have := h k
    simp only [Assoc.wfFrom, Bool.and_eq_true, decide_eq_true_eq, Bool.not_eq_true', decide_eq_false_iff_not] at hm
    simp only [Assoc.get, if_true] at this
    exact absurd this hm.1.2
  | (k, v) :: t, (k', v') :: t', lo, hm, hn, h => by
    simp only [Assoc.wfFrom, Bool.and_eq_true, decide_eq_true_eq, Bool.not_eq_true', decide_eq_false_iff_not] at hm hn
    have hk : k = k' := by
      rcases Nat.lt_trichotomy k k' with hlt | heq | hgt
      · have := h k
        have hne : k' ≠ k := by omega
        simp only [Assoc.get, if_true, hne, if_false] at this
        rw [Assoc.get_below d t' _ k hn.2 (by omega)] at this
        exact absurd this hm.1.2
      · exact heq
      · have := h k'
        have hne : k ≠ k' := by omega
        simp only [Assoc.get, if_true, hne, if_false] at this
        rw [Assoc.get_below d t _ k' hm.2 (by omega)] at this
        exact absurd this.symm hn.1.2
    subst hk
    have hv : v = v' := by simpa [Assoc.get] using h k
    subst hv
    have ht : t = t' := by
      refine Assoc.ext_from d t t' (k + 1) hm.2 hn.2 (fun i => ?_)
      by_cases hi : k = i
      · subst hi
        rw [Assoc.get_below d t _ k hm.2 (by omega), Assoc.get_below d t' _ k hn.2 (by omega)]
      · simpa [Assoc.get, hi] using h i
    rw [ht]

/-- Two stores in canonical form that read alike everywhere are equal data. -/
theorem Assoc.ext_of_get {α : Type} [DecidableEq α] (d : α) (m n : Assoc α) (hm : Assoc.wf d m = true)
    (hn : Assoc.wf d n = true) (h : ∀ i, Assoc.get d m i = Assoc.get d n i) : m = n := Assoc.ext_from d m n 0 hm hn h

/-! ## Memories -/

theorem Memory.read_write_self (m : Memory) (a : Nat) (v : Byte) : Memory.read (Memory.write m a v) a = v :=
  Assoc.get_set_self _ m a v

theorem Memory.read_write_ne (m : Memory) {a b : Nat} (v : Byte) (h : b ≠ a) :
    Memory.read (Memory.write m a v) b = Memory.read m b := Assoc.get_set_ne _ m v h

/-- The memory's operations keep its canonical form. -/
theorem Memory.wf_write (m : Memory) (a : Nat) (v : Byte) (h : Memory.wf m = true) : Memory.wf (Memory.write m a v) = true :=
  Assoc.wf_set _ m a v h

theorem Memory.wf_writeBytes (l : List Byte) : ∀ (m : Memory) (a : Nat), Memory.wf m = true →
    Memory.wf (Memory.writeBytes m a l) = true := by
  induction l with
  | nil => intro m a h; exact h
  | cons b t ih => intro m a h; exact ih _ _ (Memory.wf_write m a b h)

/-- What a byte reads as after a run of bytes is written: its byte of the run inside it, itself outside. -/
theorem Memory.read_writeBytes (l : List Byte) : ∀ (m : Memory) (a i : Nat),
    Memory.read (Memory.writeBytes m a l) i =
      if a ≤ i ∧ i < a + l.length then l.getD (i - a) 0 else Memory.read m i := by
  induction l with
  | nil => intro m a i; simp [Memory.writeBytes]
  | cons b t ih =>
    intro m a i
    simp only [Memory.writeBytes, ih, List.length_cons]
    by_cases h1 : i = a
    · subst h1
      rw [if_neg (by omega), if_pos (by omega), Memory.read_write_self]
      simp
    · rw [Memory.read_write_ne m b h1]
      by_cases h2 : a + 1 ≤ i ∧ i < a + 1 + t.length
      · rw [if_pos h2, if_pos (by omega)]
        obtain ⟨k, rfl⟩ : ∃ k, i = a + 1 + k := ⟨i - (a + 1), by omega⟩
        rw [show a + 1 + k - (a + 1) = k by omega, show a + 1 + k - a = k + 1 by omega]
        simp
      · rw [if_neg h2, if_neg (by omega)]

theorem Memory.length_readBytes (m : Memory) : ∀ n a, (Memory.readBytes m a n).length = n
  | 0, _ => rfl
  | n + 1, a => by simp [Memory.readBytes, Memory.length_readBytes m n (a + 1)]

end Sys2Proof.Machine
end

