-- ==== Sys2Proof/Laws/State.lean ====
section
/-! SUPPORT. What each update of the state leaves as it was, field by field and part by part, and what it writes. -/

namespace Sys2Proof.Machine

/-! ## Fields -/

@[simp] theorem Device.setCtx_mill (s : Device) (l core : Nat) (c : Ctx) : (s.setCtx l core c).mill = s.mill := rfl
@[simp] theorem Device.setCtx_sheaves (s : Device) (l core : Nat) (c : Ctx) : (s.setCtx l core c).sheaves = s.sheaves := rfl
@[simp] theorem Device.setCtx_spad (s : Device) (l core : Nat) (c : Ctx) : (s.setCtx l core c).spad = s.spad := rfl
@[simp] theorem Device.setCtx_spDirty (s : Device) (l core : Nat) (c : Ctx) : (s.setCtx l core c).spDirty = s.spDirty := rfl
@[simp] theorem Device.setCtx_felt (s : Device) (l core : Nat) (c : Ctx) : (s.setCtx l core c).felt = s.felt := rfl
@[simp] theorem Device.setCtx_acc (s : Device) (l core : Nat) (c : Ctx) : (s.setCtx l core c).acc = s.acc := rfl
@[simp] theorem Device.setCtx_accType (s : Device) (l core : Nat) (c : Ctx) : (s.setCtx l core c).accType = s.accType := rfl
@[simp] theorem Device.setCtx_accOpen (s : Device) (l core : Nat) (c : Ctx) : (s.setCtx l core c).accOpen = s.accOpen := rfl
@[simp] theorem Device.setCtx_accDirty (s : Device) (l core : Nat) (c : Ctx) : (s.setCtx l core c).accDirty = s.accDirty := rfl
@[simp] theorem Device.setCtx_tlbs (s : Device) (l core : Nat) (c : Ctx) : (s.setCtx l core c).tlbs = s.tlbs := rfl
@[simp] theorem Device.setCtx_dram (s : Device) (l core : Nat) (c : Ctx) : (s.setCtx l core c).dram = s.dram := rfl
@[simp] theorem Device.setCtx_hostMem (s : Device) (l core : Nat) (c : Ctx) : (s.setCtx l core c).hostMem = s.hostMem := rfl
@[simp] theorem Device.setCtx_hbm (s : Device) (l core : Nat) (c : Ctx) : (s.setCtx l core c).hbm = s.hbm := rfl
@[simp] theorem Device.setCtx_launches (s : Device) (l core : Nat) (c : Ctx) : (s.setCtx l core c).launches = s.launches := rfl
@[simp] theorem Device.setCtx_graphs (s : Device) (l core : Nat) (c : Ctx) : (s.setCtx l core c).graphs = s.graphs := rfl
@[simp] theorem Device.setCtx_jobs (s : Device) (l core : Nat) (c : Ctx) : (s.setCtx l core c).jobs = s.jobs := rfl
@[simp] theorem Device.setCtx_reservations (s : Device) (l core : Nat) (c : Ctx) : (s.setCtx l core c).reservations = s.reservations := rfl
@[simp] theorem Device.setCtx_ending (s : Device) (l core : Nat) (c : Ctx) : (s.setCtx l core c).ending = s.ending := rfl
@[simp] theorem Device.setCtx_admissions (s : Device) (l core : Nat) (c : Ctx) : (s.setCtx l core c).admissions = s.admissions := rfl
@[simp] theorem Device.setCtx_commits (s : Device) (l core : Nat) (c : Ctx) : (s.setCtx l core c).commits = s.commits := rfl
@[simp] theorem Device.setCtx_copies (s : Device) (l core : Nat) (c : Ctx) : (s.setCtx l core c).copies = s.copies := rfl
@[simp] theorem Device.setCtx_web (s : Device) (l core : Nat) (c : Ctx) : (s.setCtx l core c).web = s.web := rfl
@[simp] theorem Device.setCtx_ucopies (s : Device) (l core : Nat) (c : Ctx) : (s.setCtx l core c).ucopies = s.ucopies := rfl
@[simp] theorem Device.setCtx_signals (s : Device) (l core : Nat) (c : Ctx) : (s.setCtx l core c).signals = s.signals := rfl
@[simp] theorem Device.setCtx_vtQueues (s : Device) (l core : Nat) (c : Ctx) : (s.setCtx l core c).vtQueues = s.vtQueues := rfl
@[simp] theorem Device.setCtx_vtBusy (s : Device) (l core : Nat) (c : Ctx) : (s.setCtx l core c).vtBusy = s.vtBusy := rfl
@[simp] theorem Device.setCtx_freds (s : Device) (l core : Nat) (c : Ctx) : (s.setCtx l core c).freds = s.freds := rfl
@[simp] theorem Device.setCtx_held (s : Device) (l core : Nat) (c : Ctx) : (s.setCtx l core c).held = s.held := rfl
@[simp] theorem Device.setCtx_fredCount (s : Device) (l core : Nat) (c : Ctx) : (s.setCtx l core c).fredCount = s.fredCount := rfl
@[simp] theorem Device.setCtx_migrs (s : Device) (l core : Nat) (c : Ctx) : (s.setCtx l core c).migrs = s.migrs := rfl
@[simp] theorem Device.setCtx_images (s : Device) (l core : Nat) (c : Ctx) : (s.setCtx l core c).images = s.images := rfl
@[simp] theorem Device.setCtx_saved (s : Device) (l core : Nat) (c : Ctx) : (s.setCtx l core c).saved = s.saved := rfl
@[simp] theorem Device.setCtx_attests (s : Device) (l core : Nat) (c : Ctx) : (s.setCtx l core c).attests = s.attests := rfl
@[simp] theorem Device.setCtx_shootQ (s : Device) (l core : Nat) (c : Ctx) : (s.setCtx l core c).shootQ = s.shootQ := rfl
@[simp] theorem Device.setCtx_shootNow (s : Device) (l core : Nat) (c : Ctx) : (s.setCtx l core c).shootNow = s.shootNow := rfl
@[simp] theorem Device.setCtx_outbox (s : Device) (l core : Nat) (c : Ctx) : (s.setCtx l core c).outbox = s.outbox := rfl
@[simp] theorem Device.setCtx_log (s : Device) (l core : Nat) (c : Ctx) : (s.setCtx l core c).log = s.log := rfl
@[simp] theorem Device.setCtx_logHead (s : Device) (l core : Nat) (c : Ctx) : (s.setCtx l core c).logHead = s.logHead := rfl
@[simp] theorem Device.setCtx_logLost (s : Device) (l core : Nat) (c : Ctx) : (s.setCtx l core c).logLost = s.logLost := rfl
@[simp] theorem Device.setCtx_lostNow (s : Device) (l core : Nat) (c : Ctx) : (s.setCtx l core c).lostNow = s.lostNow := rfl
@[simp] theorem Device.setCtx_hvec (s : Device) (l core : Nat) (c : Ctx) : (s.setCtx l core c).hvec = s.hvec := rfl
@[simp] theorem Device.setCtx_rcfg (s : Device) (l core : Nat) (c : Ctx) : (s.setCtx l core c).rcfg = s.rcfg := rfl
@[simp] theorem Device.setCtx_haltSlot (s : Device) (l core : Nat) (c : Ctx) : (s.setCtx l core c).haltSlot = s.haltSlot := rfl
@[simp] theorem Device.setCtx_dbgsel (s : Device) (l core : Nat) (c : Ctx) : (s.setCtx l core c).dbgsel = s.dbgsel := rfl
@[simp] theorem Device.setCtx_clkMhz (s : Device) (l core : Nat) (c : Ctx) : (s.setCtx l core c).clkMhz = s.clkMhz := rfl
@[simp] theorem Device.setCtx_clkBusy (s : Device) (l core : Nat) (c : Ctx) : (s.setCtx l core c).clkBusy = s.clkBusy := rfl
@[simp] theorem Device.setCtx_startstat (s : Device) (l core : Nat) (c : Ctx) : (s.setCtx l core c).startstat = s.startstat := rfl
@[simp] theorem Device.setCtx_cfgLen (s : Device) (l core : Nat) (c : Ctx) : (s.setCtx l core c).cfgLen = s.cfgLen := rfl
@[simp] theorem Device.setCtx_cfgBusy (s : Device) (l core : Nat) (c : Ctx) : (s.setCtx l core c).cfgBusy = s.cfgBusy := rfl
@[simp] theorem Device.setCtx_cfgOk (s : Device) (l core : Nat) (c : Ctx) : (s.setCtx l core c).cfgOk = s.cfgOk := rfl
@[simp] theorem Device.setCtx_keyOk (s : Device) (l core : Nat) (c : Ctx) : (s.setCtx l core c).keyOk = s.keyOk := rfl
@[simp] theorem Device.setCtx_shootDone (s : Device) (l core : Nat) (c : Ctx) : (s.setCtx l core c).shootDone = s.shootDone := rfl
@[simp] theorem Device.setCtx_monval (s : Device) (l core : Nat) (c : Ctx) : (s.setCtx l core c).monval = s.monval := rfl
@[simp] theorem Device.setCtx_monthr (s : Device) (l core : Nat) (c : Ctx) : (s.setCtx l core c).monthr = s.monthr := rfl
@[simp] theorem Device.setCtx_trip (s : Device) (l core : Nat) (c : Ctx) : (s.setCtx l core c).trip = s.trip := rfl
@[simp] theorem Device.setCtx_tripped (s : Device) (l core : Nat) (c : Ctx) : (s.setCtx l core c).tripped = s.tripped := rfl
@[simp] theorem Device.setCtx_window (s : Device) (l core : Nat) (c : Ctx) : (s.setCtx l core c).window = s.window := rfl
@[simp] theorem Device.setCtx_hsigval (s : Device) (l core : Nat) (c : Ctx) : (s.setCtx l core c).hsigval = s.hsigval := rfl
@[simp] theorem Device.setCtx_accepted (s : Device) (l core : Nat) (c : Ctx) : (s.setCtx l core c).accepted = s.accepted := rfl
@[simp] theorem Device.setCtx_refused (s : Device) (l core : Nat) (c : Ctx) : (s.setCtx l core c).refused = s.refused := rfl
@[simp] theorem Device.setCtx_apfence (s : Device) (l core : Nat) (c : Ctx) : (s.setCtx l core c).apfence = s.apfence := rfl
@[simp] theorem Device.setCtx_vatcfg (s : Device) (l core : Nat) (c : Ctx) : (s.setCtx l core c).vatcfg = s.vatcfg := rfl
@[simp] theorem Device.setCtx_hdmcfg (s : Device) (l core : Nat) (c : Ctx) : (s.setCtx l core c).hdmcfg = s.hdmcfg := rfl
@[simp] theorem Device.setCtx_woveid (s : Device) (l core : Nat) (c : Ctx) : (s.setCtx l core c).woveid = s.woveid := rfl
@[simp] theorem Device.setCtx_wovectl (s : Device) (l core : Nat) (c : Ctx) : (s.setCtx l core c).wovectl = s.wovectl := rfl
@[simp] theorem Device.setCtx_route (s : Device) (l core : Nat) (c : Ctx) : (s.setCtx l core c).route = s.route := rfl
@[simp] theorem Device.setCtx_asctl (s : Device) (l core : Nat) (c : Ctx) : (s.setCtx l core c).asctl = s.asctl := rfl
@[simp] theorem Device.setCtx_meas (s : Device) (l core : Nat) (c : Ctx) : (s.setCtx l core c).meas = s.meas := rfl
@[simp] theorem Device.setCtx_measdata (s : Device) (l core : Nat) (c : Ctx) : (s.setCtx l core c).measdata = s.measdata := rfl
@[simp] theorem Device.setCtx_idpub (s : Device) (l core : Nat) (c : Ctx) : (s.setCtx l core c).idpub = s.idpub := rfl
@[simp] theorem Device.setCtx_serial (s : Device) (l core : Nat) (c : Ctx) : (s.setCtx l core c).serial = s.serial := rfl
@[simp] theorem Device.setCtx_store (s : Device) (l core : Nat) (c : Ctx) : (s.setCtx l core c).store = s.store := rfl
@[simp] theorem Device.setCtx_seq (s : Device) (l core : Nat) (c : Ctx) : (s.setCtx l core c).seq = s.seq := rfl
@[simp] theorem Device.setCtx_issue (s : Device) (l core : Nat) (c : Ctx) : (s.setCtx l core c).issue = s.issue := rfl
@[simp] theorem Device.setCtx_cxlHeld (s : Device) (l core : Nat) (c : Ctx) : (s.setCtx l core c).cxlHeld = s.cxlHeld := rfl
@[simp] theorem Device.setCtx_framesHeld (s : Device) (l core : Nat) (c : Ctx) : (s.setCtx l core c).framesHeld = s.framesHeld := rfl
@[simp] theorem Device.setCtx_startDue (s : Device) (l core : Nat) (c : Ctx) : (s.setCtx l core c).startDue = s.startDue := rfl
@[simp] theorem Device.setCtx_fresh (s : Device) (l core : Nat) (c : Ctx) : (s.setCtx l core c).fresh = s.fresh := rfl

@[simp] theorem Device.setLaunch_mill (s : Device) (l : Nat) (x : Launch) : (s.setLaunch l x).mill = s.mill := rfl
@[simp] theorem Device.setLaunch_ctxs (s : Device) (l : Nat) (x : Launch) : (s.setLaunch l x).ctxs = s.ctxs := rfl
@[simp] theorem Device.setLaunch_sheaves (s : Device) (l : Nat) (x : Launch) : (s.setLaunch l x).sheaves = s.sheaves := rfl
@[simp] theorem Device.setLaunch_spad (s : Device) (l : Nat) (x : Launch) : (s.setLaunch l x).spad = s.spad := rfl
@[simp] theorem Device.setLaunch_spDirty (s : Device) (l : Nat) (x : Launch) : (s.setLaunch l x).spDirty = s.spDirty := rfl
@[simp] theorem Device.setLaunch_felt (s : Device) (l : Nat) (x : Launch) : (s.setLaunch l x).felt = s.felt := rfl
@[simp] theorem Device.setLaunch_acc (s : Device) (l : Nat) (x : Launch) : (s.setLaunch l x).acc = s.acc := rfl
@[simp] theorem Device.setLaunch_accType (s : Device) (l : Nat) (x : Launch) : (s.setLaunch l x).accType = s.accType := rfl
@[simp] theorem Device.setLaunch_accOpen (s : Device) (l : Nat) (x : Launch) : (s.setLaunch l x).accOpen = s.accOpen := rfl
@[simp] theorem Device.setLaunch_accDirty (s : Device) (l : Nat) (x : Launch) : (s.setLaunch l x).accDirty = s.accDirty := rfl
@[simp] theorem Device.setLaunch_tlbs (s : Device) (l : Nat) (x : Launch) : (s.setLaunch l x).tlbs = s.tlbs := rfl
@[simp] theorem Device.setLaunch_dram (s : Device) (l : Nat) (x : Launch) : (s.setLaunch l x).dram = s.dram := rfl
@[simp] theorem Device.setLaunch_hostMem (s : Device) (l : Nat) (x : Launch) : (s.setLaunch l x).hostMem = s.hostMem := rfl
@[simp] theorem Device.setLaunch_hbm (s : Device) (l : Nat) (x : Launch) : (s.setLaunch l x).hbm = s.hbm := rfl
@[simp] theorem Device.setLaunch_graphs (s : Device) (l : Nat) (x : Launch) : (s.setLaunch l x).graphs = s.graphs := rfl
@[simp] theorem Device.setLaunch_jobs (s : Device) (l : Nat) (x : Launch) : (s.setLaunch l x).jobs = s.jobs := rfl
@[simp] theorem Device.setLaunch_reservations (s : Device) (l : Nat) (x : Launch) : (s.setLaunch l x).reservations = s.reservations := rfl
@[simp] theorem Device.setLaunch_ending (s : Device) (l : Nat) (x : Launch) : (s.setLaunch l x).ending = s.ending := rfl
@[simp] theorem Device.setLaunch_admissions (s : Device) (l : Nat) (x : Launch) : (s.setLaunch l x).admissions = s.admissions := rfl
@[simp] theorem Device.setLaunch_commits (s : Device) (l : Nat) (x : Launch) : (s.setLaunch l x).commits = s.commits := rfl
@[simp] theorem Device.setLaunch_copies (s : Device) (l : Nat) (x : Launch) : (s.setLaunch l x).copies = s.copies := rfl
@[simp] theorem Device.setLaunch_web (s : Device) (l : Nat) (x : Launch) : (s.setLaunch l x).web = s.web := rfl
@[simp] theorem Device.setLaunch_ucopies (s : Device) (l : Nat) (x : Launch) : (s.setLaunch l x).ucopies = s.ucopies := rfl
@[simp] theorem Device.setLaunch_signals (s : Device) (l : Nat) (x : Launch) : (s.setLaunch l x).signals = s.signals := rfl
@[simp] theorem Device.setLaunch_vtQueues (s : Device) (l : Nat) (x : Launch) : (s.setLaunch l x).vtQueues = s.vtQueues := rfl
@[simp] theorem Device.setLaunch_vtBusy (s : Device) (l : Nat) (x : Launch) : (s.setLaunch l x).vtBusy = s.vtBusy := rfl
@[simp] theorem Device.setLaunch_freds (s : Device) (l : Nat) (x : Launch) : (s.setLaunch l x).freds = s.freds := rfl
@[simp] theorem Device.setLaunch_held (s : Device) (l : Nat) (x : Launch) : (s.setLaunch l x).held = s.held := rfl
@[simp] theorem Device.setLaunch_fredCount (s : Device) (l : Nat) (x : Launch) : (s.setLaunch l x).fredCount = s.fredCount := rfl
@[simp] theorem Device.setLaunch_migrs (s : Device) (l : Nat) (x : Launch) : (s.setLaunch l x).migrs = s.migrs := rfl
@[simp] theorem Device.setLaunch_images (s : Device) (l : Nat) (x : Launch) : (s.setLaunch l x).images = s.images := rfl
@[simp] theorem Device.setLaunch_saved (s : Device) (l : Nat) (x : Launch) : (s.setLaunch l x).saved = s.saved := rfl
@[simp] theorem Device.setLaunch_attests (s : Device) (l : Nat) (x : Launch) : (s.setLaunch l x).attests = s.attests := rfl
@[simp] theorem Device.setLaunch_shootQ (s : Device) (l : Nat) (x : Launch) : (s.setLaunch l x).shootQ = s.shootQ := rfl
@[simp] theorem Device.setLaunch_shootNow (s : Device) (l : Nat) (x : Launch) : (s.setLaunch l x).shootNow = s.shootNow := rfl
@[simp] theorem Device.setLaunch_outbox (s : Device) (l : Nat) (x : Launch) : (s.setLaunch l x).outbox = s.outbox := rfl
@[simp] theorem Device.setLaunch_log (s : Device) (l : Nat) (x : Launch) : (s.setLaunch l x).log = s.log := rfl
@[simp] theorem Device.setLaunch_logHead (s : Device) (l : Nat) (x : Launch) : (s.setLaunch l x).logHead = s.logHead := rfl
@[simp] theorem Device.setLaunch_logLost (s : Device) (l : Nat) (x : Launch) : (s.setLaunch l x).logLost = s.logLost := rfl
@[simp] theorem Device.setLaunch_lostNow (s : Device) (l : Nat) (x : Launch) : (s.setLaunch l x).lostNow = s.lostNow := rfl
@[simp] theorem Device.setLaunch_hvec (s : Device) (l : Nat) (x : Launch) : (s.setLaunch l x).hvec = s.hvec := rfl
@[simp] theorem Device.setLaunch_rcfg (s : Device) (l : Nat) (x : Launch) : (s.setLaunch l x).rcfg = s.rcfg := rfl
@[simp] theorem Device.setLaunch_haltSlot (s : Device) (l : Nat) (x : Launch) : (s.setLaunch l x).haltSlot = s.haltSlot := rfl
@[simp] theorem Device.setLaunch_dbgsel (s : Device) (l : Nat) (x : Launch) : (s.setLaunch l x).dbgsel = s.dbgsel := rfl
@[simp] theorem Device.setLaunch_clkMhz (s : Device) (l : Nat) (x : Launch) : (s.setLaunch l x).clkMhz = s.clkMhz := rfl
@[simp] theorem Device.setLaunch_clkBusy (s : Device) (l : Nat) (x : Launch) : (s.setLaunch l x).clkBusy = s.clkBusy := rfl
@[simp] theorem Device.setLaunch_startstat (s : Device) (l : Nat) (x : Launch) : (s.setLaunch l x).startstat = s.startstat := rfl
@[simp] theorem Device.setLaunch_cfgLen (s : Device) (l : Nat) (x : Launch) : (s.setLaunch l x).cfgLen = s.cfgLen := rfl
@[simp] theorem Device.setLaunch_cfgBusy (s : Device) (l : Nat) (x : Launch) : (s.setLaunch l x).cfgBusy = s.cfgBusy := rfl
@[simp] theorem Device.setLaunch_cfgOk (s : Device) (l : Nat) (x : Launch) : (s.setLaunch l x).cfgOk = s.cfgOk := rfl
@[simp] theorem Device.setLaunch_keyOk (s : Device) (l : Nat) (x : Launch) : (s.setLaunch l x).keyOk = s.keyOk := rfl
@[simp] theorem Device.setLaunch_shootDone (s : Device) (l : Nat) (x : Launch) : (s.setLaunch l x).shootDone = s.shootDone := rfl
@[simp] theorem Device.setLaunch_monval (s : Device) (l : Nat) (x : Launch) : (s.setLaunch l x).monval = s.monval := rfl
@[simp] theorem Device.setLaunch_monthr (s : Device) (l : Nat) (x : Launch) : (s.setLaunch l x).monthr = s.monthr := rfl
@[simp] theorem Device.setLaunch_trip (s : Device) (l : Nat) (x : Launch) : (s.setLaunch l x).trip = s.trip := rfl
@[simp] theorem Device.setLaunch_tripped (s : Device) (l : Nat) (x : Launch) : (s.setLaunch l x).tripped = s.tripped := rfl
@[simp] theorem Device.setLaunch_window (s : Device) (l : Nat) (x : Launch) : (s.setLaunch l x).window = s.window := rfl
@[simp] theorem Device.setLaunch_hsigval (s : Device) (l : Nat) (x : Launch) : (s.setLaunch l x).hsigval = s.hsigval := rfl
@[simp] theorem Device.setLaunch_accepted (s : Device) (l : Nat) (x : Launch) : (s.setLaunch l x).accepted = s.accepted := rfl
@[simp] theorem Device.setLaunch_refused (s : Device) (l : Nat) (x : Launch) : (s.setLaunch l x).refused = s.refused := rfl
@[simp] theorem Device.setLaunch_apfence (s : Device) (l : Nat) (x : Launch) : (s.setLaunch l x).apfence = s.apfence := rfl
@[simp] theorem Device.setLaunch_vatcfg (s : Device) (l : Nat) (x : Launch) : (s.setLaunch l x).vatcfg = s.vatcfg := rfl
@[simp] theorem Device.setLaunch_hdmcfg (s : Device) (l : Nat) (x : Launch) : (s.setLaunch l x).hdmcfg = s.hdmcfg := rfl
@[simp] theorem Device.setLaunch_woveid (s : Device) (l : Nat) (x : Launch) : (s.setLaunch l x).woveid = s.woveid := rfl
@[simp] theorem Device.setLaunch_wovectl (s : Device) (l : Nat) (x : Launch) : (s.setLaunch l x).wovectl = s.wovectl := rfl
@[simp] theorem Device.setLaunch_route (s : Device) (l : Nat) (x : Launch) : (s.setLaunch l x).route = s.route := rfl
@[simp] theorem Device.setLaunch_asctl (s : Device) (l : Nat) (x : Launch) : (s.setLaunch l x).asctl = s.asctl := rfl
@[simp] theorem Device.setLaunch_meas (s : Device) (l : Nat) (x : Launch) : (s.setLaunch l x).meas = s.meas := rfl
@[simp] theorem Device.setLaunch_measdata (s : Device) (l : Nat) (x : Launch) : (s.setLaunch l x).measdata = s.measdata := rfl
@[simp] theorem Device.setLaunch_idpub (s : Device) (l : Nat) (x : Launch) : (s.setLaunch l x).idpub = s.idpub := rfl
@[simp] theorem Device.setLaunch_serial (s : Device) (l : Nat) (x : Launch) : (s.setLaunch l x).serial = s.serial := rfl
@[simp] theorem Device.setLaunch_store (s : Device) (l : Nat) (x : Launch) : (s.setLaunch l x).store = s.store := rfl
@[simp] theorem Device.setLaunch_seq (s : Device) (l : Nat) (x : Launch) : (s.setLaunch l x).seq = s.seq := rfl
@[simp] theorem Device.setLaunch_issue (s : Device) (l : Nat) (x : Launch) : (s.setLaunch l x).issue = s.issue := rfl
@[simp] theorem Device.setLaunch_cxlHeld (s : Device) (l : Nat) (x : Launch) : (s.setLaunch l x).cxlHeld = s.cxlHeld := rfl
@[simp] theorem Device.setLaunch_framesHeld (s : Device) (l : Nat) (x : Launch) : (s.setLaunch l x).framesHeld = s.framesHeld := rfl
@[simp] theorem Device.setLaunch_startDue (s : Device) (l : Nat) (x : Launch) : (s.setLaunch l x).startDue = s.startDue := rfl
@[simp] theorem Device.setLaunch_fresh (s : Device) (l : Nat) (x : Launch) : (s.setLaunch l x).fresh = s.fresh := rfl

@[simp] theorem Device.setSheaf_mill (s : Device) (g : Nat) (x : Sheaf) : (s.setSheaf g x).mill = s.mill := rfl
@[simp] theorem Device.setSheaf_ctxs (s : Device) (g : Nat) (x : Sheaf) : (s.setSheaf g x).ctxs = s.ctxs := rfl
@[simp] theorem Device.setSheaf_spad (s : Device) (g : Nat) (x : Sheaf) : (s.setSheaf g x).spad = s.spad := rfl
@[simp] theorem Device.setSheaf_spDirty (s : Device) (g : Nat) (x : Sheaf) : (s.setSheaf g x).spDirty = s.spDirty := rfl
@[simp] theorem Device.setSheaf_felt (s : Device) (g : Nat) (x : Sheaf) : (s.setSheaf g x).felt = s.felt := rfl
@[simp] theorem Device.setSheaf_acc (s : Device) (g : Nat) (x : Sheaf) : (s.setSheaf g x).acc = s.acc := rfl
@[simp] theorem Device.setSheaf_accType (s : Device) (g : Nat) (x : Sheaf) : (s.setSheaf g x).accType = s.accType := rfl
@[simp] theorem Device.setSheaf_accOpen (s : Device) (g : Nat) (x : Sheaf) : (s.setSheaf g x).accOpen = s.accOpen := rfl
@[simp] theorem Device.setSheaf_accDirty (s : Device) (g : Nat) (x : Sheaf) : (s.setSheaf g x).accDirty = s.accDirty := rfl
@[simp] theorem Device.setSheaf_tlbs (s : Device) (g : Nat) (x : Sheaf) : (s.setSheaf g x).tlbs = s.tlbs := rfl
@[simp] theorem Device.setSheaf_dram (s : Device) (g : Nat) (x : Sheaf) : (s.setSheaf g x).dram = s.dram := rfl
@[simp] theorem Device.setSheaf_hostMem (s : Device) (g : Nat) (x : Sheaf) : (s.setSheaf g x).hostMem = s.hostMem := rfl
@[simp] theorem Device.setSheaf_hbm (s : Device) (g : Nat) (x : Sheaf) : (s.setSheaf g x).hbm = s.hbm := rfl
@[simp] theorem Device.setSheaf_launches (s : Device) (g : Nat) (x : Sheaf) : (s.setSheaf g x).launches = s.launches := rfl
@[simp] theorem Device.setSheaf_graphs (s : Device) (g : Nat) (x : Sheaf) : (s.setSheaf g x).graphs = s.graphs := rfl
@[simp] theorem Device.setSheaf_jobs (s : Device) (g : Nat) (x : Sheaf) : (s.setSheaf g x).jobs = s.jobs := rfl
@[simp] theorem Device.setSheaf_reservations (s : Device) (g : Nat) (x : Sheaf) : (s.setSheaf g x).reservations = s.reservations := rfl
@[simp] theorem Device.setSheaf_ending (s : Device) (g : Nat) (x : Sheaf) : (s.setSheaf g x).ending = s.ending := rfl
@[simp] theorem Device.setSheaf_admissions (s : Device) (g : Nat) (x : Sheaf) : (s.setSheaf g x).admissions = s.admissions := rfl
@[simp] theorem Device.setSheaf_commits (s : Device) (g : Nat) (x : Sheaf) : (s.setSheaf g x).commits = s.commits := rfl
@[simp] theorem Device.setSheaf_copies (s : Device) (g : Nat) (x : Sheaf) : (s.setSheaf g x).copies = s.copies := rfl
@[simp] theorem Device.setSheaf_web (s : Device) (g : Nat) (x : Sheaf) : (s.setSheaf g x).web = s.web := rfl
@[simp] theorem Device.setSheaf_ucopies (s : Device) (g : Nat) (x : Sheaf) : (s.setSheaf g x).ucopies = s.ucopies := rfl
@[simp] theorem Device.setSheaf_signals (s : Device) (g : Nat) (x : Sheaf) : (s.setSheaf g x).signals = s.signals := rfl
@[simp] theorem Device.setSheaf_vtQueues (s : Device) (g : Nat) (x : Sheaf) : (s.setSheaf g x).vtQueues = s.vtQueues := rfl
@[simp] theorem Device.setSheaf_vtBusy (s : Device) (g : Nat) (x : Sheaf) : (s.setSheaf g x).vtBusy = s.vtBusy := rfl
@[simp] theorem Device.setSheaf_freds (s : Device) (g : Nat) (x : Sheaf) : (s.setSheaf g x).freds = s.freds := rfl
@[simp] theorem Device.setSheaf_held (s : Device) (g : Nat) (x : Sheaf) : (s.setSheaf g x).held = s.held := rfl
@[simp] theorem Device.setSheaf_fredCount (s : Device) (g : Nat) (x : Sheaf) : (s.setSheaf g x).fredCount = s.fredCount := rfl
@[simp] theorem Device.setSheaf_migrs (s : Device) (g : Nat) (x : Sheaf) : (s.setSheaf g x).migrs = s.migrs := rfl
@[simp] theorem Device.setSheaf_images (s : Device) (g : Nat) (x : Sheaf) : (s.setSheaf g x).images = s.images := rfl
@[simp] theorem Device.setSheaf_saved (s : Device) (g : Nat) (x : Sheaf) : (s.setSheaf g x).saved = s.saved := rfl
@[simp] theorem Device.setSheaf_attests (s : Device) (g : Nat) (x : Sheaf) : (s.setSheaf g x).attests = s.attests := rfl
@[simp] theorem Device.setSheaf_shootQ (s : Device) (g : Nat) (x : Sheaf) : (s.setSheaf g x).shootQ = s.shootQ := rfl
@[simp] theorem Device.setSheaf_shootNow (s : Device) (g : Nat) (x : Sheaf) : (s.setSheaf g x).shootNow = s.shootNow := rfl
@[simp] theorem Device.setSheaf_outbox (s : Device) (g : Nat) (x : Sheaf) : (s.setSheaf g x).outbox = s.outbox := rfl
@[simp] theorem Device.setSheaf_log (s : Device) (g : Nat) (x : Sheaf) : (s.setSheaf g x).log = s.log := rfl
@[simp] theorem Device.setSheaf_logHead (s : Device) (g : Nat) (x : Sheaf) : (s.setSheaf g x).logHead = s.logHead := rfl
@[simp] theorem Device.setSheaf_logLost (s : Device) (g : Nat) (x : Sheaf) : (s.setSheaf g x).logLost = s.logLost := rfl
@[simp] theorem Device.setSheaf_lostNow (s : Device) (g : Nat) (x : Sheaf) : (s.setSheaf g x).lostNow = s.lostNow := rfl
@[simp] theorem Device.setSheaf_hvec (s : Device) (g : Nat) (x : Sheaf) : (s.setSheaf g x).hvec = s.hvec := rfl
@[simp] theorem Device.setSheaf_rcfg (s : Device) (g : Nat) (x : Sheaf) : (s.setSheaf g x).rcfg = s.rcfg := rfl
@[simp] theorem Device.setSheaf_haltSlot (s : Device) (g : Nat) (x : Sheaf) : (s.setSheaf g x).haltSlot = s.haltSlot := rfl
@[simp] theorem Device.setSheaf_dbgsel (s : Device) (g : Nat) (x : Sheaf) : (s.setSheaf g x).dbgsel = s.dbgsel := rfl
@[simp] theorem Device.setSheaf_clkMhz (s : Device) (g : Nat) (x : Sheaf) : (s.setSheaf g x).clkMhz = s.clkMhz := rfl
@[simp] theorem Device.setSheaf_clkBusy (s : Device) (g : Nat) (x : Sheaf) : (s.setSheaf g x).clkBusy = s.clkBusy := rfl
@[simp] theorem Device.setSheaf_startstat (s : Device) (g : Nat) (x : Sheaf) : (s.setSheaf g x).startstat = s.startstat := rfl
@[simp] theorem Device.setSheaf_cfgLen (s : Device) (g : Nat) (x : Sheaf) : (s.setSheaf g x).cfgLen = s.cfgLen := rfl
@[simp] theorem Device.setSheaf_cfgBusy (s : Device) (g : Nat) (x : Sheaf) : (s.setSheaf g x).cfgBusy = s.cfgBusy := rfl
@[simp] theorem Device.setSheaf_cfgOk (s : Device) (g : Nat) (x : Sheaf) : (s.setSheaf g x).cfgOk = s.cfgOk := rfl
@[simp] theorem Device.setSheaf_keyOk (s : Device) (g : Nat) (x : Sheaf) : (s.setSheaf g x).keyOk = s.keyOk := rfl
@[simp] theorem Device.setSheaf_shootDone (s : Device) (g : Nat) (x : Sheaf) : (s.setSheaf g x).shootDone = s.shootDone := rfl
@[simp] theorem Device.setSheaf_monval (s : Device) (g : Nat) (x : Sheaf) : (s.setSheaf g x).monval = s.monval := rfl
@[simp] theorem Device.setSheaf_monthr (s : Device) (g : Nat) (x : Sheaf) : (s.setSheaf g x).monthr = s.monthr := rfl
@[simp] theorem Device.setSheaf_trip (s : Device) (g : Nat) (x : Sheaf) : (s.setSheaf g x).trip = s.trip := rfl
@[simp] theorem Device.setSheaf_tripped (s : Device) (g : Nat) (x : Sheaf) : (s.setSheaf g x).tripped = s.tripped := rfl
@[simp] theorem Device.setSheaf_window (s : Device) (g : Nat) (x : Sheaf) : (s.setSheaf g x).window = s.window := rfl
@[simp] theorem Device.setSheaf_hsigval (s : Device) (g : Nat) (x : Sheaf) : (s.setSheaf g x).hsigval = s.hsigval := rfl
@[simp] theorem Device.setSheaf_accepted (s : Device) (g : Nat) (x : Sheaf) : (s.setSheaf g x).accepted = s.accepted := rfl
@[simp] theorem Device.setSheaf_refused (s : Device) (g : Nat) (x : Sheaf) : (s.setSheaf g x).refused = s.refused := rfl
@[simp] theorem Device.setSheaf_apfence (s : Device) (g : Nat) (x : Sheaf) : (s.setSheaf g x).apfence = s.apfence := rfl
@[simp] theorem Device.setSheaf_vatcfg (s : Device) (g : Nat) (x : Sheaf) : (s.setSheaf g x).vatcfg = s.vatcfg := rfl
@[simp] theorem Device.setSheaf_hdmcfg (s : Device) (g : Nat) (x : Sheaf) : (s.setSheaf g x).hdmcfg = s.hdmcfg := rfl
@[simp] theorem Device.setSheaf_woveid (s : Device) (g : Nat) (x : Sheaf) : (s.setSheaf g x).woveid = s.woveid := rfl
@[simp] theorem Device.setSheaf_wovectl (s : Device) (g : Nat) (x : Sheaf) : (s.setSheaf g x).wovectl = s.wovectl := rfl
@[simp] theorem Device.setSheaf_route (s : Device) (g : Nat) (x : Sheaf) : (s.setSheaf g x).route = s.route := rfl
@[simp] theorem Device.setSheaf_asctl (s : Device) (g : Nat) (x : Sheaf) : (s.setSheaf g x).asctl = s.asctl := rfl
@[simp] theorem Device.setSheaf_meas (s : Device) (g : Nat) (x : Sheaf) : (s.setSheaf g x).meas = s.meas := rfl
@[simp] theorem Device.setSheaf_measdata (s : Device) (g : Nat) (x : Sheaf) : (s.setSheaf g x).measdata = s.measdata := rfl
@[simp] theorem Device.setSheaf_idpub (s : Device) (g : Nat) (x : Sheaf) : (s.setSheaf g x).idpub = s.idpub := rfl
@[simp] theorem Device.setSheaf_serial (s : Device) (g : Nat) (x : Sheaf) : (s.setSheaf g x).serial = s.serial := rfl
@[simp] theorem Device.setSheaf_store (s : Device) (g : Nat) (x : Sheaf) : (s.setSheaf g x).store = s.store := rfl
@[simp] theorem Device.setSheaf_seq (s : Device) (g : Nat) (x : Sheaf) : (s.setSheaf g x).seq = s.seq := rfl
@[simp] theorem Device.setSheaf_issue (s : Device) (g : Nat) (x : Sheaf) : (s.setSheaf g x).issue = s.issue := rfl
@[simp] theorem Device.setSheaf_cxlHeld (s : Device) (g : Nat) (x : Sheaf) : (s.setSheaf g x).cxlHeld = s.cxlHeld := rfl
@[simp] theorem Device.setSheaf_framesHeld (s : Device) (g : Nat) (x : Sheaf) : (s.setSheaf g x).framesHeld = s.framesHeld := rfl
@[simp] theorem Device.setSheaf_startDue (s : Device) (g : Nat) (x : Sheaf) : (s.setSheaf g x).startDue = s.startDue := rfl
@[simp] theorem Device.setSheaf_fresh (s : Device) (g : Nat) (x : Sheaf) : (s.setSheaf g x).fresh = s.fresh := rfl

@[simp] theorem Device.setStack_mill (s : Device) (q : Nat) (x : Stack) : (s.setStack q x).mill = s.mill := rfl
@[simp] theorem Device.setStack_ctxs (s : Device) (q : Nat) (x : Stack) : (s.setStack q x).ctxs = s.ctxs := rfl
@[simp] theorem Device.setStack_sheaves (s : Device) (q : Nat) (x : Stack) : (s.setStack q x).sheaves = s.sheaves := rfl
@[simp] theorem Device.setStack_spad (s : Device) (q : Nat) (x : Stack) : (s.setStack q x).spad = s.spad := rfl
@[simp] theorem Device.setStack_spDirty (s : Device) (q : Nat) (x : Stack) : (s.setStack q x).spDirty = s.spDirty := rfl
@[simp] theorem Device.setStack_felt (s : Device) (q : Nat) (x : Stack) : (s.setStack q x).felt = s.felt := rfl
@[simp] theorem Device.setStack_acc (s : Device) (q : Nat) (x : Stack) : (s.setStack q x).acc = s.acc := rfl
@[simp] theorem Device.setStack_accType (s : Device) (q : Nat) (x : Stack) : (s.setStack q x).accType = s.accType := rfl
@[simp] theorem Device.setStack_accOpen (s : Device) (q : Nat) (x : Stack) : (s.setStack q x).accOpen = s.accOpen := rfl
@[simp] theorem Device.setStack_accDirty (s : Device) (q : Nat) (x : Stack) : (s.setStack q x).accDirty = s.accDirty := rfl
@[simp] theorem Device.setStack_tlbs (s : Device) (q : Nat) (x : Stack) : (s.setStack q x).tlbs = s.tlbs := rfl
@[simp] theorem Device.setStack_dram (s : Device) (q : Nat) (x : Stack) : (s.setStack q x).dram = s.dram := rfl
@[simp] theorem Device.setStack_hostMem (s : Device) (q : Nat) (x : Stack) : (s.setStack q x).hostMem = s.hostMem := rfl
@[simp] theorem Device.setStack_launches (s : Device) (q : Nat) (x : Stack) : (s.setStack q x).launches = s.launches := rfl
@[simp] theorem Device.setStack_graphs (s : Device) (q : Nat) (x : Stack) : (s.setStack q x).graphs = s.graphs := rfl
@[simp] theorem Device.setStack_jobs (s : Device) (q : Nat) (x : Stack) : (s.setStack q x).jobs = s.jobs := rfl
@[simp] theorem Device.setStack_reservations (s : Device) (q : Nat) (x : Stack) : (s.setStack q x).reservations = s.reservations := rfl
@[simp] theorem Device.setStack_ending (s : Device) (q : Nat) (x : Stack) : (s.setStack q x).ending = s.ending := rfl
@[simp] theorem Device.setStack_admissions (s : Device) (q : Nat) (x : Stack) : (s.setStack q x).admissions = s.admissions := rfl
@[simp] theorem Device.setStack_commits (s : Device) (q : Nat) (x : Stack) : (s.setStack q x).commits = s.commits := rfl
@[simp] theorem Device.setStack_copies (s : Device) (q : Nat) (x : Stack) : (s.setStack q x).copies = s.copies := rfl
@[simp] theorem Device.setStack_web (s : Device) (q : Nat) (x : Stack) : (s.setStack q x).web = s.web := rfl
@[simp] theorem Device.setStack_ucopies (s : Device) (q : Nat) (x : Stack) : (s.setStack q x).ucopies = s.ucopies := rfl
@[simp] theorem Device.setStack_signals (s : Device) (q : Nat) (x : Stack) : (s.setStack q x).signals = s.signals := rfl
@[simp] theorem Device.setStack_vtQueues (s : Device) (q : Nat) (x : Stack) : (s.setStack q x).vtQueues = s.vtQueues := rfl
@[simp] theorem Device.setStack_vtBusy (s : Device) (q : Nat) (x : Stack) : (s.setStack q x).vtBusy = s.vtBusy := rfl
@[simp] theorem Device.setStack_freds (s : Device) (q : Nat) (x : Stack) : (s.setStack q x).freds = s.freds := rfl
@[simp] theorem Device.setStack_held (s : Device) (q : Nat) (x : Stack) : (s.setStack q x).held = s.held := rfl
@[simp] theorem Device.setStack_fredCount (s : Device) (q : Nat) (x : Stack) : (s.setStack q x).fredCount = s.fredCount := rfl
@[simp] theorem Device.setStack_migrs (s : Device) (q : Nat) (x : Stack) : (s.setStack q x).migrs = s.migrs := rfl
@[simp] theorem Device.setStack_images (s : Device) (q : Nat) (x : Stack) : (s.setStack q x).images = s.images := rfl
@[simp] theorem Device.setStack_saved (s : Device) (q : Nat) (x : Stack) : (s.setStack q x).saved = s.saved := rfl
@[simp] theorem Device.setStack_attests (s : Device) (q : Nat) (x : Stack) : (s.setStack q x).attests = s.attests := rfl
@[simp] theorem Device.setStack_shootQ (s : Device) (q : Nat) (x : Stack) : (s.setStack q x).shootQ = s.shootQ := rfl
@[simp] theorem Device.setStack_shootNow (s : Device) (q : Nat) (x : Stack) : (s.setStack q x).shootNow = s.shootNow := rfl
@[simp] theorem Device.setStack_outbox (s : Device) (q : Nat) (x : Stack) : (s.setStack q x).outbox = s.outbox := rfl
@[simp] theorem Device.setStack_log (s : Device) (q : Nat) (x : Stack) : (s.setStack q x).log = s.log := rfl
@[simp] theorem Device.setStack_logHead (s : Device) (q : Nat) (x : Stack) : (s.setStack q x).logHead = s.logHead := rfl
@[simp] theorem Device.setStack_logLost (s : Device) (q : Nat) (x : Stack) : (s.setStack q x).logLost = s.logLost := rfl
@[simp] theorem Device.setStack_lostNow (s : Device) (q : Nat) (x : Stack) : (s.setStack q x).lostNow = s.lostNow := rfl
@[simp] theorem Device.setStack_hvec (s : Device) (q : Nat) (x : Stack) : (s.setStack q x).hvec = s.hvec := rfl
@[simp] theorem Device.setStack_rcfg (s : Device) (q : Nat) (x : Stack) : (s.setStack q x).rcfg = s.rcfg := rfl
@[simp] theorem Device.setStack_haltSlot (s : Device) (q : Nat) (x : Stack) : (s.setStack q x).haltSlot = s.haltSlot := rfl
@[simp] theorem Device.setStack_dbgsel (s : Device) (q : Nat) (x : Stack) : (s.setStack q x).dbgsel = s.dbgsel := rfl
@[simp] theorem Device.setStack_clkMhz (s : Device) (q : Nat) (x : Stack) : (s.setStack q x).clkMhz = s.clkMhz := rfl
@[simp] theorem Device.setStack_clkBusy (s : Device) (q : Nat) (x : Stack) : (s.setStack q x).clkBusy = s.clkBusy := rfl
@[simp] theorem Device.setStack_startstat (s : Device) (q : Nat) (x : Stack) : (s.setStack q x).startstat = s.startstat := rfl
@[simp] theorem Device.setStack_cfgLen (s : Device) (q : Nat) (x : Stack) : (s.setStack q x).cfgLen = s.cfgLen := rfl
@[simp] theorem Device.setStack_cfgBusy (s : Device) (q : Nat) (x : Stack) : (s.setStack q x).cfgBusy = s.cfgBusy := rfl
@[simp] theorem Device.setStack_cfgOk (s : Device) (q : Nat) (x : Stack) : (s.setStack q x).cfgOk = s.cfgOk := rfl
@[simp] theorem Device.setStack_keyOk (s : Device) (q : Nat) (x : Stack) : (s.setStack q x).keyOk = s.keyOk := rfl
@[simp] theorem Device.setStack_shootDone (s : Device) (q : Nat) (x : Stack) : (s.setStack q x).shootDone = s.shootDone := rfl
@[simp] theorem Device.setStack_monval (s : Device) (q : Nat) (x : Stack) : (s.setStack q x).monval = s.monval := rfl
@[simp] theorem Device.setStack_monthr (s : Device) (q : Nat) (x : Stack) : (s.setStack q x).monthr = s.monthr := rfl
@[simp] theorem Device.setStack_trip (s : Device) (q : Nat) (x : Stack) : (s.setStack q x).trip = s.trip := rfl
@[simp] theorem Device.setStack_tripped (s : Device) (q : Nat) (x : Stack) : (s.setStack q x).tripped = s.tripped := rfl
@[simp] theorem Device.setStack_window (s : Device) (q : Nat) (x : Stack) : (s.setStack q x).window = s.window := rfl
@[simp] theorem Device.setStack_hsigval (s : Device) (q : Nat) (x : Stack) : (s.setStack q x).hsigval = s.hsigval := rfl
@[simp] theorem Device.setStack_accepted (s : Device) (q : Nat) (x : Stack) : (s.setStack q x).accepted = s.accepted := rfl
@[simp] theorem Device.setStack_refused (s : Device) (q : Nat) (x : Stack) : (s.setStack q x).refused = s.refused := rfl
@[simp] theorem Device.setStack_apfence (s : Device) (q : Nat) (x : Stack) : (s.setStack q x).apfence = s.apfence := rfl
@[simp] theorem Device.setStack_vatcfg (s : Device) (q : Nat) (x : Stack) : (s.setStack q x).vatcfg = s.vatcfg := rfl
@[simp] theorem Device.setStack_hdmcfg (s : Device) (q : Nat) (x : Stack) : (s.setStack q x).hdmcfg = s.hdmcfg := rfl
@[simp] theorem Device.setStack_woveid (s : Device) (q : Nat) (x : Stack) : (s.setStack q x).woveid = s.woveid := rfl
@[simp] theorem Device.setStack_wovectl (s : Device) (q : Nat) (x : Stack) : (s.setStack q x).wovectl = s.wovectl := rfl
@[simp] theorem Device.setStack_route (s : Device) (q : Nat) (x : Stack) : (s.setStack q x).route = s.route := rfl
@[simp] theorem Device.setStack_asctl (s : Device) (q : Nat) (x : Stack) : (s.setStack q x).asctl = s.asctl := rfl
@[simp] theorem Device.setStack_meas (s : Device) (q : Nat) (x : Stack) : (s.setStack q x).meas = s.meas := rfl
@[simp] theorem Device.setStack_measdata (s : Device) (q : Nat) (x : Stack) : (s.setStack q x).measdata = s.measdata := rfl
@[simp] theorem Device.setStack_idpub (s : Device) (q : Nat) (x : Stack) : (s.setStack q x).idpub = s.idpub := rfl
@[simp] theorem Device.setStack_serial (s : Device) (q : Nat) (x : Stack) : (s.setStack q x).serial = s.serial := rfl
@[simp] theorem Device.setStack_store (s : Device) (q : Nat) (x : Stack) : (s.setStack q x).store = s.store := rfl
@[simp] theorem Device.setStack_seq (s : Device) (q : Nat) (x : Stack) : (s.setStack q x).seq = s.seq := rfl
@[simp] theorem Device.setStack_issue (s : Device) (q : Nat) (x : Stack) : (s.setStack q x).issue = s.issue := rfl
@[simp] theorem Device.setStack_cxlHeld (s : Device) (q : Nat) (x : Stack) : (s.setStack q x).cxlHeld = s.cxlHeld := rfl
@[simp] theorem Device.setStack_framesHeld (s : Device) (q : Nat) (x : Stack) : (s.setStack q x).framesHeld = s.framesHeld := rfl
@[simp] theorem Device.setStack_startDue (s : Device) (q : Nat) (x : Stack) : (s.setStack q x).startDue = s.startDue := rfl
@[simp] theorem Device.setStack_fresh (s : Device) (q : Nat) (x : Stack) : (s.setStack q x).fresh = s.fresh := rfl

@[simp] theorem Device.setGraph_mill (s : Device) (g : Nat) (x : Graph) : (s.setGraph g x).mill = s.mill := rfl
@[simp] theorem Device.setGraph_ctxs (s : Device) (g : Nat) (x : Graph) : (s.setGraph g x).ctxs = s.ctxs := rfl
@[simp] theorem Device.setGraph_sheaves (s : Device) (g : Nat) (x : Graph) : (s.setGraph g x).sheaves = s.sheaves := rfl
@[simp] theorem Device.setGraph_spad (s : Device) (g : Nat) (x : Graph) : (s.setGraph g x).spad = s.spad := rfl
@[simp] theorem Device.setGraph_spDirty (s : Device) (g : Nat) (x : Graph) : (s.setGraph g x).spDirty = s.spDirty := rfl
@[simp] theorem Device.setGraph_felt (s : Device) (g : Nat) (x : Graph) : (s.setGraph g x).felt = s.felt := rfl
@[simp] theorem Device.setGraph_acc (s : Device) (g : Nat) (x : Graph) : (s.setGraph g x).acc = s.acc := rfl
@[simp] theorem Device.setGraph_accType (s : Device) (g : Nat) (x : Graph) : (s.setGraph g x).accType = s.accType := rfl
@[simp] theorem Device.setGraph_accOpen (s : Device) (g : Nat) (x : Graph) : (s.setGraph g x).accOpen = s.accOpen := rfl
@[simp] theorem Device.setGraph_accDirty (s : Device) (g : Nat) (x : Graph) : (s.setGraph g x).accDirty = s.accDirty := rfl
@[simp] theorem Device.setGraph_tlbs (s : Device) (g : Nat) (x : Graph) : (s.setGraph g x).tlbs = s.tlbs := rfl
@[simp] theorem Device.setGraph_dram (s : Device) (g : Nat) (x : Graph) : (s.setGraph g x).dram = s.dram := rfl
@[simp] theorem Device.setGraph_hostMem (s : Device) (g : Nat) (x : Graph) : (s.setGraph g x).hostMem = s.hostMem := rfl
@[simp] theorem Device.setGraph_hbm (s : Device) (g : Nat) (x : Graph) : (s.setGraph g x).hbm = s.hbm := rfl
@[simp] theorem Device.setGraph_launches (s : Device) (g : Nat) (x : Graph) : (s.setGraph g x).launches = s.launches := rfl
@[simp] theorem Device.setGraph_jobs (s : Device) (g : Nat) (x : Graph) : (s.setGraph g x).jobs = s.jobs := rfl
@[simp] theorem Device.setGraph_reservations (s : Device) (g : Nat) (x : Graph) : (s.setGraph g x).reservations = s.reservations := rfl
@[simp] theorem Device.setGraph_ending (s : Device) (g : Nat) (x : Graph) : (s.setGraph g x).ending = s.ending := rfl
@[simp] theorem Device.setGraph_admissions (s : Device) (g : Nat) (x : Graph) : (s.setGraph g x).admissions = s.admissions := rfl
@[simp] theorem Device.setGraph_commits (s : Device) (g : Nat) (x : Graph) : (s.setGraph g x).commits = s.commits := rfl
@[simp] theorem Device.setGraph_copies (s : Device) (g : Nat) (x : Graph) : (s.setGraph g x).copies = s.copies := rfl
@[simp] theorem Device.setGraph_web (s : Device) (g : Nat) (x : Graph) : (s.setGraph g x).web = s.web := rfl
@[simp] theorem Device.setGraph_ucopies (s : Device) (g : Nat) (x : Graph) : (s.setGraph g x).ucopies = s.ucopies := rfl
@[simp] theorem Device.setGraph_signals (s : Device) (g : Nat) (x : Graph) : (s.setGraph g x).signals = s.signals := rfl
@[simp] theorem Device.setGraph_vtQueues (s : Device) (g : Nat) (x : Graph) : (s.setGraph g x).vtQueues = s.vtQueues := rfl
@[simp] theorem Device.setGraph_vtBusy (s : Device) (g : Nat) (x : Graph) : (s.setGraph g x).vtBusy = s.vtBusy := rfl
@[simp] theorem Device.setGraph_freds (s : Device) (g : Nat) (x : Graph) : (s.setGraph g x).freds = s.freds := rfl
@[simp] theorem Device.setGraph_held (s : Device) (g : Nat) (x : Graph) : (s.setGraph g x).held = s.held := rfl
@[simp] theorem Device.setGraph_fredCount (s : Device) (g : Nat) (x : Graph) : (s.setGraph g x).fredCount = s.fredCount := rfl
@[simp] theorem Device.setGraph_migrs (s : Device) (g : Nat) (x : Graph) : (s.setGraph g x).migrs = s.migrs := rfl
@[simp] theorem Device.setGraph_images (s : Device) (g : Nat) (x : Graph) : (s.setGraph g x).images = s.images := rfl
@[simp] theorem Device.setGraph_saved (s : Device) (g : Nat) (x : Graph) : (s.setGraph g x).saved = s.saved := rfl
@[simp] theorem Device.setGraph_attests (s : Device) (g : Nat) (x : Graph) : (s.setGraph g x).attests = s.attests := rfl
@[simp] theorem Device.setGraph_shootQ (s : Device) (g : Nat) (x : Graph) : (s.setGraph g x).shootQ = s.shootQ := rfl
@[simp] theorem Device.setGraph_shootNow (s : Device) (g : Nat) (x : Graph) : (s.setGraph g x).shootNow = s.shootNow := rfl
@[simp] theorem Device.setGraph_outbox (s : Device) (g : Nat) (x : Graph) : (s.setGraph g x).outbox = s.outbox := rfl
@[simp] theorem Device.setGraph_log (s : Device) (g : Nat) (x : Graph) : (s.setGraph g x).log = s.log := rfl
@[simp] theorem Device.setGraph_logHead (s : Device) (g : Nat) (x : Graph) : (s.setGraph g x).logHead = s.logHead := rfl
@[simp] theorem Device.setGraph_logLost (s : Device) (g : Nat) (x : Graph) : (s.setGraph g x).logLost = s.logLost := rfl
@[simp] theorem Device.setGraph_lostNow (s : Device) (g : Nat) (x : Graph) : (s.setGraph g x).lostNow = s.lostNow := rfl
@[simp] theorem Device.setGraph_hvec (s : Device) (g : Nat) (x : Graph) : (s.setGraph g x).hvec = s.hvec := rfl
@[simp] theorem Device.setGraph_rcfg (s : Device) (g : Nat) (x : Graph) : (s.setGraph g x).rcfg = s.rcfg := rfl
@[simp] theorem Device.setGraph_haltSlot (s : Device) (g : Nat) (x : Graph) : (s.setGraph g x).haltSlot = s.haltSlot := rfl
@[simp] theorem Device.setGraph_dbgsel (s : Device) (g : Nat) (x : Graph) : (s.setGraph g x).dbgsel = s.dbgsel := rfl
@[simp] theorem Device.setGraph_clkMhz (s : Device) (g : Nat) (x : Graph) : (s.setGraph g x).clkMhz = s.clkMhz := rfl
@[simp] theorem Device.setGraph_clkBusy (s : Device) (g : Nat) (x : Graph) : (s.setGraph g x).clkBusy = s.clkBusy := rfl
@[simp] theorem Device.setGraph_startstat (s : Device) (g : Nat) (x : Graph) : (s.setGraph g x).startstat = s.startstat := rfl
@[simp] theorem Device.setGraph_cfgLen (s : Device) (g : Nat) (x : Graph) : (s.setGraph g x).cfgLen = s.cfgLen := rfl
@[simp] theorem Device.setGraph_cfgBusy (s : Device) (g : Nat) (x : Graph) : (s.setGraph g x).cfgBusy = s.cfgBusy := rfl
@[simp] theorem Device.setGraph_cfgOk (s : Device) (g : Nat) (x : Graph) : (s.setGraph g x).cfgOk = s.cfgOk := rfl
@[simp] theorem Device.setGraph_keyOk (s : Device) (g : Nat) (x : Graph) : (s.setGraph g x).keyOk = s.keyOk := rfl
@[simp] theorem Device.setGraph_shootDone (s : Device) (g : Nat) (x : Graph) : (s.setGraph g x).shootDone = s.shootDone := rfl
@[simp] theorem Device.setGraph_monval (s : Device) (g : Nat) (x : Graph) : (s.setGraph g x).monval = s.monval := rfl
@[simp] theorem Device.setGraph_monthr (s : Device) (g : Nat) (x : Graph) : (s.setGraph g x).monthr = s.monthr := rfl
@[simp] theorem Device.setGraph_trip (s : Device) (g : Nat) (x : Graph) : (s.setGraph g x).trip = s.trip := rfl
@[simp] theorem Device.setGraph_tripped (s : Device) (g : Nat) (x : Graph) : (s.setGraph g x).tripped = s.tripped := rfl
@[simp] theorem Device.setGraph_window (s : Device) (g : Nat) (x : Graph) : (s.setGraph g x).window = s.window := rfl
@[simp] theorem Device.setGraph_hsigval (s : Device) (g : Nat) (x : Graph) : (s.setGraph g x).hsigval = s.hsigval := rfl
@[simp] theorem Device.setGraph_accepted (s : Device) (g : Nat) (x : Graph) : (s.setGraph g x).accepted = s.accepted := rfl
@[simp] theorem Device.setGraph_refused (s : Device) (g : Nat) (x : Graph) : (s.setGraph g x).refused = s.refused := rfl
@[simp] theorem Device.setGraph_apfence (s : Device) (g : Nat) (x : Graph) : (s.setGraph g x).apfence = s.apfence := rfl
@[simp] theorem Device.setGraph_vatcfg (s : Device) (g : Nat) (x : Graph) : (s.setGraph g x).vatcfg = s.vatcfg := rfl
@[simp] theorem Device.setGraph_hdmcfg (s : Device) (g : Nat) (x : Graph) : (s.setGraph g x).hdmcfg = s.hdmcfg := rfl
@[simp] theorem Device.setGraph_woveid (s : Device) (g : Nat) (x : Graph) : (s.setGraph g x).woveid = s.woveid := rfl
@[simp] theorem Device.setGraph_wovectl (s : Device) (g : Nat) (x : Graph) : (s.setGraph g x).wovectl = s.wovectl := rfl
@[simp] theorem Device.setGraph_route (s : Device) (g : Nat) (x : Graph) : (s.setGraph g x).route = s.route := rfl
@[simp] theorem Device.setGraph_asctl (s : Device) (g : Nat) (x : Graph) : (s.setGraph g x).asctl = s.asctl := rfl
@[simp] theorem Device.setGraph_meas (s : Device) (g : Nat) (x : Graph) : (s.setGraph g x).meas = s.meas := rfl
@[simp] theorem Device.setGraph_measdata (s : Device) (g : Nat) (x : Graph) : (s.setGraph g x).measdata = s.measdata := rfl
@[simp] theorem Device.setGraph_idpub (s : Device) (g : Nat) (x : Graph) : (s.setGraph g x).idpub = s.idpub := rfl
@[simp] theorem Device.setGraph_serial (s : Device) (g : Nat) (x : Graph) : (s.setGraph g x).serial = s.serial := rfl
@[simp] theorem Device.setGraph_store (s : Device) (g : Nat) (x : Graph) : (s.setGraph g x).store = s.store := rfl
@[simp] theorem Device.setGraph_seq (s : Device) (g : Nat) (x : Graph) : (s.setGraph g x).seq = s.seq := rfl
@[simp] theorem Device.setGraph_issue (s : Device) (g : Nat) (x : Graph) : (s.setGraph g x).issue = s.issue := rfl
@[simp] theorem Device.setGraph_cxlHeld (s : Device) (g : Nat) (x : Graph) : (s.setGraph g x).cxlHeld = s.cxlHeld := rfl
@[simp] theorem Device.setGraph_framesHeld (s : Device) (g : Nat) (x : Graph) : (s.setGraph g x).framesHeld = s.framesHeld := rfl
@[simp] theorem Device.setGraph_startDue (s : Device) (g : Nat) (x : Graph) : (s.setGraph g x).startDue = s.startDue := rfl
@[simp] theorem Device.setGraph_fresh (s : Device) (g : Nat) (x : Graph) : (s.setGraph g x).fresh = s.fresh := rfl

@[simp] theorem Device.setJob_mill (s : Device) (j : Nat) (x : Job) : (s.setJob j x).mill = s.mill := rfl
@[simp] theorem Device.setJob_ctxs (s : Device) (j : Nat) (x : Job) : (s.setJob j x).ctxs = s.ctxs := rfl
@[simp] theorem Device.setJob_sheaves (s : Device) (j : Nat) (x : Job) : (s.setJob j x).sheaves = s.sheaves := rfl
@[simp] theorem Device.setJob_spad (s : Device) (j : Nat) (x : Job) : (s.setJob j x).spad = s.spad := rfl
@[simp] theorem Device.setJob_spDirty (s : Device) (j : Nat) (x : Job) : (s.setJob j x).spDirty = s.spDirty := rfl
@[simp] theorem Device.setJob_felt (s : Device) (j : Nat) (x : Job) : (s.setJob j x).felt = s.felt := rfl
@[simp] theorem Device.setJob_acc (s : Device) (j : Nat) (x : Job) : (s.setJob j x).acc = s.acc := rfl
@[simp] theorem Device.setJob_accType (s : Device) (j : Nat) (x : Job) : (s.setJob j x).accType = s.accType := rfl
@[simp] theorem Device.setJob_accOpen (s : Device) (j : Nat) (x : Job) : (s.setJob j x).accOpen = s.accOpen := rfl
@[simp] theorem Device.setJob_accDirty (s : Device) (j : Nat) (x : Job) : (s.setJob j x).accDirty = s.accDirty := rfl
@[simp] theorem Device.setJob_tlbs (s : Device) (j : Nat) (x : Job) : (s.setJob j x).tlbs = s.tlbs := rfl
@[simp] theorem Device.setJob_dram (s : Device) (j : Nat) (x : Job) : (s.setJob j x).dram = s.dram := rfl
@[simp] theorem Device.setJob_hostMem (s : Device) (j : Nat) (x : Job) : (s.setJob j x).hostMem = s.hostMem := rfl
@[simp] theorem Device.setJob_hbm (s : Device) (j : Nat) (x : Job) : (s.setJob j x).hbm = s.hbm := rfl
@[simp] theorem Device.setJob_launches (s : Device) (j : Nat) (x : Job) : (s.setJob j x).launches = s.launches := rfl
@[simp] theorem Device.setJob_graphs (s : Device) (j : Nat) (x : Job) : (s.setJob j x).graphs = s.graphs := rfl
@[simp] theorem Device.setJob_reservations (s : Device) (j : Nat) (x : Job) : (s.setJob j x).reservations = s.reservations := rfl
@[simp] theorem Device.setJob_ending (s : Device) (j : Nat) (x : Job) : (s.setJob j x).ending = s.ending := rfl
@[simp] theorem Device.setJob_admissions (s : Device) (j : Nat) (x : Job) : (s.setJob j x).admissions = s.admissions := rfl
@[simp] theorem Device.setJob_commits (s : Device) (j : Nat) (x : Job) : (s.setJob j x).commits = s.commits := rfl
@[simp] theorem Device.setJob_copies (s : Device) (j : Nat) (x : Job) : (s.setJob j x).copies = s.copies := rfl
@[simp] theorem Device.setJob_web (s : Device) (j : Nat) (x : Job) : (s.setJob j x).web = s.web := rfl
@[simp] theorem Device.setJob_ucopies (s : Device) (j : Nat) (x : Job) : (s.setJob j x).ucopies = s.ucopies := rfl
@[simp] theorem Device.setJob_signals (s : Device) (j : Nat) (x : Job) : (s.setJob j x).signals = s.signals := rfl
@[simp] theorem Device.setJob_vtQueues (s : Device) (j : Nat) (x : Job) : (s.setJob j x).vtQueues = s.vtQueues := rfl
@[simp] theorem Device.setJob_vtBusy (s : Device) (j : Nat) (x : Job) : (s.setJob j x).vtBusy = s.vtBusy := rfl
@[simp] theorem Device.setJob_freds (s : Device) (j : Nat) (x : Job) : (s.setJob j x).freds = s.freds := rfl
@[simp] theorem Device.setJob_held (s : Device) (j : Nat) (x : Job) : (s.setJob j x).held = s.held := rfl
@[simp] theorem Device.setJob_fredCount (s : Device) (j : Nat) (x : Job) : (s.setJob j x).fredCount = s.fredCount := rfl
@[simp] theorem Device.setJob_migrs (s : Device) (j : Nat) (x : Job) : (s.setJob j x).migrs = s.migrs := rfl
@[simp] theorem Device.setJob_images (s : Device) (j : Nat) (x : Job) : (s.setJob j x).images = s.images := rfl
@[simp] theorem Device.setJob_saved (s : Device) (j : Nat) (x : Job) : (s.setJob j x).saved = s.saved := rfl
@[simp] theorem Device.setJob_attests (s : Device) (j : Nat) (x : Job) : (s.setJob j x).attests = s.attests := rfl
@[simp] theorem Device.setJob_shootQ (s : Device) (j : Nat) (x : Job) : (s.setJob j x).shootQ = s.shootQ := rfl
@[simp] theorem Device.setJob_shootNow (s : Device) (j : Nat) (x : Job) : (s.setJob j x).shootNow = s.shootNow := rfl
@[simp] theorem Device.setJob_outbox (s : Device) (j : Nat) (x : Job) : (s.setJob j x).outbox = s.outbox := rfl
@[simp] theorem Device.setJob_log (s : Device) (j : Nat) (x : Job) : (s.setJob j x).log = s.log := rfl
@[simp] theorem Device.setJob_logHead (s : Device) (j : Nat) (x : Job) : (s.setJob j x).logHead = s.logHead := rfl
@[simp] theorem Device.setJob_logLost (s : Device) (j : Nat) (x : Job) : (s.setJob j x).logLost = s.logLost := rfl
@[simp] theorem Device.setJob_lostNow (s : Device) (j : Nat) (x : Job) : (s.setJob j x).lostNow = s.lostNow := rfl
@[simp] theorem Device.setJob_hvec (s : Device) (j : Nat) (x : Job) : (s.setJob j x).hvec = s.hvec := rfl
@[simp] theorem Device.setJob_rcfg (s : Device) (j : Nat) (x : Job) : (s.setJob j x).rcfg = s.rcfg := rfl
@[simp] theorem Device.setJob_haltSlot (s : Device) (j : Nat) (x : Job) : (s.setJob j x).haltSlot = s.haltSlot := rfl
@[simp] theorem Device.setJob_dbgsel (s : Device) (j : Nat) (x : Job) : (s.setJob j x).dbgsel = s.dbgsel := rfl
@[simp] theorem Device.setJob_clkMhz (s : Device) (j : Nat) (x : Job) : (s.setJob j x).clkMhz = s.clkMhz := rfl
@[simp] theorem Device.setJob_clkBusy (s : Device) (j : Nat) (x : Job) : (s.setJob j x).clkBusy = s.clkBusy := rfl
@[simp] theorem Device.setJob_startstat (s : Device) (j : Nat) (x : Job) : (s.setJob j x).startstat = s.startstat := rfl
@[simp] theorem Device.setJob_cfgLen (s : Device) (j : Nat) (x : Job) : (s.setJob j x).cfgLen = s.cfgLen := rfl
@[simp] theorem Device.setJob_cfgBusy (s : Device) (j : Nat) (x : Job) : (s.setJob j x).cfgBusy = s.cfgBusy := rfl
@[simp] theorem Device.setJob_cfgOk (s : Device) (j : Nat) (x : Job) : (s.setJob j x).cfgOk = s.cfgOk := rfl
@[simp] theorem Device.setJob_keyOk (s : Device) (j : Nat) (x : Job) : (s.setJob j x).keyOk = s.keyOk := rfl
@[simp] theorem Device.setJob_shootDone (s : Device) (j : Nat) (x : Job) : (s.setJob j x).shootDone = s.shootDone := rfl
@[simp] theorem Device.setJob_monval (s : Device) (j : Nat) (x : Job) : (s.setJob j x).monval = s.monval := rfl
@[simp] theorem Device.setJob_monthr (s : Device) (j : Nat) (x : Job) : (s.setJob j x).monthr = s.monthr := rfl
@[simp] theorem Device.setJob_trip (s : Device) (j : Nat) (x : Job) : (s.setJob j x).trip = s.trip := rfl
@[simp] theorem Device.setJob_tripped (s : Device) (j : Nat) (x : Job) : (s.setJob j x).tripped = s.tripped := rfl
@[simp] theorem Device.setJob_window (s : Device) (j : Nat) (x : Job) : (s.setJob j x).window = s.window := rfl
@[simp] theorem Device.setJob_hsigval (s : Device) (j : Nat) (x : Job) : (s.setJob j x).hsigval = s.hsigval := rfl
@[simp] theorem Device.setJob_accepted (s : Device) (j : Nat) (x : Job) : (s.setJob j x).accepted = s.accepted := rfl
@[simp] theorem Device.setJob_refused (s : Device) (j : Nat) (x : Job) : (s.setJob j x).refused = s.refused := rfl
@[simp] theorem Device.setJob_apfence (s : Device) (j : Nat) (x : Job) : (s.setJob j x).apfence = s.apfence := rfl
@[simp] theorem Device.setJob_vatcfg (s : Device) (j : Nat) (x : Job) : (s.setJob j x).vatcfg = s.vatcfg := rfl
@[simp] theorem Device.setJob_hdmcfg (s : Device) (j : Nat) (x : Job) : (s.setJob j x).hdmcfg = s.hdmcfg := rfl
@[simp] theorem Device.setJob_woveid (s : Device) (j : Nat) (x : Job) : (s.setJob j x).woveid = s.woveid := rfl
@[simp] theorem Device.setJob_wovectl (s : Device) (j : Nat) (x : Job) : (s.setJob j x).wovectl = s.wovectl := rfl
@[simp] theorem Device.setJob_route (s : Device) (j : Nat) (x : Job) : (s.setJob j x).route = s.route := rfl
@[simp] theorem Device.setJob_asctl (s : Device) (j : Nat) (x : Job) : (s.setJob j x).asctl = s.asctl := rfl
@[simp] theorem Device.setJob_meas (s : Device) (j : Nat) (x : Job) : (s.setJob j x).meas = s.meas := rfl
@[simp] theorem Device.setJob_measdata (s : Device) (j : Nat) (x : Job) : (s.setJob j x).measdata = s.measdata := rfl
@[simp] theorem Device.setJob_idpub (s : Device) (j : Nat) (x : Job) : (s.setJob j x).idpub = s.idpub := rfl
@[simp] theorem Device.setJob_serial (s : Device) (j : Nat) (x : Job) : (s.setJob j x).serial = s.serial := rfl
@[simp] theorem Device.setJob_store (s : Device) (j : Nat) (x : Job) : (s.setJob j x).store = s.store := rfl
@[simp] theorem Device.setJob_seq (s : Device) (j : Nat) (x : Job) : (s.setJob j x).seq = s.seq := rfl
@[simp] theorem Device.setJob_issue (s : Device) (j : Nat) (x : Job) : (s.setJob j x).issue = s.issue := rfl
@[simp] theorem Device.setJob_cxlHeld (s : Device) (j : Nat) (x : Job) : (s.setJob j x).cxlHeld = s.cxlHeld := rfl
@[simp] theorem Device.setJob_framesHeld (s : Device) (j : Nat) (x : Job) : (s.setJob j x).framesHeld = s.framesHeld := rfl
@[simp] theorem Device.setJob_startDue (s : Device) (j : Nat) (x : Job) : (s.setJob j x).startDue = s.startDue := rfl
@[simp] theorem Device.setJob_fresh (s : Device) (j : Nat) (x : Job) : (s.setJob j x).fresh = s.fresh := rfl

@[simp] theorem Device.setCur_mill (s : Device) (c : Ctx) : (s.setCur c).mill = s.mill := rfl
@[simp] theorem Device.setCur_sheaves (s : Device) (c : Ctx) : (s.setCur c).sheaves = s.sheaves := rfl
@[simp] theorem Device.setCur_spad (s : Device) (c : Ctx) : (s.setCur c).spad = s.spad := rfl
@[simp] theorem Device.setCur_spDirty (s : Device) (c : Ctx) : (s.setCur c).spDirty = s.spDirty := rfl
@[simp] theorem Device.setCur_felt (s : Device) (c : Ctx) : (s.setCur c).felt = s.felt := rfl
@[simp] theorem Device.setCur_acc (s : Device) (c : Ctx) : (s.setCur c).acc = s.acc := rfl
@[simp] theorem Device.setCur_accType (s : Device) (c : Ctx) : (s.setCur c).accType = s.accType := rfl
@[simp] theorem Device.setCur_accOpen (s : Device) (c : Ctx) : (s.setCur c).accOpen = s.accOpen := rfl
@[simp] theorem Device.setCur_accDirty (s : Device) (c : Ctx) : (s.setCur c).accDirty = s.accDirty := rfl
@[simp] theorem Device.setCur_tlbs (s : Device) (c : Ctx) : (s.setCur c).tlbs = s.tlbs := rfl
@[simp] theorem Device.setCur_dram (s : Device) (c : Ctx) : (s.setCur c).dram = s.dram := rfl
@[simp] theorem Device.setCur_hostMem (s : Device) (c : Ctx) : (s.setCur c).hostMem = s.hostMem := rfl
@[simp] theorem Device.setCur_hbm (s : Device) (c : Ctx) : (s.setCur c).hbm = s.hbm := rfl
@[simp] theorem Device.setCur_launches (s : Device) (c : Ctx) : (s.setCur c).launches = s.launches := rfl
@[simp] theorem Device.setCur_graphs (s : Device) (c : Ctx) : (s.setCur c).graphs = s.graphs := rfl
@[simp] theorem Device.setCur_jobs (s : Device) (c : Ctx) : (s.setCur c).jobs = s.jobs := rfl
@[simp] theorem Device.setCur_reservations (s : Device) (c : Ctx) : (s.setCur c).reservations = s.reservations := rfl
@[simp] theorem Device.setCur_ending (s : Device) (c : Ctx) : (s.setCur c).ending = s.ending := rfl
@[simp] theorem Device.setCur_admissions (s : Device) (c : Ctx) : (s.setCur c).admissions = s.admissions := rfl
@[simp] theorem Device.setCur_commits (s : Device) (c : Ctx) : (s.setCur c).commits = s.commits := rfl
@[simp] theorem Device.setCur_copies (s : Device) (c : Ctx) : (s.setCur c).copies = s.copies := rfl
@[simp] theorem Device.setCur_web (s : Device) (c : Ctx) : (s.setCur c).web = s.web := rfl
@[simp] theorem Device.setCur_ucopies (s : Device) (c : Ctx) : (s.setCur c).ucopies = s.ucopies := rfl
@[simp] theorem Device.setCur_signals (s : Device) (c : Ctx) : (s.setCur c).signals = s.signals := rfl
@[simp] theorem Device.setCur_vtQueues (s : Device) (c : Ctx) : (s.setCur c).vtQueues = s.vtQueues := rfl
@[simp] theorem Device.setCur_vtBusy (s : Device) (c : Ctx) : (s.setCur c).vtBusy = s.vtBusy := rfl
@[simp] theorem Device.setCur_freds (s : Device) (c : Ctx) : (s.setCur c).freds = s.freds := rfl
@[simp] theorem Device.setCur_held (s : Device) (c : Ctx) : (s.setCur c).held = s.held := rfl
@[simp] theorem Device.setCur_fredCount (s : Device) (c : Ctx) : (s.setCur c).fredCount = s.fredCount := rfl
@[simp] theorem Device.setCur_migrs (s : Device) (c : Ctx) : (s.setCur c).migrs = s.migrs := rfl
@[simp] theorem Device.setCur_images (s : Device) (c : Ctx) : (s.setCur c).images = s.images := rfl
@[simp] theorem Device.setCur_saved (s : Device) (c : Ctx) : (s.setCur c).saved = s.saved := rfl
@[simp] theorem Device.setCur_attests (s : Device) (c : Ctx) : (s.setCur c).attests = s.attests := rfl
@[simp] theorem Device.setCur_shootQ (s : Device) (c : Ctx) : (s.setCur c).shootQ = s.shootQ := rfl
@[simp] theorem Device.setCur_shootNow (s : Device) (c : Ctx) : (s.setCur c).shootNow = s.shootNow := rfl
@[simp] theorem Device.setCur_outbox (s : Device) (c : Ctx) : (s.setCur c).outbox = s.outbox := rfl
@[simp] theorem Device.setCur_log (s : Device) (c : Ctx) : (s.setCur c).log = s.log := rfl
@[simp] theorem Device.setCur_logHead (s : Device) (c : Ctx) : (s.setCur c).logHead = s.logHead := rfl
@[simp] theorem Device.setCur_logLost (s : Device) (c : Ctx) : (s.setCur c).logLost = s.logLost := rfl
@[simp] theorem Device.setCur_lostNow (s : Device) (c : Ctx) : (s.setCur c).lostNow = s.lostNow := rfl
@[simp] theorem Device.setCur_hvec (s : Device) (c : Ctx) : (s.setCur c).hvec = s.hvec := rfl
@[simp] theorem Device.setCur_rcfg (s : Device) (c : Ctx) : (s.setCur c).rcfg = s.rcfg := rfl
@[simp] theorem Device.setCur_haltSlot (s : Device) (c : Ctx) : (s.setCur c).haltSlot = s.haltSlot := rfl
@[simp] theorem Device.setCur_dbgsel (s : Device) (c : Ctx) : (s.setCur c).dbgsel = s.dbgsel := rfl
@[simp] theorem Device.setCur_clkMhz (s : Device) (c : Ctx) : (s.setCur c).clkMhz = s.clkMhz := rfl
@[simp] theorem Device.setCur_clkBusy (s : Device) (c : Ctx) : (s.setCur c).clkBusy = s.clkBusy := rfl
@[simp] theorem Device.setCur_startstat (s : Device) (c : Ctx) : (s.setCur c).startstat = s.startstat := rfl
@[simp] theorem Device.setCur_cfgLen (s : Device) (c : Ctx) : (s.setCur c).cfgLen = s.cfgLen := rfl
@[simp] theorem Device.setCur_cfgBusy (s : Device) (c : Ctx) : (s.setCur c).cfgBusy = s.cfgBusy := rfl
@[simp] theorem Device.setCur_cfgOk (s : Device) (c : Ctx) : (s.setCur c).cfgOk = s.cfgOk := rfl
@[simp] theorem Device.setCur_keyOk (s : Device) (c : Ctx) : (s.setCur c).keyOk = s.keyOk := rfl
@[simp] theorem Device.setCur_shootDone (s : Device) (c : Ctx) : (s.setCur c).shootDone = s.shootDone := rfl
@[simp] theorem Device.setCur_monval (s : Device) (c : Ctx) : (s.setCur c).monval = s.monval := rfl
@[simp] theorem Device.setCur_monthr (s : Device) (c : Ctx) : (s.setCur c).monthr = s.monthr := rfl
@[simp] theorem Device.setCur_trip (s : Device) (c : Ctx) : (s.setCur c).trip = s.trip := rfl
@[simp] theorem Device.setCur_tripped (s : Device) (c : Ctx) : (s.setCur c).tripped = s.tripped := rfl
@[simp] theorem Device.setCur_window (s : Device) (c : Ctx) : (s.setCur c).window = s.window := rfl
@[simp] theorem Device.setCur_hsigval (s : Device) (c : Ctx) : (s.setCur c).hsigval = s.hsigval := rfl
@[simp] theorem Device.setCur_accepted (s : Device) (c : Ctx) : (s.setCur c).accepted = s.accepted := rfl
@[simp] theorem Device.setCur_refused (s : Device) (c : Ctx) : (s.setCur c).refused = s.refused := rfl
@[simp] theorem Device.setCur_apfence (s : Device) (c : Ctx) : (s.setCur c).apfence = s.apfence := rfl
@[simp] theorem Device.setCur_vatcfg (s : Device) (c : Ctx) : (s.setCur c).vatcfg = s.vatcfg := rfl
@[simp] theorem Device.setCur_hdmcfg (s : Device) (c : Ctx) : (s.setCur c).hdmcfg = s.hdmcfg := rfl
@[simp] theorem Device.setCur_woveid (s : Device) (c : Ctx) : (s.setCur c).woveid = s.woveid := rfl
@[simp] theorem Device.setCur_wovectl (s : Device) (c : Ctx) : (s.setCur c).wovectl = s.wovectl := rfl
@[simp] theorem Device.setCur_route (s : Device) (c : Ctx) : (s.setCur c).route = s.route := rfl
@[simp] theorem Device.setCur_asctl (s : Device) (c : Ctx) : (s.setCur c).asctl = s.asctl := rfl
@[simp] theorem Device.setCur_meas (s : Device) (c : Ctx) : (s.setCur c).meas = s.meas := rfl
@[simp] theorem Device.setCur_measdata (s : Device) (c : Ctx) : (s.setCur c).measdata = s.measdata := rfl
@[simp] theorem Device.setCur_idpub (s : Device) (c : Ctx) : (s.setCur c).idpub = s.idpub := rfl
@[simp] theorem Device.setCur_serial (s : Device) (c : Ctx) : (s.setCur c).serial = s.serial := rfl
@[simp] theorem Device.setCur_store (s : Device) (c : Ctx) : (s.setCur c).store = s.store := rfl
@[simp] theorem Device.setCur_seq (s : Device) (c : Ctx) : (s.setCur c).seq = s.seq := rfl
@[simp] theorem Device.setCur_issue (s : Device) (c : Ctx) : (s.setCur c).issue = s.issue := rfl
@[simp] theorem Device.setCur_cxlHeld (s : Device) (c : Ctx) : (s.setCur c).cxlHeld = s.cxlHeld := rfl
@[simp] theorem Device.setCur_framesHeld (s : Device) (c : Ctx) : (s.setCur c).framesHeld = s.framesHeld := rfl
@[simp] theorem Device.setCur_startDue (s : Device) (c : Ctx) : (s.setCur c).startDue = s.startDue := rfl
@[simp] theorem Device.setCur_fresh (s : Device) (c : Ctx) : (s.setCur c).fresh = s.fresh := rfl

@[simp] theorem Device.setLive_mill (s : Device) (v : Live) : (s.setLive v).mill = s.mill := rfl
@[simp] theorem Device.setLive_sheaves (s : Device) (v : Live) : (s.setLive v).sheaves = s.sheaves := rfl
@[simp] theorem Device.setLive_spad (s : Device) (v : Live) : (s.setLive v).spad = s.spad := rfl
@[simp] theorem Device.setLive_spDirty (s : Device) (v : Live) : (s.setLive v).spDirty = s.spDirty := rfl
@[simp] theorem Device.setLive_felt (s : Device) (v : Live) : (s.setLive v).felt = s.felt := rfl
@[simp] theorem Device.setLive_acc (s : Device) (v : Live) : (s.setLive v).acc = s.acc := rfl
@[simp] theorem Device.setLive_accType (s : Device) (v : Live) : (s.setLive v).accType = s.accType := rfl
@[simp] theorem Device.setLive_accOpen (s : Device) (v : Live) : (s.setLive v).accOpen = s.accOpen := rfl
@[simp] theorem Device.setLive_accDirty (s : Device) (v : Live) : (s.setLive v).accDirty = s.accDirty := rfl
@[simp] theorem Device.setLive_tlbs (s : Device) (v : Live) : (s.setLive v).tlbs = s.tlbs := rfl
@[simp] theorem Device.setLive_dram (s : Device) (v : Live) : (s.setLive v).dram = s.dram := rfl
@[simp] theorem Device.setLive_hostMem (s : Device) (v : Live) : (s.setLive v).hostMem = s.hostMem := rfl
@[simp] theorem Device.setLive_hbm (s : Device) (v : Live) : (s.setLive v).hbm = s.hbm := rfl
@[simp] theorem Device.setLive_launches (s : Device) (v : Live) : (s.setLive v).launches = s.launches := rfl
@[simp] theorem Device.setLive_graphs (s : Device) (v : Live) : (s.setLive v).graphs = s.graphs := rfl
@[simp] theorem Device.setLive_jobs (s : Device) (v : Live) : (s.setLive v).jobs = s.jobs := rfl
@[simp] theorem Device.setLive_reservations (s : Device) (v : Live) : (s.setLive v).reservations = s.reservations := rfl
@[simp] theorem Device.setLive_ending (s : Device) (v : Live) : (s.setLive v).ending = s.ending := rfl
@[simp] theorem Device.setLive_admissions (s : Device) (v : Live) : (s.setLive v).admissions = s.admissions := rfl
@[simp] theorem Device.setLive_commits (s : Device) (v : Live) : (s.setLive v).commits = s.commits := rfl
@[simp] theorem Device.setLive_copies (s : Device) (v : Live) : (s.setLive v).copies = s.copies := rfl
@[simp] theorem Device.setLive_web (s : Device) (v : Live) : (s.setLive v).web = s.web := rfl
@[simp] theorem Device.setLive_ucopies (s : Device) (v : Live) : (s.setLive v).ucopies = s.ucopies := rfl
@[simp] theorem Device.setLive_signals (s : Device) (v : Live) : (s.setLive v).signals = s.signals := rfl
@[simp] theorem Device.setLive_vtQueues (s : Device) (v : Live) : (s.setLive v).vtQueues = s.vtQueues := rfl
@[simp] theorem Device.setLive_vtBusy (s : Device) (v : Live) : (s.setLive v).vtBusy = s.vtBusy := rfl
@[simp] theorem Device.setLive_freds (s : Device) (v : Live) : (s.setLive v).freds = s.freds := rfl
@[simp] theorem Device.setLive_held (s : Device) (v : Live) : (s.setLive v).held = s.held := rfl
@[simp] theorem Device.setLive_fredCount (s : Device) (v : Live) : (s.setLive v).fredCount = s.fredCount := rfl
@[simp] theorem Device.setLive_migrs (s : Device) (v : Live) : (s.setLive v).migrs = s.migrs := rfl
@[simp] theorem Device.setLive_images (s : Device) (v : Live) : (s.setLive v).images = s.images := rfl
@[simp] theorem Device.setLive_saved (s : Device) (v : Live) : (s.setLive v).saved = s.saved := rfl
@[simp] theorem Device.setLive_attests (s : Device) (v : Live) : (s.setLive v).attests = s.attests := rfl
@[simp] theorem Device.setLive_shootQ (s : Device) (v : Live) : (s.setLive v).shootQ = s.shootQ := rfl
@[simp] theorem Device.setLive_shootNow (s : Device) (v : Live) : (s.setLive v).shootNow = s.shootNow := rfl
@[simp] theorem Device.setLive_outbox (s : Device) (v : Live) : (s.setLive v).outbox = s.outbox := rfl
@[simp] theorem Device.setLive_log (s : Device) (v : Live) : (s.setLive v).log = s.log := rfl
@[simp] theorem Device.setLive_logHead (s : Device) (v : Live) : (s.setLive v).logHead = s.logHead := rfl
@[simp] theorem Device.setLive_logLost (s : Device) (v : Live) : (s.setLive v).logLost = s.logLost := rfl
@[simp] theorem Device.setLive_lostNow (s : Device) (v : Live) : (s.setLive v).lostNow = s.lostNow := rfl
@[simp] theorem Device.setLive_hvec (s : Device) (v : Live) : (s.setLive v).hvec = s.hvec := rfl
@[simp] theorem Device.setLive_rcfg (s : Device) (v : Live) : (s.setLive v).rcfg = s.rcfg := rfl
@[simp] theorem Device.setLive_haltSlot (s : Device) (v : Live) : (s.setLive v).haltSlot = s.haltSlot := rfl
@[simp] theorem Device.setLive_dbgsel (s : Device) (v : Live) : (s.setLive v).dbgsel = s.dbgsel := rfl
@[simp] theorem Device.setLive_clkMhz (s : Device) (v : Live) : (s.setLive v).clkMhz = s.clkMhz := rfl
@[simp] theorem Device.setLive_clkBusy (s : Device) (v : Live) : (s.setLive v).clkBusy = s.clkBusy := rfl
@[simp] theorem Device.setLive_startstat (s : Device) (v : Live) : (s.setLive v).startstat = s.startstat := rfl
@[simp] theorem Device.setLive_cfgLen (s : Device) (v : Live) : (s.setLive v).cfgLen = s.cfgLen := rfl
@[simp] theorem Device.setLive_cfgBusy (s : Device) (v : Live) : (s.setLive v).cfgBusy = s.cfgBusy := rfl
@[simp] theorem Device.setLive_cfgOk (s : Device) (v : Live) : (s.setLive v).cfgOk = s.cfgOk := rfl
@[simp] theorem Device.setLive_keyOk (s : Device) (v : Live) : (s.setLive v).keyOk = s.keyOk := rfl
@[simp] theorem Device.setLive_shootDone (s : Device) (v : Live) : (s.setLive v).shootDone = s.shootDone := rfl
@[simp] theorem Device.setLive_monval (s : Device) (v : Live) : (s.setLive v).monval = s.monval := rfl
@[simp] theorem Device.setLive_monthr (s : Device) (v : Live) : (s.setLive v).monthr = s.monthr := rfl
@[simp] theorem Device.setLive_trip (s : Device) (v : Live) : (s.setLive v).trip = s.trip := rfl
@[simp] theorem Device.setLive_tripped (s : Device) (v : Live) : (s.setLive v).tripped = s.tripped := rfl
@[simp] theorem Device.setLive_window (s : Device) (v : Live) : (s.setLive v).window = s.window := rfl
@[simp] theorem Device.setLive_hsigval (s : Device) (v : Live) : (s.setLive v).hsigval = s.hsigval := rfl
@[simp] theorem Device.setLive_accepted (s : Device) (v : Live) : (s.setLive v).accepted = s.accepted := rfl
@[simp] theorem Device.setLive_refused (s : Device) (v : Live) : (s.setLive v).refused = s.refused := rfl
@[simp] theorem Device.setLive_apfence (s : Device) (v : Live) : (s.setLive v).apfence = s.apfence := rfl
@[simp] theorem Device.setLive_vatcfg (s : Device) (v : Live) : (s.setLive v).vatcfg = s.vatcfg := rfl
@[simp] theorem Device.setLive_hdmcfg (s : Device) (v : Live) : (s.setLive v).hdmcfg = s.hdmcfg := rfl
@[simp] theorem Device.setLive_woveid (s : Device) (v : Live) : (s.setLive v).woveid = s.woveid := rfl
@[simp] theorem Device.setLive_wovectl (s : Device) (v : Live) : (s.setLive v).wovectl = s.wovectl := rfl
@[simp] theorem Device.setLive_route (s : Device) (v : Live) : (s.setLive v).route = s.route := rfl
@[simp] theorem Device.setLive_asctl (s : Device) (v : Live) : (s.setLive v).asctl = s.asctl := rfl
@[simp] theorem Device.setLive_meas (s : Device) (v : Live) : (s.setLive v).meas = s.meas := rfl
@[simp] theorem Device.setLive_measdata (s : Device) (v : Live) : (s.setLive v).measdata = s.measdata := rfl
@[simp] theorem Device.setLive_idpub (s : Device) (v : Live) : (s.setLive v).idpub = s.idpub := rfl
@[simp] theorem Device.setLive_serial (s : Device) (v : Live) : (s.setLive v).serial = s.serial := rfl
@[simp] theorem Device.setLive_store (s : Device) (v : Live) : (s.setLive v).store = s.store := rfl
@[simp] theorem Device.setLive_seq (s : Device) (v : Live) : (s.setLive v).seq = s.seq := rfl
@[simp] theorem Device.setLive_issue (s : Device) (v : Live) : (s.setLive v).issue = s.issue := rfl
@[simp] theorem Device.setLive_cxlHeld (s : Device) (v : Live) : (s.setLive v).cxlHeld = s.cxlHeld := rfl
@[simp] theorem Device.setLive_framesHeld (s : Device) (v : Live) : (s.setLive v).framesHeld = s.framesHeld := rfl
@[simp] theorem Device.setLive_startDue (s : Device) (v : Live) : (s.setLive v).startDue = s.startDue := rfl
@[simp] theorem Device.setLive_fresh (s : Device) (v : Live) : (s.setLive v).fresh = s.fresh := rfl

@[simp] theorem Device.setRegs_mill (s : Device) (r : Regs) : (s.setRegs r).mill = s.mill := rfl
@[simp] theorem Device.setRegs_sheaves (s : Device) (r : Regs) : (s.setRegs r).sheaves = s.sheaves := rfl
@[simp] theorem Device.setRegs_spad (s : Device) (r : Regs) : (s.setRegs r).spad = s.spad := rfl
@[simp] theorem Device.setRegs_spDirty (s : Device) (r : Regs) : (s.setRegs r).spDirty = s.spDirty := rfl
@[simp] theorem Device.setRegs_felt (s : Device) (r : Regs) : (s.setRegs r).felt = s.felt := rfl
@[simp] theorem Device.setRegs_acc (s : Device) (r : Regs) : (s.setRegs r).acc = s.acc := rfl
@[simp] theorem Device.setRegs_accType (s : Device) (r : Regs) : (s.setRegs r).accType = s.accType := rfl
@[simp] theorem Device.setRegs_accOpen (s : Device) (r : Regs) : (s.setRegs r).accOpen = s.accOpen := rfl
@[simp] theorem Device.setRegs_accDirty (s : Device) (r : Regs) : (s.setRegs r).accDirty = s.accDirty := rfl
@[simp] theorem Device.setRegs_tlbs (s : Device) (r : Regs) : (s.setRegs r).tlbs = s.tlbs := rfl
@[simp] theorem Device.setRegs_dram (s : Device) (r : Regs) : (s.setRegs r).dram = s.dram := rfl
@[simp] theorem Device.setRegs_hostMem (s : Device) (r : Regs) : (s.setRegs r).hostMem = s.hostMem := rfl
@[simp] theorem Device.setRegs_hbm (s : Device) (r : Regs) : (s.setRegs r).hbm = s.hbm := rfl
@[simp] theorem Device.setRegs_launches (s : Device) (r : Regs) : (s.setRegs r).launches = s.launches := rfl
@[simp] theorem Device.setRegs_graphs (s : Device) (r : Regs) : (s.setRegs r).graphs = s.graphs := rfl
@[simp] theorem Device.setRegs_jobs (s : Device) (r : Regs) : (s.setRegs r).jobs = s.jobs := rfl
@[simp] theorem Device.setRegs_reservations (s : Device) (r : Regs) : (s.setRegs r).reservations = s.reservations := rfl
@[simp] theorem Device.setRegs_ending (s : Device) (r : Regs) : (s.setRegs r).ending = s.ending := rfl
@[simp] theorem Device.setRegs_admissions (s : Device) (r : Regs) : (s.setRegs r).admissions = s.admissions := rfl
@[simp] theorem Device.setRegs_commits (s : Device) (r : Regs) : (s.setRegs r).commits = s.commits := rfl
@[simp] theorem Device.setRegs_copies (s : Device) (r : Regs) : (s.setRegs r).copies = s.copies := rfl
@[simp] theorem Device.setRegs_web (s : Device) (r : Regs) : (s.setRegs r).web = s.web := rfl
@[simp] theorem Device.setRegs_ucopies (s : Device) (r : Regs) : (s.setRegs r).ucopies = s.ucopies := rfl
@[simp] theorem Device.setRegs_signals (s : Device) (r : Regs) : (s.setRegs r).signals = s.signals := rfl
@[simp] theorem Device.setRegs_vtQueues (s : Device) (r : Regs) : (s.setRegs r).vtQueues = s.vtQueues := rfl
@[simp] theorem Device.setRegs_vtBusy (s : Device) (r : Regs) : (s.setRegs r).vtBusy = s.vtBusy := rfl
@[simp] theorem Device.setRegs_freds (s : Device) (r : Regs) : (s.setRegs r).freds = s.freds := rfl
@[simp] theorem Device.setRegs_held (s : Device) (r : Regs) : (s.setRegs r).held = s.held := rfl
@[simp] theorem Device.setRegs_fredCount (s : Device) (r : Regs) : (s.setRegs r).fredCount = s.fredCount := rfl
@[simp] theorem Device.setRegs_migrs (s : Device) (r : Regs) : (s.setRegs r).migrs = s.migrs := rfl
@[simp] theorem Device.setRegs_images (s : Device) (r : Regs) : (s.setRegs r).images = s.images := rfl
@[simp] theorem Device.setRegs_saved (s : Device) (r : Regs) : (s.setRegs r).saved = s.saved := rfl
@[simp] theorem Device.setRegs_attests (s : Device) (r : Regs) : (s.setRegs r).attests = s.attests := rfl
@[simp] theorem Device.setRegs_shootQ (s : Device) (r : Regs) : (s.setRegs r).shootQ = s.shootQ := rfl
@[simp] theorem Device.setRegs_shootNow (s : Device) (r : Regs) : (s.setRegs r).shootNow = s.shootNow := rfl
@[simp] theorem Device.setRegs_outbox (s : Device) (r : Regs) : (s.setRegs r).outbox = s.outbox := rfl
@[simp] theorem Device.setRegs_log (s : Device) (r : Regs) : (s.setRegs r).log = s.log := rfl
@[simp] theorem Device.setRegs_logHead (s : Device) (r : Regs) : (s.setRegs r).logHead = s.logHead := rfl
@[simp] theorem Device.setRegs_logLost (s : Device) (r : Regs) : (s.setRegs r).logLost = s.logLost := rfl
@[simp] theorem Device.setRegs_lostNow (s : Device) (r : Regs) : (s.setRegs r).lostNow = s.lostNow := rfl
@[simp] theorem Device.setRegs_hvec (s : Device) (r : Regs) : (s.setRegs r).hvec = s.hvec := rfl
@[simp] theorem Device.setRegs_rcfg (s : Device) (r : Regs) : (s.setRegs r).rcfg = s.rcfg := rfl
@[simp] theorem Device.setRegs_haltSlot (s : Device) (r : Regs) : (s.setRegs r).haltSlot = s.haltSlot := rfl
@[simp] theorem Device.setRegs_dbgsel (s : Device) (r : Regs) : (s.setRegs r).dbgsel = s.dbgsel := rfl
@[simp] theorem Device.setRegs_clkMhz (s : Device) (r : Regs) : (s.setRegs r).clkMhz = s.clkMhz := rfl
@[simp] theorem Device.setRegs_clkBusy (s : Device) (r : Regs) : (s.setRegs r).clkBusy = s.clkBusy := rfl
@[simp] theorem Device.setRegs_startstat (s : Device) (r : Regs) : (s.setRegs r).startstat = s.startstat := rfl
@[simp] theorem Device.setRegs_cfgLen (s : Device) (r : Regs) : (s.setRegs r).cfgLen = s.cfgLen := rfl
@[simp] theorem Device.setRegs_cfgBusy (s : Device) (r : Regs) : (s.setRegs r).cfgBusy = s.cfgBusy := rfl
@[simp] theorem Device.setRegs_cfgOk (s : Device) (r : Regs) : (s.setRegs r).cfgOk = s.cfgOk := rfl
@[simp] theorem Device.setRegs_keyOk (s : Device) (r : Regs) : (s.setRegs r).keyOk = s.keyOk := rfl
@[simp] theorem Device.setRegs_shootDone (s : Device) (r : Regs) : (s.setRegs r).shootDone = s.shootDone := rfl
@[simp] theorem Device.setRegs_monval (s : Device) (r : Regs) : (s.setRegs r).monval = s.monval := rfl
@[simp] theorem Device.setRegs_monthr (s : Device) (r : Regs) : (s.setRegs r).monthr = s.monthr := rfl
@[simp] theorem Device.setRegs_trip (s : Device) (r : Regs) : (s.setRegs r).trip = s.trip := rfl
@[simp] theorem Device.setRegs_tripped (s : Device) (r : Regs) : (s.setRegs r).tripped = s.tripped := rfl
@[simp] theorem Device.setRegs_window (s : Device) (r : Regs) : (s.setRegs r).window = s.window := rfl
@[simp] theorem Device.setRegs_hsigval (s : Device) (r : Regs) : (s.setRegs r).hsigval = s.hsigval := rfl
@[simp] theorem Device.setRegs_accepted (s : Device) (r : Regs) : (s.setRegs r).accepted = s.accepted := rfl
@[simp] theorem Device.setRegs_refused (s : Device) (r : Regs) : (s.setRegs r).refused = s.refused := rfl
@[simp] theorem Device.setRegs_apfence (s : Device) (r : Regs) : (s.setRegs r).apfence = s.apfence := rfl
@[simp] theorem Device.setRegs_vatcfg (s : Device) (r : Regs) : (s.setRegs r).vatcfg = s.vatcfg := rfl
@[simp] theorem Device.setRegs_hdmcfg (s : Device) (r : Regs) : (s.setRegs r).hdmcfg = s.hdmcfg := rfl
@[simp] theorem Device.setRegs_woveid (s : Device) (r : Regs) : (s.setRegs r).woveid = s.woveid := rfl
@[simp] theorem Device.setRegs_wovectl (s : Device) (r : Regs) : (s.setRegs r).wovectl = s.wovectl := rfl
@[simp] theorem Device.setRegs_route (s : Device) (r : Regs) : (s.setRegs r).route = s.route := rfl
@[simp] theorem Device.setRegs_asctl (s : Device) (r : Regs) : (s.setRegs r).asctl = s.asctl := rfl
@[simp] theorem Device.setRegs_meas (s : Device) (r : Regs) : (s.setRegs r).meas = s.meas := rfl
@[simp] theorem Device.setRegs_measdata (s : Device) (r : Regs) : (s.setRegs r).measdata = s.measdata := rfl
@[simp] theorem Device.setRegs_idpub (s : Device) (r : Regs) : (s.setRegs r).idpub = s.idpub := rfl
@[simp] theorem Device.setRegs_serial (s : Device) (r : Regs) : (s.setRegs r).serial = s.serial := rfl
@[simp] theorem Device.setRegs_store (s : Device) (r : Regs) : (s.setRegs r).store = s.store := rfl
@[simp] theorem Device.setRegs_seq (s : Device) (r : Regs) : (s.setRegs r).seq = s.seq := rfl
@[simp] theorem Device.setRegs_issue (s : Device) (r : Regs) : (s.setRegs r).issue = s.issue := rfl
@[simp] theorem Device.setRegs_cxlHeld (s : Device) (r : Regs) : (s.setRegs r).cxlHeld = s.cxlHeld := rfl
@[simp] theorem Device.setRegs_framesHeld (s : Device) (r : Regs) : (s.setRegs r).framesHeld = s.framesHeld := rfl
@[simp] theorem Device.setRegs_startDue (s : Device) (r : Regs) : (s.setRegs r).startDue = s.startDue := rfl
@[simp] theorem Device.setRegs_fresh (s : Device) (r : Regs) : (s.setRegs r).fresh = s.fresh := rfl

/-! ## Parts -/

@[simp] theorem Device.setCtx_launch_of (s : Device) (l core : Nat) (c : Ctx) (a : Nat) : (s.setCtx l core c).launch a = s.launch a := rfl
@[simp] theorem Device.setCtx_sheaf_of (s : Device) (l core : Nat) (c : Ctx) (a : Nat) : (s.setCtx l core c).sheaf a = s.sheaf a := rfl
@[simp] theorem Device.setCtx_stack_of (s : Device) (l core : Nat) (c : Ctx) (a : Nat) : (s.setCtx l core c).stack a = s.stack a := rfl
@[simp] theorem Device.setCtx_graph_of (s : Device) (l core : Nat) (c : Ctx) (a : Nat) : (s.setCtx l core c).graph a = s.graph a := rfl
@[simp] theorem Device.setCtx_job_of (s : Device) (l core : Nat) (c : Ctx) (a : Nat) : (s.setCtx l core c).job a = s.job a := rfl
@[simp] theorem Device.setCtx_curLaunch_of (s : Device) (l core : Nat) (c : Ctx) : (s.setCtx l core c).curLaunch = s.curLaunch := rfl
@[simp] theorem Device.setCtx_curSheaf_of (s : Device) (l core : Nat) (c : Ctx) : (s.setCtx l core c).curSheaf = s.curSheaf := rfl

@[simp] theorem Device.setLaunch_ctx_of (s : Device) (l : Nat) (x : Launch) (a b : Nat) : (s.setLaunch l x).ctx a b = s.ctx a b := rfl
@[simp] theorem Device.setLaunch_sheaf_of (s : Device) (l : Nat) (x : Launch) (a : Nat) : (s.setLaunch l x).sheaf a = s.sheaf a := rfl
@[simp] theorem Device.setLaunch_stack_of (s : Device) (l : Nat) (x : Launch) (a : Nat) : (s.setLaunch l x).stack a = s.stack a := rfl
@[simp] theorem Device.setLaunch_graph_of (s : Device) (l : Nat) (x : Launch) (a : Nat) : (s.setLaunch l x).graph a = s.graph a := rfl
@[simp] theorem Device.setLaunch_job_of (s : Device) (l : Nat) (x : Launch) (a : Nat) : (s.setLaunch l x).job a = s.job a := rfl
@[simp] theorem Device.setLaunch_cur_of (s : Device) (l : Nat) (x : Launch) : (s.setLaunch l x).cur = s.cur := rfl
@[simp] theorem Device.setLaunch_live_of (s : Device) (l : Nat) (x : Launch) : (s.setLaunch l x).live = s.live := rfl
@[simp] theorem Device.setLaunch_regs_of (s : Device) (l : Nat) (x : Launch) : (s.setLaunch l x).regs = s.regs := rfl
@[simp] theorem Device.setLaunch_curSheaf_of (s : Device) (l : Nat) (x : Launch) : (s.setLaunch l x).curSheaf = s.curSheaf := rfl

@[simp] theorem Device.setSheaf_ctx_of (s : Device) (g : Nat) (x : Sheaf) (a b : Nat) : (s.setSheaf g x).ctx a b = s.ctx a b := rfl
@[simp] theorem Device.setSheaf_launch_of (s : Device) (g : Nat) (x : Sheaf) (a : Nat) : (s.setSheaf g x).launch a = s.launch a := rfl
@[simp] theorem Device.setSheaf_stack_of (s : Device) (g : Nat) (x : Sheaf) (a : Nat) : (s.setSheaf g x).stack a = s.stack a := rfl
@[simp] theorem Device.setSheaf_graph_of (s : Device) (g : Nat) (x : Sheaf) (a : Nat) : (s.setSheaf g x).graph a = s.graph a := rfl
@[simp] theorem Device.setSheaf_job_of (s : Device) (g : Nat) (x : Sheaf) (a : Nat) : (s.setSheaf g x).job a = s.job a := rfl
@[simp] theorem Device.setSheaf_curLaunch_of (s : Device) (g : Nat) (x : Sheaf) : (s.setSheaf g x).curLaunch = s.curLaunch := rfl
@[simp] theorem Device.setSheaf_cur_of (s : Device) (g : Nat) (x : Sheaf) : (s.setSheaf g x).cur = s.cur := rfl
@[simp] theorem Device.setSheaf_live_of (s : Device) (g : Nat) (x : Sheaf) : (s.setSheaf g x).live = s.live := rfl
@[simp] theorem Device.setSheaf_regs_of (s : Device) (g : Nat) (x : Sheaf) : (s.setSheaf g x).regs = s.regs := rfl

@[simp] theorem Device.setStack_ctx_of (s : Device) (q : Nat) (x : Stack) (a b : Nat) : (s.setStack q x).ctx a b = s.ctx a b := rfl
@[simp] theorem Device.setStack_launch_of (s : Device) (q : Nat) (x : Stack) (a : Nat) : (s.setStack q x).launch a = s.launch a := rfl
@[simp] theorem Device.setStack_sheaf_of (s : Device) (q : Nat) (x : Stack) (a : Nat) : (s.setStack q x).sheaf a = s.sheaf a := rfl
@[simp] theorem Device.setStack_graph_of (s : Device) (q : Nat) (x : Stack) (a : Nat) : (s.setStack q x).graph a = s.graph a := rfl
@[simp] theorem Device.setStack_job_of (s : Device) (q : Nat) (x : Stack) (a : Nat) : (s.setStack q x).job a = s.job a := rfl
@[simp] theorem Device.setStack_curLaunch_of (s : Device) (q : Nat) (x : Stack) : (s.setStack q x).curLaunch = s.curLaunch := rfl
@[simp] theorem Device.setStack_cur_of (s : Device) (q : Nat) (x : Stack) : (s.setStack q x).cur = s.cur := rfl
@[simp] theorem Device.setStack_live_of (s : Device) (q : Nat) (x : Stack) : (s.setStack q x).live = s.live := rfl
@[simp] theorem Device.setStack_regs_of (s : Device) (q : Nat) (x : Stack) : (s.setStack q x).regs = s.regs := rfl
@[simp] theorem Device.setStack_curSheaf_of (s : Device) (q : Nat) (x : Stack) : (s.setStack q x).curSheaf = s.curSheaf := rfl

@[simp] theorem Device.setGraph_ctx_of (s : Device) (g : Nat) (x : Graph) (a b : Nat) : (s.setGraph g x).ctx a b = s.ctx a b := rfl
@[simp] theorem Device.setGraph_launch_of (s : Device) (g : Nat) (x : Graph) (a : Nat) : (s.setGraph g x).launch a = s.launch a := rfl
@[simp] theorem Device.setGraph_sheaf_of (s : Device) (g : Nat) (x : Graph) (a : Nat) : (s.setGraph g x).sheaf a = s.sheaf a := rfl
@[simp] theorem Device.setGraph_stack_of (s : Device) (g : Nat) (x : Graph) (a : Nat) : (s.setGraph g x).stack a = s.stack a := rfl
@[simp] theorem Device.setGraph_job_of (s : Device) (g : Nat) (x : Graph) (a : Nat) : (s.setGraph g x).job a = s.job a := rfl
@[simp] theorem Device.setGraph_curLaunch_of (s : Device) (g : Nat) (x : Graph) : (s.setGraph g x).curLaunch = s.curLaunch := rfl
@[simp] theorem Device.setGraph_cur_of (s : Device) (g : Nat) (x : Graph) : (s.setGraph g x).cur = s.cur := rfl
@[simp] theorem Device.setGraph_live_of (s : Device) (g : Nat) (x : Graph) : (s.setGraph g x).live = s.live := rfl
@[simp] theorem Device.setGraph_regs_of (s : Device) (g : Nat) (x : Graph) : (s.setGraph g x).regs = s.regs := rfl
@[simp] theorem Device.setGraph_curSheaf_of (s : Device) (g : Nat) (x : Graph) : (s.setGraph g x).curSheaf = s.curSheaf := rfl

@[simp] theorem Device.setJob_ctx_of (s : Device) (j : Nat) (x : Job) (a b : Nat) : (s.setJob j x).ctx a b = s.ctx a b := rfl
@[simp] theorem Device.setJob_launch_of (s : Device) (j : Nat) (x : Job) (a : Nat) : (s.setJob j x).launch a = s.launch a := rfl
@[simp] theorem Device.setJob_sheaf_of (s : Device) (j : Nat) (x : Job) (a : Nat) : (s.setJob j x).sheaf a = s.sheaf a := rfl
@[simp] theorem Device.setJob_stack_of (s : Device) (j : Nat) (x : Job) (a : Nat) : (s.setJob j x).stack a = s.stack a := rfl
@[simp] theorem Device.setJob_graph_of (s : Device) (j : Nat) (x : Job) (a : Nat) : (s.setJob j x).graph a = s.graph a := rfl
@[simp] theorem Device.setJob_curLaunch_of (s : Device) (j : Nat) (x : Job) : (s.setJob j x).curLaunch = s.curLaunch := rfl
@[simp] theorem Device.setJob_cur_of (s : Device) (j : Nat) (x : Job) : (s.setJob j x).cur = s.cur := rfl
@[simp] theorem Device.setJob_live_of (s : Device) (j : Nat) (x : Job) : (s.setJob j x).live = s.live := rfl
@[simp] theorem Device.setJob_regs_of (s : Device) (j : Nat) (x : Job) : (s.setJob j x).regs = s.regs := rfl
@[simp] theorem Device.setJob_curSheaf_of (s : Device) (j : Nat) (x : Job) : (s.setJob j x).curSheaf = s.curSheaf := rfl

@[simp] theorem Device.setCur_launch_of (s : Device) (c : Ctx) (a : Nat) : (s.setCur c).launch a = s.launch a := rfl
@[simp] theorem Device.setCur_sheaf_of (s : Device) (c : Ctx) (a : Nat) : (s.setCur c).sheaf a = s.sheaf a := rfl
@[simp] theorem Device.setCur_stack_of (s : Device) (c : Ctx) (a : Nat) : (s.setCur c).stack a = s.stack a := rfl
@[simp] theorem Device.setCur_graph_of (s : Device) (c : Ctx) (a : Nat) : (s.setCur c).graph a = s.graph a := rfl
@[simp] theorem Device.setCur_job_of (s : Device) (c : Ctx) (a : Nat) : (s.setCur c).job a = s.job a := rfl
@[simp] theorem Device.setCur_curLaunch_of (s : Device) (c : Ctx) : (s.setCur c).curLaunch = s.curLaunch := rfl
@[simp] theorem Device.setCur_curSheaf_of (s : Device) (c : Ctx) : (s.setCur c).curSheaf = s.curSheaf := rfl

@[simp] theorem Device.setLive_launch_of (s : Device) (v : Live) (a : Nat) : (s.setLive v).launch a = s.launch a := rfl
@[simp] theorem Device.setLive_sheaf_of (s : Device) (v : Live) (a : Nat) : (s.setLive v).sheaf a = s.sheaf a := rfl
@[simp] theorem Device.setLive_stack_of (s : Device) (v : Live) (a : Nat) : (s.setLive v).stack a = s.stack a := rfl
@[simp] theorem Device.setLive_graph_of (s : Device) (v : Live) (a : Nat) : (s.setLive v).graph a = s.graph a := rfl
@[simp] theorem Device.setLive_job_of (s : Device) (v : Live) (a : Nat) : (s.setLive v).job a = s.job a := rfl
@[simp] theorem Device.setLive_curLaunch_of (s : Device) (v : Live) : (s.setLive v).curLaunch = s.curLaunch := rfl
@[simp] theorem Device.setLive_curSheaf_of (s : Device) (v : Live) : (s.setLive v).curSheaf = s.curSheaf := rfl

@[simp] theorem Device.setRegs_launch_of (s : Device) (r : Regs) (a : Nat) : (s.setRegs r).launch a = s.launch a := rfl
@[simp] theorem Device.setRegs_sheaf_of (s : Device) (r : Regs) (a : Nat) : (s.setRegs r).sheaf a = s.sheaf a := rfl
@[simp] theorem Device.setRegs_stack_of (s : Device) (r : Regs) (a : Nat) : (s.setRegs r).stack a = s.stack a := rfl
@[simp] theorem Device.setRegs_graph_of (s : Device) (r : Regs) (a : Nat) : (s.setRegs r).graph a = s.graph a := rfl
@[simp] theorem Device.setRegs_job_of (s : Device) (r : Regs) (a : Nat) : (s.setRegs r).job a = s.job a := rfl
@[simp] theorem Device.setRegs_curLaunch_of (s : Device) (r : Regs) : (s.setRegs r).curLaunch = s.curLaunch := rfl
@[simp] theorem Device.setRegs_curSheaf_of (s : Device) (r : Regs) : (s.setRegs r).curSheaf = s.curSheaf := rfl

/-! ## What is written -/

@[simp] theorem Device.ctx_setCtx (s : Device) (l core : Nat) (c : Ctx) : (s.setCtx l core c).ctx l core = c :=
  Assoc.get_set_self _ _ _ _

theorem Device.ctx_setCtx_ne (s : Device) {l core l' core' : Nat} (c : Ctx) (h : ctxKey l' core' ≠ ctxKey l core) :
    (s.setCtx l core c).ctx l' core' = s.ctx l' core' := Assoc.get_set_ne _ _ _ h

@[simp] theorem Device.launch_setLaunch (s : Device) (l : Nat) (x : Launch) : (s.setLaunch l x).launch l = x :=
  Assoc.get_set_self _ _ _ _

theorem Device.launch_setLaunch_ne (s : Device) {l l' : Nat} (x : Launch) (h : l' ≠ l) :
    (s.setLaunch l x).launch l' = s.launch l' := Assoc.get_set_ne _ _ _ h

@[simp] theorem Device.sheaf_setSheaf (s : Device) (g : Nat) (x : Sheaf) : (s.setSheaf g x).sheaf g = x :=
  Assoc.get_set_self _ _ _ _

theorem Device.sheaf_setSheaf_ne (s : Device) {g g' : Nat} (x : Sheaf) (h : g' ≠ g) :
    (s.setSheaf g x).sheaf g' = s.sheaf g' := Assoc.get_set_ne _ _ _ h

@[simp] theorem Device.stack_setStack (s : Device) (q : Nat) (x : Stack) : (s.setStack q x).stack q = x :=
  Assoc.get_set_self _ _ _ _

@[simp] theorem Device.graph_setGraph (s : Device) (g : Nat) (x : Graph) : (s.setGraph g x).graph g = x :=
  Assoc.get_set_self _ _ _ _

@[simp] theorem Device.job_setJob (s : Device) (j : Nat) (x : Job) : (s.setJob j x).job j = x :=
  Assoc.get_set_self _ _ _ _

@[simp] theorem Device.setCur_cur (s : Device) (c : Ctx) : (s.setCur c).cur = c := Assoc.get_set_self _ _ _ _

@[simp] theorem Device.setCur_live (s : Device) (c : Ctx) : (s.setCur c).live = c.live := by
  simp [Device.live]

@[simp] theorem Device.setLive_cur (s : Device) (v : Live) : (s.setLive v).cur = { s.cur with live := v } :=
  Assoc.get_set_self _ _ _ _

@[simp] theorem Device.setLive_live (s : Device) (v : Live) : (s.setLive v).live = v := by
  simp [Device.live]

@[simp] theorem Device.setRegs_live (s : Device) (r : Regs) : (s.setRegs r).live = { s.live with regs := r } := by
  simp [Device.setRegs]

@[simp] theorem Device.setRegs_cur (s : Device) (r : Regs) : (s.setRegs r).cur = { s.cur with live := { s.live with regs := r } } := by
  simp [Device.setRegs]

@[simp] theorem Device.setRegs_regs (s : Device) (r : Regs) : (s.setRegs r).regs = r := by
  simp [Device.regs]

end Sys2Proof.Machine
end

