-- ==== Sys2Proof/Laws/Issue.lean ====
section
/-! SUPPORT. The issue of one instruction: when its slot runs without an event, the device after it is the one that
`Device.after` gives. -/

namespace Sys2Proof.Machine

/-! ## The opened device -/

/-- The key of the issuing context. -/
def Device.curKey (d : Device) : Nat := ctxKey d.issue.l d.issue.core

@[simp] theorem Device.opened_cur (d : Device) (i : Instr) : (d.opened i).cur = d.cur := rfl
@[simp] theorem Device.opened_live (d : Device) (i : Instr) : (d.opened i).live = d.live := rfl
@[simp] theorem Device.opened_regs (d : Device) (i : Instr) : (d.opened i).regs = d.regs := rfl
@[simp] theorem Device.opened_curLaunch (d : Device) (i : Instr) : (d.opened i).curLaunch = d.curLaunch := rfl
@[simp] theorem Device.opened_curSheaf (d : Device) (i : Instr) : (d.opened i).curSheaf = d.curSheaf := rfl
@[simp] theorem Device.opened_srcA (d : Device) (i : Instr) (a : ANum) : (d.opened i).srcA a = d.srcA a := rfl
@[simp] theorem Device.opened_srcV (d : Device) (i : Instr) (a : VNum) : (d.opened i).srcV a = d.srcV a := rfl
@[simp] theorem Device.opened_srcVn (d : Device) (i : Instr) (a : Nat) : (d.opened i).srcVn a = d.srcVn a := rfl
@[simp] theorem Device.opened_srcM (d : Device) (i : Instr) (a : MNum) : (d.opened i).srcM a = d.srcM a := rfl
@[simp] theorem Device.opened_srcT (d : Device) (i : Instr) (a : TNum) : (d.opened i).srcT a = d.srcT a := rfl
@[simp] theorem Device.opened_issue_handler (d : Device) (i : Instr) : (d.opened i).issue.handler = false := rfl
@[simp] theorem Device.opened_issue_tick (d : Device) (i : Instr) : (d.opened i).issue.tick = d.now := rfl
@[simp] theorem Device.opened_issue_pc (d : Device) (i : Instr) : (d.opened i).issue.pc = d.live.pc := rfl
@[simp] theorem Device.opened_issue_core (d : Device) (i : Instr) : (d.opened i).issue.core = d.issue.core := rfl
@[simp] theorem Device.opened_issue_l (d : Device) (i : Instr) : (d.opened i).issue.l = d.issue.l := rfl
@[simp] theorem Device.opened_issue_slot (d : Device) (i : Instr) : (d.opened i).issue.slot = d.issue.slot := rfl
@[simp] theorem Device.opened_seq (d : Device) (i : Instr) : (d.opened i).seq = d.seq := rfl

/-- A scalar source of the opened device reads its value (R30, R31). -/
theorem Device.opened_srcS (d : Device) (i : Instr) (r : SReg) (hq : d.queuesReady i = true) (hr : r ∈ scalarSources i) :
    (d.opened i).srcS r = .ok (d.value r) := by
  unfold Device.srcS Device.value
  simp only [Device.opened_issue_handler, Bool.false_eq_true, if_false]
  by_cases h0 : r = 0
  · simp [h0]
  · simp only [h0, if_false]
    by_cases h6 : r.val < 60
    · simp [h6]
    · simp only [h6, if_false]
      have hlt : r.val - 60 < 4 := by omega
      have hnum : (Fin.ofNat 4 (r.val - 60)) = (⟨r.val - 60, hlt⟩ : Fin 4) := by
        apply Fin.ext; simp [Fin.ofNat, Nat.mod_eq_of_lt hlt]
      have hnamed : (namedQueues [i])[(⟨r.val - 60, hlt⟩ : Fin 4)] = true := by
        simp only [namedQueues, Fin.getElem_fin, Vector.getElem_ofFn, List.any_cons, List.any_nil, Bool.or_false,
          List.any_eq_true, beq_iff_eq]
        exact ⟨r, hr, by omega⟩
      have hne : (d.cur.queues[(⟨r.val - 60, hlt⟩ : Fin 4)]).isEmpty = false := by
        have := (List.all_eq_true.mp hq) ⟨r.val - 60, hlt⟩ (List.mem_finRange _)
        rw [hnamed] at this
        simpa using this
      have hq1 : (d.opened i).issue.q[(⟨r.val - 60, hlt⟩ : Fin 4)] = (d.cur.queues[(⟨r.val - 60, hlt⟩ : Fin 4)]).head? := by
        simp only [Device.opened, Device.heads, Fin.getElem_fin, Vector.getElem_ofFn]
        simp only [Fin.getElem_fin] at hnamed
        rw [hnamed]; simp
      simp only [hnum, hq1]
      cases hl : (d.cur.queues[(⟨r.val - 60, hlt⟩ : Fin 4)]) with
      | nil => rw [hl] at hne; simp at hne
      | cons a t => simp

/-! ## Devices that differ in the issuing context -/

/-- The contexts of `t` are those of `d` but for the issuing one. -/
structure Own (d t : Device) : Prop where
  ctxs : t.ctxs = d.ctxs ∨ t.ctxs = Assoc.set Ctx.empty d.ctxs d.curKey t.cur
  present : t.cur.present = true
  core : t.issue.core = d.issue.core
  l : t.issue.l = d.issue.l

theorem Ctx.ne_empty_of_present {c : Ctx} (h : c.present = true) : c ≠ Ctx.empty := by
  intro e; rw [e] at h; exact absurd h (by simp [Ctx.empty])

theorem Own.refl (d : Device) (i : Instr) (h : d.cur.present = true) : Own d (d.opened i) :=
  ⟨.inl rfl, h, rfl, rfl⟩

theorem Own.set {d t : Device} (h : Own d t) {c : Ctx} (hc : c.present = true) :
    Assoc.set Ctx.empty t.ctxs (ctxKey t.issue.l t.issue.core) c = Assoc.set Ctx.empty d.ctxs d.curKey c := by
  rw [h.core, h.l]
  rcases h.ctxs with e | e
  · rw [e]; rfl
  · rw [e]; exact Assoc.set_set _ _ _ (Ctx.ne_empty_of_present hc) (Ctx.ne_empty_of_present h.present)

theorem Own.setCur {d t : Device} (h : Own d t) {c : Ctx} (hc : c.present = true) : Own d (t.setCur c) :=
  ⟨.inr (by rw [Device.setCur_cur]; exact h.set hc), by simpa using hc, h.core, h.l⟩

theorem Own.setLive {d t : Device} (h : Own d t) (v : Live) : Own d (t.setLive v) :=
  h.setCur (c := { t.cur with live := v }) h.present

/-- A device that has the contexts and the issue's context of another. -/
theorem Own.of {d t u : Device} (h : Own d t) (hc : u.ctxs = t.ctxs) (hl : u.issue.l = t.issue.l)
    (hk : u.issue.core = t.issue.core) : Own d u := by
  have e : u.cur = t.cur := by simp [Device.cur, Device.ctx, hc, hl, hk]
  exact ⟨by rw [hc, e]; exact h.ctxs, by rw [e]; exact h.present, by rw [hk]; exact h.core, by rw [hl]; exact h.l⟩

theorem Assoc.mem_of_get_ne {α : Type} (d : α) (m : Assoc α) (k : Nat) (h : Assoc.get d m k ≠ d) :
    (k, Assoc.get d m k) ∈ m := by
  induction m with
  | nil => exact absurd rfl h
  | cons p t ih =>
    obtain ⟨j, v⟩ := p
    by_cases hj : j = k
    · simp [Assoc.get, hj]
    · simp only [Assoc.get, hj, if_false] at h ⊢
      exact List.mem_cons_of_mem _ (ih h)

theorem Assoc.mem_insert {α : Type} (i : Nat) (v : α) (m : Assoc α) (p : Nat × α) (h : p ∈ Assoc.insert i v m) :
    p = (i, v) ∨ p ∈ m := by
  induction m with
  | nil => simpa [Assoc.insert] using h
  | cons q t ih =>
    obtain ⟨k, w⟩ := q
    by_cases h1 : i < k
    · simpa [Assoc.insert, h1] using h
    · by_cases h2 : i = k
      · simp only [Assoc.insert, h2, if_false, if_true, Nat.lt_irrefl] at h
        rcases List.mem_cons.mp h with e | e
        · exact .inl (by rw [e, h2])
        · exact .inr (List.mem_cons_of_mem _ e)
      · simp only [Assoc.insert, h1, h2, if_false] at h
        rcases List.mem_cons.mp h with e | e
        · exact .inr (by rw [e]; exact List.mem_cons_self)
        · rcases ih e with e | e
          · exact .inl e
          · exact .inr (List.mem_cons_of_mem _ e)

/-- The bank-ticks planned are those of before, where the issuing context plans the same. -/
theorem Own.bankPlans {d t : Device} (h : Own d t) (hp : d.cur.present = true) (hb : t.cur.live.banks = d.cur.live.banks) :
    ∀ p ∈ t.bankPlans d.issue.l, p ∈ d.bankPlans d.issue.l := by
  intro p hmem
  rcases h.ctxs with e | e
  · simpa [Device.bankPlans, e] using hmem
  · simp only [Device.bankPlans, List.mem_flatten, List.mem_map, List.mem_filter] at hmem ⊢
    obtain ⟨l, ⟨q, ⟨hq, hl⟩, rfl⟩, hpl⟩ := hmem
    rw [e, Assoc.set, if_neg (Ctx.ne_empty_of_present h.present)] at hq
    rcases Assoc.mem_insert _ _ _ _ hq with rfl | hq
    · refine ⟨d.cur.live.banks, ⟨(d.curKey, d.cur), ⟨?_, hl⟩, rfl⟩, by rw [← hb]; exact hpl⟩
      exact Assoc.mem_of_get_ne Ctx.empty d.ctxs d.curKey (Ctx.ne_empty_of_present hp)
    · exact ⟨_, ⟨q, ⟨hq, hl⟩, rfl⟩, hpl⟩

/-- A list of planned bank-ticks without a conflict has none when it shrinks. -/
theorem findConflict_mono : ∀ (l : List (Nat × BankRes)) (p q : List BankRes), (∀ x ∈ q, x ∈ p) →
    findConflict p l = none → findConflict q l = none
  | [], _, _, _, _ => rfl
  | (k, u) :: t, p, q, hsub, h => by
    simp only [findConflict] at h ⊢
    cases hf : p.find? (fun x => x.meets u) with
    | some x => rw [hf] at h; exact absurd h (by simp)
    | none =>
      rw [hf] at h
      have hq : q.find? (fun x => x.meets u) = none := by
        rw [List.find?_eq_none] at hf ⊢
        exact fun x hx => hf x (hsub x hx)
      rw [hq]
      exact findConflict_mono t (p ++ [u]) (q ++ [u]) (by
        intro x hx
        rcases List.mem_append.mp hx with hx | hx
        · exact List.mem_append_left _ (hsub x hx)
        · exact List.mem_append_right _ hx) h

/-! ## The settling of an issue -/

/-- A device that an instruction's slot leaves, given what the instruction did; `now` is the device but for the issuing
context, the counter of numbers, and the issue. -/
structure Did.Leaves (x : Did) (d : Device) (i : Instr) (now t : Device) : Prop where
  own : Own d t
  cur : t.cur = { d.cur with
    live := { d.live with
      regs := { d.regs with dv := x.dims.getD d.regs.dv }
      flights := d.live.flights ++ d.numbered (d.seq + x.skip) x.flights
      press := d.live.press ++ x.press
      reps := d.live.reps ++ x.reps
      store := d.live.store ++ x.store }
    promises := x.promises.getD d.cur.promises }
  seq : t.seq = d.seq + x.skip + x.flights.length + x.more
  rest : t = { now with ctxs := t.ctxs, seq := t.seq, issue := t.issue }
  tick : t.issue.tick = d.now
  pc : t.issue.pc = d.live.pc
  nslots : t.issue.nslots = d.issue.nslots
  q : t.issue.q = d.heads i
  target : t.issue.target = x.target
  waitt : t.issue.waitt = x.waitt
  push : t.issue.push = x.push
  pop : t.issue.pop = x.pop
  exits : t.issue.exits = x.exits
  late : t.issue.late = x.late
  uses : t.issue.uses = x.uses.map (fun u => (d.issue.slot, u))
  lines : t.issue.lines = x.lines
  charge : t.issue.charge = x.charge
  effects : t.issue.effects = x.effects
  unspent : t.issue.overAt = none
  handler : t.issue.handler = false
  slot : t.issue.slot = d.issue.slot

theorem map_snd_const (s : Nat) (l : List BankRes) : (l.map (fun u => (s, u))).map (fun u => u.2) = l := by
  induction l with
  | nil => rfl
  | cons a t ih => simp [ih]

theorem Vector.ofFn_congr4 {α : Type} {f g : Fin 4 → α} (h : ∀ i, f i = g i) : Vector.ofFn f = Vector.ofFn g := by
  rw [funext h]

theorem successor_eq (j : Issue) (fall : Nat) (loops : List LoopEntry) (d : Device) (x : Did) (hpc : j.pc = d.live.pc)
    (hfall : fall = d.live.pc + 4 * d.issue.nslots) (hloops : loops = d.regs.loops) (ht : j.target = x.target)
    (hw : j.waitt = x.waitt) (hpush : j.push = x.push) (hpop : j.pop = x.pop) (hex : j.exits = x.exits) :
    successor j fall loops = d.next x := by
  unfold successor Device.next
  rw [ht, hw, hpush, hpop, hpc, hfall, hloops, hex]
  cases x.push <;> cases x.target <;> cases x.pop <;> simp

/-- The issuing context after an issue. -/
theorem closedCtx_eq {d now t : Device} {i : Instr} {x : Did} (h : Did.Leaves x d i now t) (old : Device) (ho : old.live = d.live) (hop : old.cur.popped = d.cur.popped) :
    closedCtx old t = d.ctxAfter i x := by
  have hpc := h.pc
  have hs : ∀ loops, loops = d.regs.loops → successor t.issue t.fallThrough loops = d.next x := fun loops hl =>
    successor_eq t.issue t.fallThrough loops d x hpc (by simp [Device.fallThrough, hpc, h.nslots]) hl h.target h.waitt h.push h.pop h.exits
  unfold closedCtx
  simp only [Ctx.pop, Live.settle, Live.stepReps, h.cur, h.q, h.tick, h.uses, h.charge, h.effects, h.lines, h.late, h.exits,
    hpc, ho, hop, map_snd_const]
  rw [hs _ rfl]
  simp only [Device.ctxAfter, Live.stepReps]
  congr 1
  · apply Vector.ofFn_congr4
    intro q
    cases (d.heads i)[q] <;> simp
  · congr 1
    cases x.late <;> rfl

/-- The settling of an issue (R31, R201, R305, R311): the device that `Device.afterIn` gives, the exiting core's lease
aside. -/
theorem closeIssue_eq {d now t : Device} {i : Instr} {x : Did} (h : Did.Leaves x d i now t) (hp : d.cur.present = true)
    (hex : x.exits = false) (old : Device) (ho : old.live = d.live)
    (hop : old.cur.popped = d.cur.popped) : closeIssue old t = d.afterIn now i x := by
  have hc := closedCtx_eq h old ho hop
  have hpr : (d.ctxAfter i x).present = true := hp
  have hset : (t.setCur (d.ctxAfter i x)).ctxs = Assoc.set Ctx.empty d.ctxs d.curKey (d.ctxAfter i x) := h.own.set hpr
  unfold closeIssue
  rw [hc, h.exits, hex]
  simp only [Bool.false_eq_true, if_false]
  have e : t.setCur (d.ctxAfter i x) = { t with ctxs := Assoc.set Ctx.empty d.ctxs d.curKey (d.ctxAfter i x) } := by
    rw [← hset]; rfl
  rw [e, h.rest, h.seq]
  rfl

/-! ## Results that have landed -/

theorem filter_none_of_forall {α : Type} {p : α → Bool} {l : List α} (h : ∀ x ∈ l, p x = false) : l.filter p = [] := by
  induction l with
  | nil => rfl
  | cons a t ih =>
    rw [List.filter_cons, h a List.mem_cons_self]
    exact ih (fun x hx => h x (List.mem_cons_of_mem _ hx))

/-- Where nothing in flight is due, a tick's landing changes nothing (R9). -/
theorem landCore_none (l core t : Nat) (s : Device) (h : ∀ f ∈ (s.ctx l core).live.flights, t < f.due) :
    landCore l core t s = s := by
  have hd : dueFlights (s.ctx l core) t = [] := by
    unfold dueFlights
    rw [filter_none_of_forall (fun f hf => by simpa using h f hf)]
    rfl
  unfold landCore
  simp only [hd, performAll, settleFlags, List.map_nil, orFlags]
  simp

theorem Device.numbered_due (d : Device) : ∀ (l : List (Nat × FlyOp)) (n : Nat), (∀ p ∈ l, 0 < p.1) →
    ∀ f ∈ d.numbered n l, d.now < f.due
  | [], _, _, f, hf => by simp [Device.numbered] at hf
  | (k, op) :: t, n, h, f, hf => by
    simp only [Device.numbered, List.mem_cons] at hf
    rcases hf with rfl | hf
    · have := h (k, op) List.mem_cons_self
      simpa using this
    · exact Device.numbered_due d t (n + 1) (fun p hp => h p (List.mem_cons_of_mem _ hp)) f hf

/-! ## The issue of one instruction -/

theorem seeSlots_one (d : Device) (i : Instr) (f : Device → Except Ev Device) :
    let r : Run := { ix := d.issue.slot, instr := i, act := f, pc := d.live.pc }
    let b := seeSlots [r] (beginOne d)
    { b with issue := { b.issue with slot := r.ix, pc := r.pc } } = d.opened i := by
  unfold seeSlots Device.opened
  simp only [List.map_cons, List.map_nil]
  congr 1
  cases h1 : memoryClass i <;> cases h2 : tileClass i <;> simp [beginOne, beginIssue, h1, h2] <;> exact ⟨rfl, rfl⟩

/-- The trial of one instruction that raises no event. -/
theorem trial_one {d : Device} {i : Instr} {f : Device → Except Ev Device} {t now : Device} {x : Did} (hr : d.Ready i)
    (hn : isNop i = false) (hf : f (d.opened i) = .ok t) (hx : Did.Leaves x d i now t) (hu : d.BanksFree x.uses) :
    trial [] (oneRun i f d.issue.slot d.live.pc) (beginOne d) = .ok t := by
  have hb : checkBoundary (oneRun i f d.issue.slot d.live.pc)
      (beginOne d) = .ok () := by
    unfold checkBoundary oneRun
    simp only [hn, Bool.false_eq_true, if_false]
    have h1 : ((beginOne d).issue.tick + 1) %
        (beginOne d).curLaunch.ream = (d.now + 1) % d.curLaunch.ream := rfl
    rw [h1]
    cases hbi : boundary i
    · have := hr.bnd
      simp only [hbi, Bool.false_eq_true, iff_false] at this
      simp [List.find?, hbi, this]
    · have := hr.bnd
      simp only [hbi, iff_true] at this
      simp [List.find?, hbi, this]
  have hs := seeSlots_one d i f
  have hpc : { t with issue := { t.issue with pc := d.live.pc } } = t := by rw [← hx.pc]
  unfold trial
  rw [hb]
  have hrun : runSlots (oneRun i f d.issue.slot d.live.pc ++ ([] : List Rep).filterMap Rep.run)
      (seeSlots (oneRun i f d.issue.slot d.live.pc ++ ([] : List Rep).filterMap Rep.run)
        (beginOne d)) = .ok t := by
    simp only [oneRun, hn, Bool.false_eq_true, if_false, List.filterMap_nil, List.append_nil, runSlots]
    simp only at hs
    rw [hs, hf]
  have hbundle : runBundle (oneRun i f d.issue.slot d.live.pc ++ ([] : List Rep).filterMap Rep.run) (beginOne d) = .ok t := by
    rw [← hrun]
    simp [runBundle, oneRun, hn]
  have hbank : checkBanks t = .ok () := by
    unfold checkBanks
    have hl : t.issue.l = d.issue.l := hx.own.l
    have := findConflict_mono _ _ _ (hx.own.bankPlans hr.present (by rw [hx.cur]; rfl)) hu
    rw [hl, hx.uses, this]
  have hbud : checkBudget t = .ok () := by
    unfold checkBudget
    rw [hx.unspent]
  have hrep : checkRepeats [] (oneRun i f d.issue.slot d.live.pc)
      (beginOne d) = .ok () := by
    simp [checkRepeats]
  have hp : (beginOne d).issue.pc = d.live.pc := rfl
  simp only [hrep, hbundle, hp, bind, Except.bind, hpc, hbank, hbud]

/-- The issue of one instruction whose slot raises no event and ends no unit (R31, R55, R201, R305): the device after it,
with what it has scheduled for its own tick. -/
theorem issueOne_in {s : State} {i : Instr} {f : Device → Except Ev Device} {t now : Device} {x : Did} (hr : s.dev.Ready i)
    (hn : isNop i = false) (hf : f (s.dev.opened i) = .ok t) (hx : Did.Leaves x s.dev i now t) (hu : s.dev.BanksFree x.uses)
    (hex : x.exits = false) :
    issueOne i f s =
      .next { s with dev := landCore s.dev.issue.l s.dev.issue.core s.dev.now (s.dev.afterIn now i x) } := by
  have ht := trial_one hr hn hf hx hu
  have hd : (beginOne s.dev).live.dueReps
      (beginOne s.dev).issue.tick = [] := hr.reps
  unfold issueOne
  simp only [hr.present, hr.program, hr.holds, Bool.true_eq_false, Bool.false_eq_true, if_false]
  unfold issueRuns settleIssue
  rw [hd, ht]
  simp only [State.on]
  have hc := closeIssue_eq hx hr.present hex
    (beginOne s.dev) rfl rfl
  rw [hc, hx.tick, hx.own.l, hx.own.core]

theorem Device.afterIn_flights (d now : Device) (i : Instr) (x : Did) :
    ((d.afterIn now i x).ctx d.issue.l d.issue.core).live.flights =
      d.live.flights ++ d.numbered (d.seq + x.skip) x.flights := by
  have : (d.afterIn now i x).ctx d.issue.l d.issue.core = d.ctxAfter i x := Assoc.get_set_self _ _ _ _
  rw [this]
  rfl

/-- The same, where nothing that the instruction schedules is for its own tick. -/
theorem issueOne_later {s : State} {i : Instr} {f : Device → Except Ev Device} {t now : Device} {x : Did} (hr : s.dev.Ready i)
    (hn : isNop i = false) (hf : f (s.dev.opened i) = .ok t) (hx : Did.Leaves x s.dev i now t) (hu : s.dev.BanksFree x.uses)
    (hex : x.exits = false) (hl : ∀ p ∈ x.flights, 0 < p.1) :
    issueOne i f s = .next { s with dev := s.dev.afterIn now i x } := by
  rw [issueOne_in hr hn hf hx hu hex, landCore_none]
  intro f hf
  rw [Device.afterIn_flights] at hf
  rcases List.mem_append.mp hf with h | h
  · exact hr.landed f h
  · exact Device.numbered_due s.dev _ _ hl f h

/-! ## What a slot does, step by step -/

/-- An instruction's slot runs without an event, and leaves what `x` says (R56). -/
def Did.Runs (x : Did) (d : Device) (i : Instr) (now : Device) (e : Except Ev Device) : Prop :=
  ∃ t, e = .ok t ∧ Did.Leaves x d i now t

/-- An issue of one instruction whose results land at later ticks. -/
theorem issueOne_runs {s : State} {i : Instr} {f : Device → Except Ev Device} {now : Device} {x : Did} (hr : s.dev.Ready i)
    (hn : isNop i = false) (h : Did.Runs x s.dev i now (f (s.dev.opened i))) (hu : s.dev.BanksFree x.uses)
    (hex : x.exits = false) (hl : ∀ p ∈ x.flights, 0 < p.1) :
    issueOne i f s = .next { s with dev := s.dev.afterIn now i x } := by
  obtain ⟨t, hf, hx⟩ := h
  exact issueOne_later hr hn hf hx hu hex hl

/-- The slot begins with nothing done. -/
theorem Did.Leaves.start (d : Device) (i : Instr) (h : d.cur.present = true) : Did.Leaves {} d i d (d.opened i) where
  own := Own.refl d i h
  cur := by simp [Device.numbered, Device.live, Device.regs]
  seq := rfl
  rest := rfl
  tick := rfl
  pc := rfl
  nslots := rfl
  q := rfl
  target := rfl
  waitt := rfl
  push := rfl
  pop := rfl
  exits := rfl
  late := rfl
  uses := rfl
  lines := rfl
  charge := rfl
  effects := rfl
  unspent := rfl
  handler := rfl
  slot := rfl

theorem Device.numbered_append (d : Device) : ∀ (l m : List (Nat × FlyOp)) (n : Nat),
    d.numbered n (l ++ m) = d.numbered n l ++ d.numbered (n + l.length) m
  | [], m, n => by simp [Device.numbered]
  | (k, op) :: t, m, n => by
    simp only [List.cons_append, Device.numbered, Device.numbered_append d t m (n + 1), List.length_cons]
    rw [show n + 1 + t.length = n + (t.length + 1) by omega]

theorem findLanding_nil (due : Nat) : ∀ l, findLanding due [] l = none
  | [] => rfl
  | f :: t => by
    simp only [findLanding, List.find?_nil]
    split <;> exact findLanding_nil due t

theorem findLanding_append (due : Nat) (ps : List Place) : ∀ l m,
    findLanding due ps l = none → findLanding due ps m = none → findLanding due ps (l ++ m) = none
  | [], _, _, h => h
  | f :: t, m, h1, h2 => by
    simp only [List.cons_append, findLanding] at h1 ⊢
    by_cases hd : f.due = due
    · simp only [hd, if_true] at h1 ⊢
      cases hf : ps.find? (fun p => f.op.places.any (fun q => p.meets q)) with
      | some p => simp [hf] at h1
      | none =>
        simp only [hf] at h1 ⊢
        exact findLanding_append due ps t m h1 h2
    · simp only [hd, if_false] at h1 ⊢
      exact findLanding_append due ps t m h1 h2

/-- An action added to those of the slot (R9, R35). -/
theorem Did.Leaves.addFlight {x : Did} {d : Device} {i : Instr} {now t : Device} (h : Did.Leaves x d i now t) (hm : x.more = 0)
    (n : Nat) (op : FlyOp) (hfree : findLanding (d.now + n) op.places t.live.flights = none) :
    Did.Runs { x with flights := x.flights ++ [(n, op)] } d i now (Machine.addFlight n op t) := by
  unfold Machine.addFlight
  have hfl : t.live.flights = d.live.flights ++ d.numbered (d.seq + x.skip) x.flights := by
    simp only [Device.live, h.cur]
  rw [h.tick]
  simp only [hfree]
  refine ⟨_, rfl, ?_⟩
  constructor
  case own =>
    exact (h.own.setLive _).of rfl rfl rfl
  case cur =>
    simp only [Device.numbered_append, Device.numbered, h.pc, h.slot, h.seq, hm, Nat.add_zero]
    have e : ∀ (v : Live) (n : Nat), ({ t.setLive v with seq := n } : Device).cur = { t.cur with live := v } := by
      intro v n
      exact Device.setLive_cur t v
    rw [e]
    simp only [Device.live, h.cur, List.append_assoc]
  case seq => simp only [h.seq, List.length_append, List.length_singleton]; omega
  case rest =>
    have e := h.rest
    generalize ht : t.ctxs = c at *
    rw [e]
    rfl
  case tick => exact h.tick
  case pc => exact h.pc
  case nslots => exact h.nslots
  case q => exact h.q
  case target => exact h.target
  case waitt => exact h.waitt
  case push => exact h.push
  case pop => exact h.pop
  case exits => exact h.exits
  case late => exact h.late
  case uses => exact h.uses
  case lines => exact h.lines
  case charge => exact h.charge
  case effects => exact h.effects
  case unspent => exact h.unspent
  case handler => exact h.handler
  case slot => exact h.slot

theorem keepWrite_program (s : Device) (h : s.issue.handler = false) (ws : List RegWrite) :
    ws.filterMap s.keepWrite = ws.filter RegWrite.keeps := by
  induction ws with
  | nil => rfl
  | cons w t ih =>
    have hw : s.keepWrite w = if w.keeps then some w else none := by
      cases w <;> simp only [Device.keepWrite, RegWrite.keeps, h, if_true, Bool.false_eq_true, if_false] <;> try rfl
      · rename_i r v
        by_cases h0 : r = 0
        · simp [h0]
        · by_cases h6 : r.val < 60
          · simp [h0, h6]
          · simp [h0, h6]
      · rename_i r b
        by_cases h0 : r = 0 <;> simp [h0]
    rw [List.filterMap_cons, List.filter_cons, hw]
    cases w.keeps <;> simp [ih]

/-- Results that land later (R35). -/
theorem Did.Leaves.land {x : Did} {d : Device} {i : Instr} {now t : Device} (h : Did.Leaves x d i now t) (hm : x.more = 0)
    (n : Nat) (ws : List RegWrite) (fl : Flags) (vd : Option VNum)
    (hfree : ∀ p ∈ results n ws fl vd, findLanding (d.now + p.1) p.2.places t.live.flights = none) :
    Did.Runs { x with flights := x.flights ++ results n ws fl vd } d i now (Machine.land n ws fl vd t) := by
  unfold Machine.land
  rw [keepWrite_program t h.handler, h.handler]
  simp only [Bool.false_eq_true, if_false]
  unfold results at hfree ⊢
  by_cases hk : ((ws.filter RegWrite.keeps).isEmpty && fl == 0) = true
  · simp only [hk, if_true, List.append_nil]
    exact ⟨t, rfl, h⟩
  · simp only [hk] at hfree ⊢
    exact h.addFlight hm n _ (hfree _ (List.mem_singleton_self _))

/-- A bank-tick occupied (R200). -/
theorem Did.Leaves.useBank {x : Did} {d : Device} {i : Instr} {now t : Device} (h : Did.Leaves x d i now t)
    (sp bank lo hi code : Nat) :
    Did.Leaves { x with uses := x.uses ++ [d.bankUse sp bank lo hi code] } d i now (Machine.useBank sp bank lo hi code t) where
  own := h.own.of rfl rfl rfl
  cur := h.cur
  seq := h.seq
  rest := by
    have e := h.rest
    unfold Machine.useBank
    rw [e]
  tick := h.tick
  pc := h.pc
  nslots := h.nslots
  q := h.q
  target := h.target
  waitt := h.waitt
  push := h.push
  pop := h.pop
  exits := h.exits
  late := h.late
  uses := by
    unfold Machine.useBank
    simp only [h.uses, h.tick, h.pc, h.slot, h.own.core, Device.bankUse, List.map_append, List.map_cons, List.map_nil]
  lines := h.lines
  charge := h.charge
  effects := h.effects
  unspent := h.unspent
  handler := h.handler
  slot := h.slot

/-- The flights of the slot so far. -/
theorem Did.Leaves.flights {x : Did} {d : Device} {i : Instr} {now t : Device} (h : Did.Leaves x d i now t) :
    t.live.flights = d.live.flights ++ d.numbered (d.seq + x.skip) x.flights := by
  simp only [Device.live, h.cur]

/-- An instruction of one result: a scalar, predicate, address, vector, mask or tile register (R35, R114). -/
theorem issueOne_land {s : State} {i : Instr} {f : Device → Except Ev Device} {n : Nat} {ws : List RegWrite} {fl : Flags}
    {vd : Option VNum} (hr : s.dev.Ready i) (hn : isNop i = false) (hf : f (s.dev.opened i) = land n ws fl vd (s.dev.opened i))
    (hpos : 0 < n) (hfree : s.dev.LandsFree (results n ws fl vd)) :
    issueOne i f s = .next { s with dev := s.dev.after i { flights := results n ws fl vd } } := by
  refine issueOne_runs (x := { flights := results n ws fl vd }) hr hn ?_ rfl rfl ?_
  · rw [hf]
    exact (Did.Leaves.start s.dev i hr.present).land rfl n ws fl vd (fun p hp => by simpa using hfree p hp)
  · intro p hp
    unfold results at hp
    split at hp
    · simp at hp
    · simp only [List.mem_singleton] at hp
      rw [hp]; exact hpos

end Sys2Proof.Machine
end

