-- ==== Sys2Proof/Laws/Did.lean ====
section
/-! SUPPORT. What the shared operations of the slots do, one lemma for each: they answer a next trial device, and it is the
one that the record of what was done describes. -/

namespace Sys2Proof.Machine

/-- The parts of a trial device that an operation on its issue and its own context leaves alone. -/
structure Alike (t u : Device) : Prop where
  core : u.issue.core = t.issue.core
  l : u.issue.l = t.issue.l
  tick : u.issue.tick = t.issue.tick
  pc : u.issue.pc = t.issue.pc
  nslots : u.issue.nslots = t.issue.nslots
  q : u.issue.q = t.issue.q
  target : u.issue.target = t.issue.target
  waitt : u.issue.waitt = t.issue.waitt
  push : u.issue.push = t.issue.push
  pop : u.issue.pop = t.issue.pop
  exits : u.issue.exits = t.issue.exits
  late : u.issue.late = t.issue.late
  uses : u.issue.uses = t.issue.uses
  lines : u.issue.lines = t.issue.lines
  charge : u.issue.charge = t.issue.charge
  effects : u.issue.effects = t.issue.effects
  unspent : u.issue.overAt = t.issue.overAt
  handler : u.issue.handler = t.issue.handler
  slot : u.issue.slot = t.issue.slot

/-- A record of what was done holds of another trial device that agrees with one of which another record holds, but for
the parts of the context and of the device that the two tell apart. -/
theorem Did.Leaves.alike {x y : Did} {d : Device} {i : Instr} {now now' t u : Device} (h : Did.Leaves x d i now t)
    (a : Alike t u) (own : Own d u)
    (cur : u.cur = { d.cur with
      live := { d.live with
        regs := { d.regs with dv := y.dims.getD d.regs.dv }
        flights := d.live.flights ++ d.numbered (d.seq + y.skip) y.flights
        press := d.live.press ++ y.press
        reps := d.live.reps ++ y.reps
        store := d.live.store ++ y.store }
      promises := y.promises.getD d.cur.promises })
    (seq : u.seq = d.seq + y.skip + y.flights.length + y.more)
    (rest : u = { now' with ctxs := u.ctxs, seq := u.seq, issue := u.issue })
    (htarget : y.target = x.target := by rfl) (hwaitt : y.waitt = x.waitt := by rfl) (hpush : y.push = x.push := by rfl)
    (hpop : y.pop = x.pop := by rfl) (hexits : y.exits = x.exits := by rfl) (hlate : y.late = x.late := by rfl)
    (huses : y.uses = x.uses := by rfl) (hlines : y.lines = x.lines := by rfl) (hcharge : y.charge = x.charge := by rfl)
    (heffects : y.effects = x.effects := by rfl) : Did.Leaves y d i now' u where
  own := own
  cur := cur
  seq := seq
  rest := rest
  tick := a.tick.trans h.tick
  pc := a.pc.trans h.pc
  nslots := a.nslots.trans h.nslots
  q := a.q.trans h.q
  target := by rw [a.target, h.target, htarget]
  waitt := by rw [a.waitt, h.waitt, hwaitt]
  push := by rw [a.push, h.push, hpush]
  pop := by rw [a.pop, h.pop, hpop]
  exits := by rw [a.exits, h.exits, hexits]
  late := by rw [a.late, h.late, hlate]
  uses := by rw [a.uses, h.uses, huses]
  lines := by rw [a.lines, h.lines, hlines]
  charge := by rw [a.charge, h.charge, hcharge]
  effects := by rw [a.effects, h.effects, heffects]
  unspent := a.unspent.trans h.unspent
  handler := a.handler.trans h.handler
  slot := a.slot.trans h.slot

theorem Alike.ofIssue {t u : Device} (h : u.issue = t.issue) : Alike t u := by
  constructor <;> rw [h]

theorem Alike.refl (t : Device) : Alike t t := ⟨rfl, rfl, rfl, rfl, rfl, rfl, rfl, rfl, rfl, rfl, rfl, rfl, rfl, rfl, rfl, rfl, rfl, rfl, rfl⟩

/-- The parts of the device outside the issuing context changed. -/
theorem Did.Leaves.elsewhere {x : Did} {d : Device} {i : Instr} {now now' t u : Device} (h : Did.Leaves x d i now t)
    (hc : u.ctxs = t.ctxs) (hs : u.seq = t.seq) (hi : u.issue = t.issue)
    (hr : u = { now' with ctxs := t.ctxs, seq := t.seq, issue := t.issue }) : Did.Leaves x d i now' u := by
  have e : u.cur = t.cur := by simp [Device.cur, Device.ctx, hc, hi]
  refine h.alike ?_ (h.own.of hc (by rw [hi]) (by rw [hi])) (by rw [e]; exact h.cur) (by rw [hs]; exact h.seq) (by rw [hc, hs, hi]; exact hr)
  constructor <;> rw [hi]

/-- An action that writes no register added to those of the slot (R9). -/
theorem Did.Leaves.addQuiet {x : Did} {d : Device} {i : Instr} {now t : Device} (h : Did.Leaves x d i now t) (hm : x.more = 0)
    (n : Nat) (op : FlyOp) (hq : op.places = []) :
    Did.Runs { x with flights := x.flights ++ [(n, op)] } d i now (Machine.addFlight n op t) :=
  h.addFlight hm n op (by rw [hq]; exact findLanding_nil _ _)

/-- Scratchpad ranges read (R228). -/
theorem Did.Leaves.captureRanges {x : Did} {d : Device} {i : Instr} {now t : Device} (h : Did.Leaves x d i now t) (hm : x.more = 0)
    (n target : Nat) (l : List (Nat × Nat)) :
    Did.Runs { x with flights := x.flights ++ [(n, .capture target (l.map (fun p => (spKey d.issue.core p.1, p.2))))] } d i now
      (Machine.captureRanges n target l t) := by
  have := h.addQuiet hm n (.capture target (l.map (fun p => (spKey t.issue.core p.1, p.2)))) rfl
  rw [h.own.core] at this
  unfold Machine.captureRanges
  rw [h.own.core]
  exact this

/-- One line accessed (R200). -/
theorem Did.Leaves.useLine {x : Did} {d : Device} {i : Instr} {now t : Device} (h : Did.Leaves x d i now t) (sp a n code : Nat) :
    Did.Leaves { x with uses := x.uses ++ [d.lineUse sp n code a] } d i now (Machine.useLine sp a n code t) :=
  h.useBank sp (bankOf a) n n code

/-- Some lines accessed at one tick (R200). -/
theorem Did.Leaves.useLines {d : Device} {i : Instr} {now : Device} (sp n code : Nat) : ∀ (l : List Nat) (x : Did) (t : Device),
    Did.Leaves x d i now t → Did.Leaves { x with uses := x.uses ++ d.lineUses sp n code l } d i now (Machine.useLines sp n code l t)
  | [], x, t, h => by simpa [Machine.useLines, Device.lineUses] using h
  | a :: r, x, t, h => by
    have := Did.Leaves.useLines sp n code r _ _ (h.useLine sp a n code)
    simpa [Machine.useLines, Device.lineUses] using this

/-- The memory port of a lone memory slot is port 0, that of another slot port 1 (R41, R161). -/
theorem Device.opened_port (d : Device) (i : Instr) : (d.opened i).port = .ok (if memoryClass i then 0 else 1) := by
  unfold Device.port Device.opened
  cases memoryClass i <;> simp

/-- A checked scratchpad address (R229, R331). -/
theorem Device.spAddr_ok (s : Device) {a size align : Nat} (h1 : a % align = 0) (h2 : a + size ≤ s.curLaunch.spSize) :
    s.spAddr a size align = .ok (s.curLaunch.spPhys s.issue.core a) := by
  unfold Device.spAddr
  rw [if_neg (by omega), if_neg (by omega)]

theorem Device.opened_spAddr (d : Device) (i : Instr) {a size align : Nat} (h : d.inPart a size align) :
    (d.opened i).spAddr a size align = .ok (d.phys a) := (d.opened i).spAddr_ok h.1 h.2

/-- Checked ranges of one length (R229, R331). -/
theorem spRanges_ok (s : Device) (n align : Nat) : ∀ l : List Nat, (∀ a ∈ l, a % align = 0 ∧ a + n ≤ s.curLaunch.spSize) →
    spRanges s n align l = .ok (l.map (s.curLaunch.spPhys s.issue.core))
  | [], _ => rfl
  | a :: t, h => by
    have h1 := h a List.mem_cons_self
    simp only [spRanges, s.spAddr_ok h1.1 h1.2, spRanges_ok s n align t (fun b hb => h b (List.mem_cons_of_mem _ hb))]
    rfl

/-- A press resource occupied (R160). -/
theorem Did.Leaves.usePress {x : Did} {d : Device} {i : Instr} {now t : Device} (h : Did.Leaves x d i now t) (res : Nat)
    (writer : Bool) (lo hi : Nat)
    (hfree : ∀ p ∈ t.pressPlans t.issue.l (t.issue.core / 4), pressMeets (d.pressUse res writer lo hi) p = false) :
    Did.Runs { x with press := x.press ++ [d.pressUse res writer lo hi] } d i now (Machine.usePress res writer lo hi t) := by
  unfold Machine.usePress
  simp only [h.tick, h.pc]
  have hn : (t.pressPlans t.issue.l (t.issue.core / 4)).find? (fun p => pressMeets (d.pressUse res writer lo hi) p) = none := by
    rw [List.find?_eq_none]
    exact fun p hp => by simp [hfree p hp]
  unfold Device.pressUse at hn
  rw [hn]
  refine ⟨_, rfl, h.alike (.ofIssue rfl) (h.own.setLive _) ?_ h.seq ?_⟩
  · rw [Device.setLive_cur]
    simp only [Device.live, h.cur, List.append_assoc, Device.pressUse]
  · have e := h.rest
    generalize ht : t.ctxs = c at *
    rw [e]
    rfl

/-! ## Several actions of one instruction -/

theorem findLanding_numbered (d : Device) (n : Nat) (ps : List Place) : ∀ (l : List (Nat × FlyOp)) (k : Nat),
    (∀ b ∈ l, b.1 = n → ∀ p ∈ ps, b.2.places.any (fun q => p.meets q) = false) →
    findLanding (d.now + n) ps (d.numbered k l) = none
  | [], _, _ => rfl
  | (m, op) :: t, k, h => by
    simp only [Device.numbered, findLanding]
    have ih := findLanding_numbered d n ps t (k + 1) (fun b hb => h b (List.mem_cons_of_mem _ hb))
    by_cases hm : d.now + m = d.now + n
    · have hn : m = n := by omega
      have hf : ps.find? (fun p => op.places.any (fun q => p.meets q)) = none := by
        rw [List.find?_eq_none]
        intro p hp
        have := h (m, op) List.mem_cons_self hn p hp
        simpa using this
      simp only [hm, if_true, hf]
      exact ih
    · simp only [hm, if_false]
      exact ih

/-- An action whose results meet neither those in flight nor those of the instruction's other actions (R35). -/
theorem Did.Leaves.add {x : Did} {d : Device} {i : Instr} {now t : Device} (h : Did.Leaves x d i now t) (hm : x.more = 0)
    (n : Nat) (op : FlyOp) (hfree : findLanding (d.now + n) op.places d.live.flights = none)
    (hx : ∀ b ∈ x.flights, b.1 = n → ∀ p ∈ op.places, b.2.places.any (fun q => p.meets q) = false) :
    Did.Runs { x with flights := x.flights ++ [(n, op)] } d i now (Machine.addFlight n op t) := by
  refine h.addFlight hm n op ?_
  rw [h.flights]
  exact findLanding_append _ _ _ _ hfree (findLanding_numbered d n op.places _ _ hx)

/-- Results that meet neither those in flight nor those of the instruction's other actions (R35). -/
theorem Did.Leaves.lands {x : Did} {d : Device} {i : Instr} {now t : Device} (h : Did.Leaves x d i now t) (hm : x.more = 0)
    (n : Nat) (ws : List RegWrite) (fl : Flags) (vd : Option VNum) (hfree : d.LandsFree (results n ws fl vd))
    (hx : ∀ b ∈ x.flights, ∀ c ∈ results n ws fl vd, b.1 = c.1 → ∀ p ∈ c.2.places, b.2.places.any (fun q => p.meets q) = false) :
    Did.Runs { x with flights := x.flights ++ results n ws fl vd } d i now (Machine.land n ws fl vd t) := by
  refine h.land hm n ws fl vd ?_
  intro p hp
  rw [h.flights]
  exact findLanding_append _ _ _ _ (hfree p hp) (findLanding_numbered d p.1 p.2.places _ _ (fun b hb e => hx b hb p hp e))

/-! ## Press resources (R160) -/

theorem mem_rangeFrom (lo n x : Nat) : x ∈ rangeFrom lo n ↔ lo ≤ x ∧ x < lo + n := by
  induction n generalizing lo with
  | zero => simp [rangeFrom]
  | succ n ih => simp only [rangeFrom, List.mem_cons, ih]; omega

theorem Own.ctx_ne {d t : Device} (h : Own d t) {l core : Nat} (hk : ctxKey l core ≠ d.curKey) : t.ctx l core = d.ctx l core := by
  rcases h.ctxs with e | e
  · simp [Device.ctx, e]
  · unfold Device.ctx
    rw [e]
    exact Assoc.get_set_ne _ _ _ hk

/-- The press occupancies planned on the sheaf are those of before and those of the instruction. -/
theorem Did.Leaves.pressPlans {x : Did} {d : Device} {i : Instr} {now t : Device} (h : Did.Leaves x d i now t) :
    ∀ p ∈ t.pressPlans t.issue.l (t.issue.core / 4), p ∈ d.pressPlans d.issue.l (d.issue.core / 4) ∨ p ∈ x.press := by
  intro p hp
  rw [h.own.l, h.own.core] at hp
  simp only [Device.pressPlans, List.mem_flatten, List.mem_map] at hp ⊢
  obtain ⟨l, ⟨c, hc, rfl⟩, hpl⟩ := hp
  by_cases hk : ctxKey d.issue.l c = d.curKey
  · have hcc : c = d.issue.core := by simpa [ctxKey, Device.curKey] using hk
    subst hcc
    have e : t.ctx d.issue.l d.issue.core = t.cur := by simp only [Device.cur, h.own.l, h.own.core]
    rw [e, h.cur] at hpl
    rcases List.mem_append.mp hpl with hp | hp
    · exact .inl ⟨_, ⟨d.issue.core, hc, rfl⟩, hp⟩
    · exact .inr hp
  · rw [h.own.ctx_ne hk] at hpl
    exact .inl ⟨_, ⟨c, hc, rfl⟩, hpl⟩

/-- A press resource that no plan and no earlier occupancy of the instruction takes (R160). -/
theorem Did.Leaves.takePress {x : Did} {d : Device} {i : Instr} {now t : Device} (h : Did.Leaves x d i now t) (res : Nat)
    (writer : Bool) (lo hi : Nat) (hfree : d.PressFree [d.pressUse res writer lo hi])
    (hx : ∀ p ∈ x.press, pressMeets (d.pressUse res writer lo hi) p = false) :
    Did.Runs { x with press := x.press ++ [d.pressUse res writer lo hi] } d i now (Machine.usePress res writer lo hi t) := by
  refine h.usePress res writer lo hi ?_
  intro p hp
  rcases h.pressPlans p hp with e | e
  · exact hfree _ (List.mem_singleton_self _) p e
  · exact hx p e

/-- Several press resources for the same ticks (R160). -/
theorem Did.Leaves.takePresses {d : Device} {i : Instr} {now : Device} (writer : Bool) (lo hi : Nat) : ∀ (l : List Nat) (x : Did)
    (t : Device), Did.Leaves x d i now t → l.Nodup → d.PressFree (l.map (fun r => d.pressUse r writer lo hi)) →
    (∀ r ∈ l, ∀ p ∈ x.press, pressMeets (d.pressUse r writer lo hi) p = false) →
    Did.Runs { x with press := x.press ++ l.map (fun r => d.pressUse r writer lo hi) } d i now (Machine.usePresses writer lo hi l t)
  | [], x, t, h, _, _, _ => ⟨t, rfl, by simpa using h⟩
  | r :: l, x, t, h, hn, hf, hx => by
    obtain ⟨u, hu, hl⟩ := h.takePress r writer lo hi (fun q hq => hf q (by simp only [List.mem_singleton] at hq; simp [hq]))
      (hx r List.mem_cons_self)
    obtain ⟨v, hv, hl'⟩ := Did.Leaves.takePresses writer lo hi l _ u hl (List.nodup_cons.mp hn).2
      (fun q hq => hf q (List.mem_cons_of_mem _ hq)) (by
        intro r' hr' p hp
        rcases List.mem_append.mp hp with hp | hp
        · exact hx r' (List.mem_cons_of_mem _ hr') p hp
        · simp only [List.mem_singleton] at hp
          have hne : r' ≠ r := fun e => (List.nodup_cons.mp hn).1 (e ▸ hr')
          simp [hp, pressMeets, Device.pressUse, hne])
    refine ⟨v, ?_, by simpa using hl'⟩
    simp only [Machine.usePresses, hu]
    exact hv

/-! ## Dimension variables (R146) -/

theorem Did.Leaves.regs {x : Did} {d : Device} {i : Instr} {now t : Device} (h : Did.Leaves x d i now t) :
    t.regs = { d.regs with dv := x.dims.getD d.regs.dv } := by
  simp only [Device.regs, Device.live, h.cur]

theorem markDims_runs {d : Device} {i : Instr} {now : Device} (dv : Dims) : ∀ (l : List DNum) (x : Did) (t : Device),
    Did.Leaves x d i now t → x.more = 0 → x.dims = none → l.Nodup →
    (∀ r ∈ l, d.regs.dv[r] ≠ dv[r] → findLanding (d.now + 1) [{ kind := 9, reg := r.val, lo := 0, len := 1 }] d.live.flights = none) →
    (∀ b ∈ x.flights, b.1 = 1 → ∀ r ∈ l, ∀ q ∈ b.2.places, q.kind = 9 → q.reg ≠ r.val) →
    Did.Runs { x with flights := x.flights ++ (l.filter (fun r => decide (d.regs.dv[r] ≠ dv[r]))).map (fun r => (1, .regs [.dv r] 0 none)) }
      d i now (markDims dv l t)
  | [], x, t, h, _, _, _, _, _ => ⟨t, rfl, by simpa using h⟩
  | r :: l, x, t, h, hm, hd, hn, hf, hx => by
    have hdv : t.regs.dv = d.regs.dv := by rw [h.regs, hd]; rfl
    unfold markDims
    rw [hdv]
    by_cases hr : d.regs.dv[r] = dv[r]
    · obtain ⟨v, hv, hl⟩ := markDims_runs dv l x t h hm hd (List.nodup_cons.mp hn).2
        (fun r' hr' => hf r' (List.mem_cons_of_mem _ hr')) (fun b hb e r' hr' => hx b hb e r' (List.mem_cons_of_mem _ hr'))
      simp only [hr, if_true]
      rw [List.filter_cons_of_neg (by simpa using hr)]
      exact ⟨v, hv, hl⟩
    · simp only [hr, if_false]
      obtain ⟨u, hu, hl⟩ := h.add hm 1 (.regs [.dv r] 0 none) (hf r List.mem_cons_self hr) (by
        intro b hb e p hp
        simp only [FlyOp.places, RegWrite.place, List.filterMap_cons, List.filterMap_nil, List.mem_singleton] at hp
        rw [List.any_eq_false]
        intro q hq
        subst hp
        by_cases hk : q.kind = 9
        · have := hx b hb e r List.mem_cons_self q hq hk
          simp [Place.meets, Ne.symm this]
        · simp [Place.meets, Ne.symm hk])
      obtain ⟨v, hv, hl'⟩ := markDims_runs dv l _ u hl hm hd (List.nodup_cons.mp hn).2
        (fun r' hr' => hf r' (List.mem_cons_of_mem _ hr')) (by
          intro b hb e r' hr' q hq hk
          rcases List.mem_append.mp hb with hb | hb
          · exact hx b hb e r' (List.mem_cons_of_mem _ hr') q hq hk
          · simp only [List.mem_singleton] at hb
            subst hb
            simp only [FlyOp.places, RegWrite.place, List.filterMap_cons, List.filterMap_nil, List.mem_singleton] at hq
            subst hq
            intro e'
            exact (List.nodup_cons.mp hn).1 (by rw [show r = r' from Fin.ext e']; exact hr'))
      rw [hu]
      rw [List.filter_cons_of_pos (by simpa using hr), List.map_cons, List.append_cons]
      exact ⟨v, hv, hl'⟩

/-- The bindings of a rule (R146). -/
theorem Did.Leaves.bindDims {x : Did} {d : Device} {i : Instr} {now t : Device} (h : Did.Leaves x d i now t) (hm : x.more = 0)
    (hd : x.dims = none) (dv : Dims) (hf : d.LandsFree (d.dimResults dv))
    (hx : ∀ b ∈ x.flights, b.1 = 1 → ∀ q ∈ b.2.places, q.kind ≠ 9) :
    Did.Runs { x with flights := x.flights ++ d.dimResults dv, dims := some dv } d i now (t.bindDims dv) := by
  obtain ⟨u, hu, hl⟩ := markDims_runs dv (List.finRange 16) x t h hm hd (List.nodup_finRange 16)
    (fun r hr hne => hf (1, .regs [.dv r] 0 none) (List.mem_map.mpr ⟨r, List.mem_filter.mpr ⟨hr, by simpa using hne⟩, rfl⟩))
    (fun b hb e r _ q hq hk => absurd hk (hx b hb e q hq))
  unfold Device.bindDims
  rw [hu]
  refine ⟨_, rfl, hl.alike (.ofIssue rfl) (hl.own.setCur hl.own.present) ?_ hl.seq ?_⟩
  · have e : (u.setRegs { u.regs with dv := dv }).cur = { u.cur with live := { u.live with regs := { u.regs with dv := dv } } } :=
      Device.setRegs_cur _ _
    rw [e]
    simp only [Device.live, Device.regs, hl.cur, Option.getD_some]
    rfl
  · have e := hl.rest
    generalize ht : u.ctxs = c at *
    rw [e]
    rfl

end Sys2Proof.Machine
end

