-- ==== Sys2Proof/Tests/Slice0.lean ====
section
/-! SUPPORT. Tests of the model: words written out from the spec's encodings, ill-formed terms that the checks refuse, single
steps, and for each statement with hypotheses states and operands that meet them together. -/

open Sys2Proof Sys2Proof.Machine

namespace Sys2Proof.Tests

-- The kernel evaluates these tests one after another: many at once would each hold a thread, and together too much memory.
set_option Elab.async false

/-! ## States to start from -/

/-- A device on which core 0 of one sheet is about to issue a bundle of four slots at sheet tick 0. -/
def dev0 : Device :=
  let d := (State.reset.withFetchWord 32 0x3F).dev
  { d with issue := { Issue.idle with nslots := 4 } }

/-- The state of a device. -/
def at_ (d : Device) : State := { State.reset with dev := d }

/-- A device with the issuing context's live part changed. -/
def live (f : Live → Live) (d : Device) : Device := d.setCtx 0 0 { d.ctx 0 0 with live := f (d.ctx 0 0).live }

/-- A device with the issuing context's registers changed. -/
def regs (f : Regs → Regs) : Device → Device := live (fun v => { v with regs := f v.regs })

/-- A device with its launch changed. -/
def launch (f : Launch → Launch) (d : Device) : Device := d.setLaunch 0 (f (d.launch 0))

/-- A device at the last tick of a ream. -/
def atBoundary (d : Device) : Device := launch (fun x => { x with tick := x.ream - 1 }) d

/-! ## The conditions, decided -/

/-- Whether an instruction may issue alone. -/
def readyB (d : Device) (i : Instr) : Bool :=
  d.cur.present && !d.issue.handler && (d.live.dueReps d.now).isEmpty && d.live.flights.all (fun f => decide (d.now < f.due)) &&
    (decide ((d.now + 1) % d.curLaunch.ream = 0) == boundary i) && d.queuesReady i && !d.mustHold i

theorem ready_of {d : Device} {i : Instr} (h : readyB d i = true) : d.Ready i := by
  simp only [readyB, Bool.and_eq_true, Bool.not_eq_true', beq_iff_eq, List.isEmpty_iff, List.all_eq_true, decide_eq_true_eq] at h
  obtain ⟨⟨⟨⟨⟨⟨h1, h2⟩, h3⟩, h4⟩, h5⟩, h6⟩, h7⟩ := h
  exact ⟨h1, h2, h3, h4, by rw [← h5]; simp, h6, h7⟩

/-- Whether no two results land in one place. -/
def landsB (d : Device) (l : List (Nat × FlyOp)) : Bool := l.all (fun p => (findLanding (d.now + p.1) p.2.places d.live.flights).isNone)

theorem lands_of {d : Device} {l : List (Nat × FlyOp)} (h : landsB d l = true) : d.LandsFree l := by
  simpa [landsB, Device.LandsFree, List.all_eq_true] using h

/-- Whether an instruction's actions meet nothing. -/
def clearB (d : Device) (x : Did) : Bool :=
  landsB d x.flights && (findConflict (d.bankPlans d.issue.l) (x.uses.map (fun u => (d.issue.slot, u)))).isNone &&
    x.press.all (fun r => (d.pressPlans d.issue.l (d.issue.core / 4)).all (fun p => !pressMeets r p)) &&
    decide (x.charge ≤ d.live.budget) && decide (x.effects ≤ d.live.effects)

theorem clear_of {d : Device} {x : Did} (h : clearB d x = true) : d.Clear x := by
  simp only [clearB, Bool.and_eq_true, decide_eq_true_eq, Option.isNone_iff_eq_none] at h
  obtain ⟨⟨⟨⟨h1, h2⟩, h3⟩, h4⟩, h5⟩ := h
  exact ⟨lands_of h1, h2, by simpa [Device.PressFree, List.all_eq_true] using h3, h4, h5⟩

/-! ## Scalars, predicates, addresses and vectors -/

/-- The sources of the forms below: both queue entries and registers at the ends of their ranges. -/
def devS : Device :=
  let d := dev0.setCtx 0 0 { dev0.ctx 0 0 with queues := Vector.replicate 4 [dbl 5] }
  let e : LoopEntry := { start := 0, stop := 0, left := 1, ix := 7 }
  regs (fun r => { r with s := (r.s.set 1 (BitVec.allOnes 64)).set 2 (dbl (2 ^ 63)), loops := [e] }) d

/-- The modifier word with every field zero. -/
def mod0 : VMod := { rnd := .fctl, sat := .fctl, mask := none }

/-- A modifier word with every field used. -/
def mod1 : VMod := { rnd := .rsr, sat := .nsat, mask := some (7, true) }

/-- Whether an instruction meets the conditions of a scalar result. -/
def scalarMeets (d : Device) (i : Instr) : Bool :=
  readyB d i && (scalarRule d i).any (fun x => landsB d (results x.1 [.s x.2.1 x.2.2] 0 none))

theorem meets_scalar {d : Device} {i : Instr} (h : scalarMeets d i = true) : ∃ n r v,
    (at_ d).dev.Ready i ∧ scalarRule (at_ d).dev i = some (n, r, v) ∧ (at_ d).dev.LandsFree (results n [.s r v] 0 none) := by
  simp only [scalarMeets, Bool.and_eq_true, Option.any_eq_true] at h
  obtain ⟨h1, ⟨n, r, v⟩, h2, h3⟩ := h
  exact ⟨n, r, v, ready_of h1, h2, lands_of h3⟩

/-- A form of each instruction with a scalar result. -/
def scalarForms : List Instr := [
  .add 59 63 1, .sub 1 1 1, .and 0 1 2, .or 60 1 2, .xor 59 0 63, .andn 3 1 2, .shl 3 1 1, .shr 3 2 1, .sra 3 2 1, .rol 3 2 1,
  .min 3 1 2, .max 3 1 2, .minn 3 1 2, .maxn 3 1 2, .clz 3 0, .ctz 3 0, .popc 3 1, .sext 3 1 .b8, .sext 3 1 .b16, .sext 3 1 .b32,
  .zext 3 1 .b8, .zext 3 1 .b16, .zext 3 1 .b32, .sel 3 1 2 0, .mul 3 1 1, .mulh 3 1 2, .mulhn 3 1 2, .div 3 2 1, .div 3 2 0,
  .divn 3 2 0, .rem 3 2 1, .rem 3 2 0, .remn 3 2 0, .addi 3 1 (.short 0x800), .andi 3 1 (.long (BitVec.allOnes 43)), .ori 3 1 (.short 0xFFF),
  .xori 3 1 (.short 0xFFF), .shli 3 1 63, .shri 3 1 63, .srai 3 2 63, .movi 3 (.long (BitVec.allOnes 43)), .lui 3 0x80000,
  .addpc 3 0xFFFFF, .aget 3 15 .addr, .aget 3 15 .inc, .aget 3 15 .wrap, .vext .w32 3 63 2 mod0 true, .vext .w4 3 0 0 mod0 false,
  .mpop 3 7 mod0, .tgett 3 15 false, .tgett 3 15 true, .qcnt 3 3, .lidx 3 0 false, .ccrd 3 1, .mfsr 3 0x0A, .mfsr 3 0x10,
  .monrd 3 1, .errpop 3 7 false]

/-- The hypotheses of ScalarResultsLandAtTheirLatency are met by a form of every instruction it is about. -/
theorem witness_scalar_results : ∀ i ∈ scalarForms, ∃ n r v,
    (at_ devS).dev.Ready i ∧ scalarRule (at_ devS).dev i = some (n, r, v) ∧ (at_ devS).dev.LandsFree (results n [.s r v] 0 none) :=
  fun i h => meets_scalar (List.all_eq_true.mp (by decide +kernel : scalarForms.all (scalarMeets devS) = true) i h)

/-- Whether an instruction meets the conditions of a predicate's truth. -/
def predicateMeets (d : Device) (i : Instr) : Bool :=
  readyB d i && (predicateRule d i).any (fun x => landsB d (results 1 [.p x.1 x.2] 0 none))

theorem meets_predicate {d : Device} {i : Instr} (h : predicateMeets d i = true) : ∃ p b,
    (at_ d).dev.Ready i ∧ predicateRule (at_ d).dev i = some (p, b) ∧ (at_ d).dev.LandsFree (results 1 [.p p b] 0 none) := by
  simp only [predicateMeets, Bool.and_eq_true, Option.any_eq_true] at h
  obtain ⟨h1, ⟨p, b⟩, h2, h3⟩ := h
  exact ⟨p, b, ready_of h1, h2, lands_of h3⟩

/-- A form of each instruction that writes a predicate by comparing or combining. -/
def predicateForms : List Instr := [
  .cmp .eq 7 0 0, .cmp .ne 7 1 2, .cmp .lt 7 2 1, .cmp .ge 7 1 2, .cmp .ltn 7 63 1, .cmp .gen 0 1 2, .cmpi .lt 1 2 (.short 0x7FF),
  .pand 1 0 7, .por 0 1 2, .pnot 7 0]

/-- The hypotheses of PredicateInstructionsWriteTheirTruth. -/
theorem witness_predicate_results : ∀ i ∈ predicateForms, ∃ p b,
    (at_ devS).dev.Ready i ∧ predicateRule (at_ devS).dev i = some (p, b) ∧ (at_ devS).dev.LandsFree (results 1 [.p p b] 0 none) :=
  fun i h => meets_predicate (List.all_eq_true.mp (by decide +kernel : predicateForms.all (predicateMeets devS) = true) i h)

/-- Whether an instruction meets the conditions of an address register's write. -/
def addressMeets (d : Device) (i : Instr) : Bool :=
  readyB d i && (addressRule d i).any (fun w => landsB d (results 1 [w] 0 none))

theorem meets_address {d : Device} {i : Instr} (h : addressMeets d i = true) : ∃ w,
    (at_ d).dev.Ready i ∧ addressRule (at_ d).dev i = some w ∧ (at_ d).dev.LandsFree (results 1 [w] 0 none) := by
  simp only [addressMeets, Bool.and_eq_true, Option.any_eq_true] at h
  obtain ⟨h1, w, h2, h3⟩ := h
  exact ⟨w, ready_of h1, h2, lands_of h3⟩

/-- A form of each address instruction. -/
def addressForms : List Instr := [.amov 15 1, .aadd 15 0 63, .ainc 0 2, .amod 0 0, .aaddi 15 15 (.short 0x800)]

/-- The hypotheses of AddressInstructionsWriteOneField. -/
theorem witness_address_results : ∀ i ∈ addressForms, ∃ w,
    (at_ devS).dev.Ready i ∧ addressRule (at_ devS).dev i = some w ∧ (at_ devS).dev.LandsFree (results 1 [w] 0 none) :=
  fun i h => meets_address (List.all_eq_true.mp (by decide +kernel : addressForms.all (addressMeets devS) = true) i h)

/-- The writes that a vector instruction has in flight. -/
def vecWrites (x : VecRule) : List (Nat × FlyOp) := [(x.n, .regs ((rangeFrom x.dst.val x.g).map (fun r => .v (vnum r) 0 512 0)) 0 (some x.dst))]

/-- Whether an instruction meets the conditions of an element-wise result. -/
def vectorMeets (d : Device) (i : Instr) : Bool := readyB d i && i.wf && (vectorRule d i).any (fun x => landsB d (vecWrites x))

theorem meets_vector {d : Device} {i : Instr} (h : vectorMeets d i = true) : ∃ x,
    (at_ d).dev.Ready i ∧ i.wf = true ∧ vectorRule (at_ d).dev i = some x ∧ (at_ d).dev.LandsFree (vecWrites x) := by
  simp only [vectorMeets, Bool.and_eq_true, Option.any_eq_true] at h
  obtain ⟨⟨h1, h2⟩, x, h3, h4⟩ := h
  exact ⟨x, ready_of h1, h2, h3, lands_of h4⟩

/-- A form of each element-wise vector instruction. -/
def vectorForms : List Instr := [
  .vadd .fp32 63 0 1 mod1 0xFFFF, .vsub .bf16 63 0 1 mod1 0, .vmul .fp16 63 0 1 mod1 0, .vfma .fp32 2 2 2 mod1 0, .vfms .fp32 2 2 2 mod1 0,
  .vmin .fp32 2 0 1 mod0, .vmax .bf16 2 0 1 mod0, .vabs .fp16 2 0 mod0, .vneg .fp32 2 0 mod0, .vsel .fp32 2 0 1 mod0 7,
  .vrnd .fp32 2 0 63 mod0, .vexp2 .fp32 2 0 63 mod1, .vlog2 .fp32 2 0 0 mod1, .vrcp .fp32 2 0 1 mod1, .vrsq .fp32 2 0 1 mod1,
  .vsig .fp32 2 0 1 mod1, .vtanh .bf16 2 0 1 mod1, .vcvtFp .fp32 .e5m2 60 0 1 mod1, .vcvtFp .e4m3 .fp32 2 60 1 mod1,
  .vcvtInt .intToFp .i8 .fp32 60 0 1 mod1, .vcvtInt .fpToInt .n8 .fp32 2 60 1 mod1, .viadd .i4 2 0 1 { mod0 with sat := .sat },
  .visub .n32 2 0 1 mod0, .vimul .i16 2 0 1 mod0, .vimin .i8 2 0 1 mod0, .vimax .n8 2 0 1 mod0, .vidot .i8 2 0 1 mod0,
  .vidot .n4 2 0 1 mod0, .vshl .i32 2 0 1 mod0 false 0, .vshr .i32 2 0 0 mod0 true 63, .vsra .i32 2 0 0 mod0 true 63,
  .vand .i8 2 0 1 mod0, .vor .i8 2 0 1 mod0, .vxor .i8 2 0 1 mod0, .vwidenX2 .i16 62 0 mod0, .vwidenX4 .n8 60 0 mod0,
  .vnarrowD2 .i16 2 62 mod0, .vnarrowD4 .n32 2 60 mod0, .vperm .w4 2 0 60 mod0, .vperm .w32 2 0 1 mod0, .vbcast .w4 2 0 mod0 false 0x3FF,
  .vbcast .w32 2 1 mod0 true 0, .vslide .w4 2 0 1 mod0 1024, .viota .w8 2 63 mod0, .vzip .w16 62 0 1 mod0, .vunzip .w32 62 0 1 mod0,
  .vhusk 63 0 1 mod0 true false .w4 0, .vhusk 2 2 1 mod0 false false .w4 0]

/-- The hypotheses of VectorInstructionsWriteElementByElement. -/
theorem witness_vector_results : ∀ i ∈ vectorForms, ∃ x,
    (at_ devS).dev.Ready i ∧ i.wf = true ∧ vectorRule (at_ devS).dev i = some x ∧ (at_ devS).dev.LandsFree (vecWrites x) :=
  fun i h => meets_vector (List.all_eq_true.mp (by decide +kernel : vectorForms.all (vectorMeets devS) = true) i h)

/-! ## What an instruction does, and that it meets nothing -/

/-- Whether an instruction meets the conditions of a rule. -/
def didMeets (rule : Instr → Option Did) (d : Device) (i : Instr) : Bool := readyB d i && i.wf && (rule i).any (clearB d)

theorem meets_did {rule : Instr → Option Did} {d : Device} {i : Instr} (h : didMeets rule d i = true) : ∃ x,
    (at_ d).dev.Ready i ∧ i.wf = true ∧ rule i = some x ∧ (at_ d).dev.Clear x := by
  simp only [didMeets, Bool.and_eq_true, Option.any_eq_true] at h
  obtain ⟨⟨h1, h2⟩, x, h3, h4⟩ := h
  exact ⟨x, ready_of h1, h2, h3, clear_of h4⟩

theorem meets_all {rule : Instr → Option Did} {d : Device} {l : List Instr} (h : l.all (didMeets rule d) = true) :
    ∀ i ∈ l, ∃ x, (at_ d).dev.Ready i ∧ i.wf = true ∧ rule i = some x ∧ (at_ d).dev.Clear x :=
  fun i hi => meets_did (List.all_eq_true.mp h i hi)

/-- A laid window of one group of one-bit codes with windows of sixteen bits, at the last bit and the last addresses it may have
(R81, R82). -/
def window0 : BitVec 192 :=
  BitVec.ofNat 192 (2 ^ 128 + 0x1FFFFF * 2 ^ 96 + 0x1FFFF8 * 2 ^ 64 + 2 ^ 46 + 16 * 2 ^ 40 + 2 ^ 38 + 63)

/-- A device whose lw7 holds a window. -/
def devW : Device := regs (fun r => { r with lw := Vector.replicate 8 window0 }) devS

/-- A form of each remaining vector and mask instruction. -/
def blockForms : List Instr := [
  .vredsum .fp32 63 0 63 { mod1 with mask := none } true, .vredsum .bf16 2 0 1 { mod0 with mask := some (0, false) } false,
  .vredmax .fp32 2 0 mod0 true, .vredmin .fp16 2 0 mod0 false, .vins .w4 2 1 2 mod0, .vins .w32 2 1 0 mod0,
  .vcmp .fp32 .lt 7 0 1 mod0, .vcmp .bf16 .un 7 0 1 mod0, .vhusk 7 0 1 mod0 true true .w32 0xFFFF, .mand 7 0 1 mod0, .mor 0 7 7 mod0,
  .mnot 7 7 mod0, .vpack 62 0 mod0 3 128, .vpack 62 0 mod0 3 1, .vunpack 2 62 mod0, .vlaid 2 7 63 mod0 true true,
  .vqnt 2 0 63 mod0 0 false 0 7 60, .vqnt 2 0 1 mod0 5 true 3 7 56]

/-- The hypotheses of BlockAndMaskInstructionsWriteTheirResults. -/
theorem witness_block_results : ∀ i ∈ blockForms, ∃ x,
    (at_ devW).dev.Ready i ∧ i.wf = true ∧ blockRule devW i = some x ∧ (at_ devW).dev.Clear x :=
  meets_all (by decide +kernel)

/-! ## Control, work and system instructions -/

/-- A device with a bundle after the issuing one, the last of a loop. -/
def devL : Device := { devS with hostMem := Memory.writeBytes devS.hostMem 65552 ([0x3F, 0x3F, 0x3F, 0x8000003F].map (bytesOf 4)).flatten }

/-- A form of each control instruction. -/
def controlForms : List Instr := [
  .nop, .jmp 0x800000, .call 0x7FFFFF, .br 63 0x20000, .br 0 1, .brp false 0 0x1FFFF, .brp true 7 1, .callr 59 0, .ret 0, .loop 1023 4,
  .loops 1 255, .loops 0 4, .lidx 3 5 true, .waitt 1, .waitt 511, .waittAbs 63, .ccwait true 0 0, .hsig 63 31, .trap 0xFFF, .brk 0]

/-- The hypotheses of ControlInstructionsChooseTheSuccessor. -/
theorem witness_control : ∀ i ∈ controlForms, ∃ x,
    (at_ devL).dev.Ready i ∧ i.wf = true ∧ controlRule devL i = some x ∧ (at_ devL).dev.Clear x :=
  meets_all (by decide +kernel)

/-- The same of BND, at the last tick of a ream. -/
theorem witness_bnd : ∀ i ∈ [Instr.bnd], ∃ x,
    (at_ (atBoundary devL)).dev.Ready i ∧ i.wf = true ∧ controlRule (atBoundary devL) i = some x ∧ (at_ (atBoundary devL)).dev.Clear x :=
  meets_all (by decide +kernel)

/-- A device on which core 0 holds the lease of its sheaf at the last tick of its term. -/
def devE : Device := dev0.setSheaf 0 { dev0.sheaf 0 with lease := { (dev0.sheaf 0).lease with holder := some 0, cmds := 1, limit := 0 } }

/-- The hypothesis of ExitEndsTheUnitAndItsLease, without a lease and with one. -/
theorem witness_exit : (at_ dev0).dev.Ready .exit ∧ (at_ devE).dev.Ready .exit :=
  ⟨ready_of (by decide +kernel), ready_of (by decide +kernel)⟩

/-- A device whose sheet belongs to a job with one open phase. -/
def devJ : Device :=
  let d := launch (fun x => { x with graph := 127 }) dev0
  let d := d.setGraph 127 { Graph.free with used := true, job := 63 }
  let ph : Phase := { count := 0, fin := false, can := false, err := false, stop := false }
  let d := d.setJob 63 { Job.free with used := true, record := BitVec.ofNat 512 (2 ^ 403), phases := [ph] }
  regs (fun r => { r with s := r.s.set 1 (dbl (2 ^ 53)) }) d

/-- Whether a work request meets the conditions of its rule. -/
def workMeets (d : Device) (i : Instr) : Bool := readyB d i && (workRule d i).any (fun x => landsB d x.2.flights)

/-- Requests that are accepted and refused. -/
def workForms : List Instr := [.launch 59 0 7, .launch 2 1 1, .graph 59 0 7, .graph 2 1 1, .cancel 1 7]

/-- The hypotheses of WorkRequestsReserveTheirSlots; s0 names a launch of phase 0 and s1 a reserved request. -/
theorem witness_work : ∀ i ∈ workForms, ∃ now x,
    (at_ devJ).dev.Ready i ∧ workRule (at_ devJ).dev i = some (now, x) ∧ (at_ devJ).dev.LandsFree x.flights := by
  have h : workForms.all (workMeets devJ) = true := by decide +kernel
  intro i hi
  have h := List.all_eq_true.mp h i hi
  simp only [workMeets, Bool.and_eq_true, Option.any_eq_true] at h
  obtain ⟨h1, ⟨now, x⟩, h2, h3⟩ := h
  exact ⟨now, x, ready_of h1, h2, lands_of h3⟩

/-- LAUNCH of s0 is accepted and that of s1 is refused. -/
theorem test_takes_work : devJ.takesWork false 0 = true ∧ devJ.takesWork false (2 ^ 53) = false := by decide +kernel

/-- A form of each system instruction. -/
def systemForms : List Instr := [
  .mtsr 1 4, .mtsr 1 5, .mtsr 1 6, .mtsr 1 0x0B, .ctxsw 7 0 true, .haltc 7 0 .halt, .ctxst 0 0 0, .ctxld 15 0 0, .tlbinv .page 0 0,
  .shoot 15 .all 0 0, .attest 0 1 0]

/-- The hypotheses of SystemInstructionsActForASystemContext. -/
theorem witness_system : ∀ i ∈ systemForms, ∃ x,
    (at_ devJ).dev.Ready i ∧ i.wf = true ∧ systemRule devJ i = some x ∧ (at_ devJ).dev.Clear x :=
  meets_all (by decide +kernel)

/-- The hypotheses of ErrpopTakesTheOldestRecord, with a record in the log and without one. -/
theorem witness_errpop :
    (let d : Device := { dev0 with log := [1] }
     (at_ d).dev.Ready (.errpop 59 7 true) ∧ d.curLaunch.asid = 0 ∧ d.log = [1] ∧
      d.LandsFree (results 1 [.s 59 (dbl (recField 1 (64 * (7 : BitVec 3).toNat) 64))] 0 none)) ∧
    (at_ dev0).dev.Ready (.errpop 59 7 true) ∧ dev0.curLaunch.asid = 0 ∧ dev0.log = [] ∧ dev0.LandsFree (results 1 [.s 59 0] 0 none) :=
  ⟨⟨ready_of (by decide +kernel), by decide +kernel, rfl, lands_of (by decide +kernel)⟩, ready_of (by decide +kernel), by decide +kernel,
    by decide +kernel, lands_of (by decide +kernel)⟩

/-! ## Tiles -/

/-- A type word of rank 2: extents, format, layout, block code and scale format. -/
def word2 (e0 e1 fmt layout sblk sfmt : Nat) : Nat := 2 + e0 * 2 ^ 2 + e1 * 2 ^ 12 + fmt * 2 ^ 32 + layout * 2 ^ 37 + sblk * 2 ^ 40 + sfmt * 2 ^ 44

/-- A tile register of a type. -/
def tile (data : Nat) (w : Nat) : TileReg := { data := BitVec.ofNat 65536 data, typ := dbl w, tag := 0 }

/-- A packed type of 16 BF16 elements. -/
def packedWord : Nat := 1 + 16 * 2 ^ 2 + 2 ^ 32 + 3 * 2 ^ 37

/-- A device with typed tiles: t0 of 128 columns by 32 rows of BF16 fills its register, t1 has an extent named by d15, t2 and t3 are
packed, the one rightly and the other with a header of zeros, t4 is block-scaled, t5 is small and plain, t15 is empty. -/
def devT : Device :=
  let codes := (List.range 16).map (fun k => k % 3)
  let t := ((((((Vector.replicate 16 (tile 0 0)).set 0 (tile 0 (word2 128 32 1 0 0 0))).set 1 (tile 0 (word2 (512 + 15) 4 0 0 0 0))).set 2
    (tile (packBlock 1 16 codes) packedWord)).set 3 (tile 0 packedWord)).set 4 (tile 0 (word2 64 4 3 0 3 1))).set 5 (tile 0x3F800000 (word2 8 4 0 0 0 0))
  let s := ((dev0.regs.s.set 1 (dbl (word2 128 32 1 0 0 0))).set 2 (dbl (word2 4 8 0 0 0 0)))
  regs (fun r => { r with t := t, s := s, dv := r.dv.set 14 (.bound 0xFFFF) }) devS

/-- A form of each tile instruction. -/
def tileForms : List Instr := [
  .ttype 15 1, .ttype 0 0, .tbind 15 63, .tbindU 15 13, .tfree 15, .tfreeDv 15, .tresh 15 5 2, .tresh 5 5 2, .ttrans 15 5 true, .ttrans 1 1 true,
  .ttrans 15 5 false, .tcast 15 5 1 3 2 false (BitVec.allOnes 31), .tcast 15 2 0 0 0 false 0, .tcast 15 3 0 0 0 false 0, .tcast 15 5 14 0 0 true 0,
  .tcast 1 1 14 0 0 true 0, .tzero 15, .texp 15 4 7 false, .texp 15 2 0 false, .texp 15 3 0 false, .tmov 14 0, .tmov 14 15]

/-- The hypotheses of TileInstructionsTypeAndWriteTheirTiles. -/
theorem witness_tile : ∀ i ∈ tileForms, ∃ x,
    (at_ devT).dev.Ready i ∧ i.wf = true ∧ tileRule devT (devT.opened i) i = some x ∧ (at_ devT).dev.Clear x :=
  meets_all (rule := fun i => tileRule devT (devT.opened i) i) (by decide +kernel)

/-! ## The press and its drains -/

/-- A region's header: type, tag 0, pitch and data address (R158). -/
def header (w pitch data : Nat) : List Byte := bytesOf 16 (w + pitch * 2 ^ 72 + data * 2 ^ 96)

/-- The last line of a partition. -/
def top : Nat := 0x1FFFC0

/-- A buffer of 32 columns of BF16, and another of eight. -/
def buffer (n : Nat) : PressBuf :=
  { typ := dbl (word2 32 n 1 0 0 0), k := 32, n := n, tag := 0, cols := List.replicate n 0, scales := [], metas := List.replicate n none }

/-- A device on which core 0 holds the lease at its last command and last tick, with tiles, buffers, windows, a region that ends the
partition, the record of an encoding, and an accumulator slot of 32 by 8. -/
def devP : Device :=
  let t := ((((Vector.replicate 16 (tile 0 0)).set 0 (tile 0 (word2 32 8 1 0 0 0))).set 1 (tile 0 (word2 32 8 1 2 0 0))).set 2
    (tile (ofElems 2048 (List.replicate 8 0x44444444)) (word2 8 8 15 0 0 0))).set 3 (tile 0 (word2 64 4 3 0 3 1))
  let a : Vector AReg 16 := Vector.ofFn (fun k => { addr := BitVec.ofNat 32 (if k.val = 15 then top else 64 * k.val), inc := 0, wrap := 0 })
  let d := regs (fun r => { r with t := t, a := a, s := r.s.set 1 (dbl (word2 128 1 1 0 0 0)) }) devW
  let e : Lease := { (d.sheaf 0).lease with holder := some 0, limit := 0, cmds := 1 }
  let d := d.setSheaf 0 { d.sheaf 0 with lease := e, buf0 := buffer 32, buf1 := buffer 8 }
  let m := Memory.writeBytes [] top (header (word2 32 8 1 0 0 0) 1 0x1FFD00)
  let m := Memory.writeBytes m 0 (header (word2 32 8 1 0 0 0) 1 4096 ++ [])
  let m := Memory.writeBytes m 64 (header (word2 32 32 1 0 0 0) 1 0x2100)
  let m := Memory.writeBytes m 128 (header 0 8 16384)
  let m := Memory.writeBytes m 192 (bytesOf 16 (0x1FFF00 + 0x1FFFF8 * 2 ^ 32 + 0x1FFFF8 * 2 ^ 64))
  { d with spad := m, accType := [(0, dbl (resultWord 32 8)), (126, dbl (resultWord 32 8)), (127, dbl (resultWord 8 8))], issue := { d.issue with cmd := some (.pmmz 0 0 false 0, 1) } }

/-- Whether an instruction of the press meets the conditions of its rule. -/
def pressMeetsAll (rule : Instr → Option (Device × Did)) (d : Device) (i : Instr) : Bool := readyB d i && i.wf && (rule i).any (fun x => clearB d x.2)

theorem meets_press {rule : Instr → Option (Device × Did)} {d : Device} {l : List Instr} (h : l.all (pressMeetsAll rule d) = true) :
    ∀ i ∈ l, ∃ now x, (at_ d).dev.Ready i ∧ i.wf = true ∧ rule i = some (now, x) ∧ (at_ d).dev.Clear x := by
  intro i hi
  have h := List.all_eq_true.mp h i hi
  simp only [pressMeetsAll, Bool.and_eq_true, Option.any_eq_true] at h
  obtain ⟨⟨h1, h2⟩, ⟨now, x⟩, h3, h4⟩ := h
  exact ⟨now, x, ready_of h1, h2, h3, clear_of h4⟩

/-- A form of each instruction of the press but for its drains. -/
def pressForms : List Instr := [
  .lacq 7, .lrel, .pldb 0 0 false 0 0 0, .pldb 0 0 false 0 1 0, .pldb 1 1 true 2 0 0, .pldb 0 2 true 2 0 0, .pldb 3 0 true 0 0 7, .pldbSp 15 true,
  .plaid 7 false 1 true, .pmma 0 0 false 0, .pmmz 127 0 true 7, .pclr 127, .ptsc 1 false, .ptsc 0 true, .cbld 3 15 1, .kld 7 15 0,
  .lwset 7 15 1, .lwstep 7 63 true, .lwstep 7 1 false, .cbldPt 3 0 false true, .vtenc 7 7 3, .rep 63 63 7 2]

/-- The hypotheses of PressCommandsSpendTheLease. -/
theorem witness_press : ∀ i ∈ pressForms, ∃ now x,
    (at_ devP).dev.Ready i ∧ i.wf = true ∧ pressRule devP (devP.opened i) i = some (now, x) ∧ (at_ devP).dev.Clear x :=
  meets_press (rule := fun i => pressRule devP (devP.opened i) i) (by decide +kernel)

/-- A drain's extension. -/
def drain0 : DrainX := { dest := 0, ofmt := 0, rnd := .fctl, sat := .fctl, mx := false, pk := false, res := 0 }

/-- The same with the ticks and commands of a logical multiplication left. -/
def devQ (limit : Nat) : Device := devP.setSheaf 0 { devP.sheaf 0 with lease := { (devP.sheaf 0).lease with limit := limit, cmds := 2 } }

/-- A form of each drain. -/
def drainForms : List Instr := [
  .pdrn 127 false 0 63 drain0, .pdrn 0 false 3 0 { drain0 with dest := 4000, ofmt := 1, rnd := .rsr, sat := .sat },
  .pdrn 0 false 3 0 { drain0 with ofmt := 3, mx := true }, .pdrn 0 true 0 0 { drain0 with dest := 512, ofmt := 2 },
  .pdrn 127 true 0 0 { drain0 with dest := 512, ofmt := 0, pk := true, res := 8 },
  .ltdrn 0 2 63 { ofmt := 2, rnd := .rne, sat := .nsat, mx := false, cbx := 3 }]

/-- The hypotheses of DrainsAndLogicalTilesRunTheirTimetable. -/
theorem witness_drain : ∀ i ∈ drainForms, ∃ now x,
    (at_ devP).dev.Ready i ∧ i.wf = true ∧ drainingRule devP (devP.opened i) i = some (now, x) ∧ (at_ devP).dev.Clear x :=
  meets_press (rule := fun i => drainingRule devP (devP.opened i) i) (by decide +kernel)

/-- The same of LTMMA, whose last stream begins at the last tick of the lease. -/
theorem witness_multiply : ∀ i ∈ [Instr.ltmma 127 0 1 true, .ltmma 0 0 1 false], ∃ now x,
    (at_ (devQ 8)).dev.Ready i ∧ i.wf = true ∧ drainingRule (devQ 8) ((devQ 8).opened i) i = some (now, x) ∧ (at_ (devQ 8)).dev.Clear x :=
  meets_press (rule := fun i => drainingRule (devQ 8) ((devQ 8).opened i) i) (by decide +kernel)

/-! ## Scratchpad, felt, deckle and barriers -/

/-- A device with a second sheet of the same address space on the next sheaf, a written felt line, and registers that name the ends of a
partition. -/
def devM : Device :=
  let d := regs (fun r => { r with a := (r.a.set 14 { addr := 0x1FFE00, inc := 0, wrap := 0 }).set 13 { addr := 4095, inc := 0, wrap := 0 }, s := (r.s.set 5 5).set 7 64 }) devP
  let d := d.setSheaf 0 { d.sheaf 0 with stamps := [(4095, some 0)] }
  let l1 : Launch := { placedLaunch with record := placedRecord + BitVec.ofNat 512 (2 ^ 296), seats := [{ sheaf := 1, slotNo := 2, spBase := 0, accBase := 0 }] }
  { d with launches := Assoc.set Launch.free d.launches 5 l1 }

/-- A form of each instruction of the memory class but for copies. -/
def memoryForms : List Instr := [
  .ldb 59 15 63, .ldh 59 15 31, .ldw 59 15 15, .ldd 59 15 7, .stb 63 15 63, .sth 0 15 31, .stw 1 15 15, .std 1 15 7, .vld 63 14 0,
  .vld 0 15 0x3F9, .vst 63 14 0, .tld 15 0 0, .tst 0 2 0, .flrd 63 13 0, .vlds 63 0 7, .vsts 63 0 7, .vgth 2 15 0 .w16, .vgth 2 15 0 .w32,
  .vsct 2 15 0 .w16, .vsct 2 15 0 .w32, .dkput 15 63 7, .dkputSp 15 15, .dktake 15 63 7, .dktakeSp 15 15,
  .satom 15 59 .add true 0, .satom 15 2 .cas false 3, .satom 0 0 .min true 1, .binit 15 63, .bsig 15 63 0 false, .bsig 15 0 5 true, .bsig 0 0 0 true,
  .bwait 2 false true, .bwait 2 false false, .bwait 0 true false, .bxfm 0 .tr16 0 0, .bxfm 15 .zero 0 0, .bxfm 15 .fill 1 0,
  .bxfm 0 .scl2Fp32 1 15, .bxfm 0 .scl2Bf16 1 15, .bxfm 0 .addcFp32 1 15, .bxfm 0 .addcI32 1 15, .bxfm 0 .nrw 0 15, .bxfm 0 .swp16 0 15]

/-- The hypotheses of MemoryInstructionsRunTheirAccesses. -/
theorem witness_memory : ∀ i ∈ memoryForms, ∃ x,
    (at_ devM).dev.Ready i ∧ i.wf = true ∧ memoryRule devM (devM.opened i) i = some x ∧ (at_ devM).dev.Clear x :=
  meets_all (rule := fun i => memoryRule devM (devM.opened i) i) (by decide +kernel)

/-- The hypothesis of FenceMarksItsReam. -/
theorem witness_fence : (at_ dev0).dev.Ready (.fence .dev) ∧ (at_ dev0).dev.Ready (.fence .sys) ∧ (at_ dev0).dev.Ready (.fence .ap) :=
  ⟨ready_of (by decide +kernel), ready_of (by decide +kernel), ready_of (by decide +kernel)⟩

/-! ## Copies and links -/

/-- A record with some values at the low bits of their fields. -/
def fields (l : List (Nat × Nat)) : Nat := l.foldl (fun x p => x + p.2 * 2 ^ p.1) 0

/-- A copy record of 8 by 2 FP32 elements with other fields besides (R239). -/
def copyRecord (l : List (Nat × Nat)) : List Byte :=
  bytesOf 64 (fields ([(128, 64), (160, 1000), (176, 1000), (206, 8), (215, 2), (286, 2)] ++ l))

/-- The TLB entry of a page of device memory, or of host memory, with every right. -/
def pageEntry (k host : Nat) : TlbEntry :=
  { asid := 0, page := k, bits := 16, word0 := dbl (2 ^ 63 + 2 ^ 62 + 2 ^ 61 + 7 * 2 ^ 49 + host * 2 ^ 44 + k * 65536), used := 0, dying := false }

/-- A timeline word of stack 0 that reads line `k` of the second page for owner 0x4D (R266), and its index. -/
def readWord (k : Nat) : Nat × Dbl :=
  let loc := dramMap (2 * 65536 + 64 * k) 0 0
  (32 * (1 + k / 32) + locCh loc, dbl (2 ^ 61 + bitField loc 23 2 * 2 ^ 57 + bitField loc 21 2 * 2 ^ 55 + bitField loc 19 2 * 2 ^ 53 +
    bitField loc 5 14 * 2 ^ 39 + bitField loc 0 5 * 2 ^ 34 + 77 * 2 ^ 10))

/-- A device at sheet tick 100 with copy, all-reduce and migration records, translations, a running timeline, a peer group and routes. -/
def devI : Device :=
  let m := Memory.writeBytes [] 8192 (copyRecord [(0, 65536), (64, 131072), (298, 1), (320, 60)])
  let m := Memory.writeBytes m 8256 (copyRecord [(0, 131072), (64, 131072), (320, 120), (408, 77), (424, 32)])
  let m := Memory.writeBytes m 8320 (copyRecord [(0, 196608), (64, 131072), (448, 0x1FFFF8)])
  let m := Memory.writeBytes m 8384 (copyRecord [(0, 65536), (64, 327680), (298, 1), (300, 1)])
  let m := Memory.writeBytes m 8448 (bytesOf 32 (fields [(0, 0x1FFFC0), (32, 0x1FF000), (64, 0x1FFFF8), (96, 64)]))
  let m := Memory.writeBytes m 8512 (bytesOf 64 (fields [(0, 196608), (96, 0x1FFFF8), (128, 1000)]))
  let t := (Vector.replicate 16 (tile 0 0)).set 15 (tile 0 (word2 8 4 0 0 0 0))
  let a : Vector AReg 16 := Vector.ofFn (fun k => { addr := BitVec.ofNat 32 (8192 + 64 * k.val), inc := 0, wrap := 0 })
  let d := regs (fun r => { r with t := t, a := a, s := (((r.s.set 20 196608).set 21 (9 + 65536 * 5)).set 22 9).set 23 (dbl (1 + 64 * 2 ^ 2 + 2 ^ 32)) }) dev0
  let d := { d with spad := m, woveid := 7, wovectl := Vector.replicate 16 (dbl (2 ^ 63)), route := [(0, dbl (2 ^ 63 + 9))] }
  let d := { d with tlbs := Assoc.set [] d.tlbs 0 [pageEntry 1 1, pageEntry 2 0, pageEntry 3 0, pageEntry 5 0] }
  let d := { d with asctl := Assoc.set 0 (Assoc.set 0 d.asctl 0 (dbl (2 ^ 63))) 2 (dbl 0x100002) }
  let d := d.writeCells (dramMap 0x100000 0 0) (BitVec.ofNat 512 (7 + 9 * 2 ^ 16 + (2 ^ 512 - 1) / 2 ^ 32 * 2 ^ 32))
  let words := ((List.range 20).map readWord).foldl (fun w p => Assoc.set 0 w p.1 p.2) []
  let d := d.setStack 0 { d.stack 0 with words := words, tlctl := dbl (1 + 39 * 2 ^ 17) }
  launch (fun x => { x with tick := 100 }) d

/-- A form of each instruction that begins a copy, an atomic, a send, an all-reduce or a migration. -/
def linkForms : List Instr := [
  .cpy 0 0 0, .cpy 1 0 0, .cpyu 2 0 0, .cpyw 3 0 0, .gatom 59 20 .add true true, .gatom 58 20 .cas false true, .gatom 2 20 .min true false,
  .fsend false 15 21, .fsend true 63 22, .fred 4, .migr 5]

/-- The hypotheses of CopiesAndLinksBeginAtIssue. -/
theorem witness_links : ∀ i ∈ linkForms, ∃ now x,
    (at_ devI).dev.Ready i ∧ i.wf = true ∧ linkRule devI (devI.opened i) i = some (now, x) ∧ (at_ devI).dev.Clear x :=
  meets_press (rule := fun i => linkRule devI (devI.opened i) i) (by decide +kernel)

/-! ## Selectors and the handler -/

/-- The hypotheses of SelectorsReadTheirRegisters, for every selector that it names: in a system context, and in a program's. -/
theorem witness_selectors :
    (∀ k ∈ List.range 17, (at_ devS).dev.Ready (.mfsr 59 (BitVec.ofNat 8 k)) ∧ ((BitVec.ofNat 8 k).toNat ≤ 0x10 ∧ devS.curLaunch.asid = 0) ∧
      ∃ v, devS.selector (BitVec.ofNat 8 k).toNat = some v ∧ devS.LandsFree (results 1 [.s 59 v] 0 none)) ∧
    (∀ k ∈ List.range 11, let d := launch (fun x => { x with asid := 255 }) devS
      (at_ d).dev.Ready (.mfsr 0 (BitVec.ofNat 8 k)) ∧ (BitVec.ofNat 8 k).toNat ≤ 0x0A ∧
      ∃ v, d.selector (BitVec.ofNat 8 k).toNat = some v ∧ d.LandsFree (results 1 [.s 0 v] 0 none)) := by
  have h1 : ∀ k ∈ List.range 17, readyB devS (.mfsr 59 (BitVec.ofNat 8 k)) = true ∧ ((BitVec.ofNat 8 k).toNat ≤ 0x10 ∧ devS.curLaunch.asid = 0) ∧
      (devS.selector (BitVec.ofNat 8 k).toNat).any (fun v => landsB devS (results 1 [.s 59 v] 0 none)) = true := by decide +kernel
  have h2 : ∀ k ∈ List.range 11, readyB (launch (fun x => { x with asid := 255 }) devS) (.mfsr 0 (BitVec.ofNat 8 k)) = true ∧ (BitVec.ofNat 8 k).toNat ≤ 0x0A ∧
      ((launch (fun x => { x with asid := 255 }) devS).selector (BitVec.ofNat 8 k).toNat).any (fun v =>
        landsB (launch (fun x => { x with asid := 255 }) devS) (results 1 [.s 0 v] 0 none)) = true := by decide +kernel
  refine ⟨fun k hk => ?_, fun k hk => ?_⟩
  · obtain ⟨a, b, c⟩ := h1 k hk
    obtain ⟨v, e, f⟩ := (Option.any_eq_true _ _).mp c
    exact ⟨ready_of a, b, v, e, lands_of f⟩
  · obtain ⟨a, b, c⟩ := h2 k hk
    obtain ⟨v, e, f⟩ := (Option.any_eq_true _ _).mp c
    exact ⟨ready_of a, b, v, e, lands_of f⟩

/-- The handler of an event of the given code. -/
def handler0 (code : Nat) : Handler := { pc := 4096, next := 0, record := BitVec.ofNat 512 (code * 2 ^ 56), outcome := none }

/-- A device on which the handler of core 0 is about to issue, with a record in the log. -/
def devH (code : Nat) : Device :=
  let d := { dev0 with log := [BitVec.allOnes 512], issue := { dev0.issue with handler := true, pc := 4096 } }
  d.setCtx 0 0 { d.ctx 0 0 with handler := some (handler0 code) }

/-- The hypotheses of HandlerReturnTakesEffectAtTheNextMillTick: action 3 in a handler of the store budget's exception, and the others in any. -/
theorem witness_handler_return : (∀ act ∈ [(0 : BitVec 3), 1, 2, 4], (devH 7).cur.present = true ∧ (devH 7).issue.handler = true ∧
      (devH 7).cur.handler = some (handler0 7) ∧ act.toNat ≤ 4 ∧ act ≠ 3) ∧
    (devH 19).cur.present = true ∧ (devH 19).issue.handler = true ∧ (devH 19).cur.handler = some (handler0 19) ∧
    recField (handler0 19).record 56 8 = 19 := by decide +kernel

/-- Whether a write of the handler meets no other. -/
def handlerFreeB (d : Device) (n : Nat) (w : RegWrite) : Bool := w.place.all (fun p => !findHandlerLanding (d.mill + n) p d.cur.hfly)

theorem handlerFree_of {d : Device} {n : Nat} {w : RegWrite} (h : handlerFreeB d n w = true) : d.handlerFree n w := by
  intro p hp
  simpa [handlerFreeB, hp] using h

/-- Whether an instruction meets the conditions of a handler's scalar result. -/
def handlerScalarMeets (d : Device) (i : Instr) : Bool :=
  d.cur.present && d.issue.handler && i.wf && handlerMay i && (scalarFields i).all (fun x => decide (x.val < 16)) &&
    (handlerScalar d i).any (fun x => handlerFreeB d x.1 (.hs (Fin.ofNat 16 x.2.1.val) x.2.2))

/-- A form of each instruction with a scalar result that a handler may issue. -/
def handlerScalarForms : List Instr := [
  .add 15 1 2, .sub 0 1 2, .and 3 1 2, .or 3 1 2, .xor 3 1 2, .andn 3 1 2, .shl 3 1 2, .shr 3 1 2, .sra 3 1 2, .rol 3 1 2, .min 3 1 2, .max 3 1 2,
  .minn 3 1 2, .maxn 3 1 2, .clz 3 1, .ctz 3 1, .popc 3 1, .sext 3 1 .b8, .zext 3 1 .b32, .sel 3 1 2 7, .mul 3 1 2, .mulh 3 1 2, .mulhn 3 1 2,
  .div 3 1 0, .divn 3 1 0, .rem 3 1 0, .remn 3 1 0, .addi 15 0 (.short 0x800), .andi 3 1 (.short 1), .ori 3 1 (.short 1), .xori 3 1 (.short 1),
  .shli 3 1 63, .shri 3 1 63, .srai 3 1 63, .movi 3 (.short 1), .lui 3 1, .addpc 3 1, .mfsr 15 0x11, .mfsr 3 0x17, .mfsr 3 0x40, .mfsr 3 0x7F, .mfsr 3 0,
  .monrd 3 1, .errpop 3 7 false]

/-- The hypotheses of HandlerScalarsLandInMillTicks. -/
theorem witness_handler_scalars : ∀ i ∈ handlerScalarForms, ∃ n r v, (devH 7).cur.present = true ∧ (devH 7).issue.handler = true ∧
    (devH 7).cur.handler = some (handler0 7) ∧ i.wf = true ∧ handlerMay i = true ∧ (∀ x ∈ scalarFields i, x.val < 16) ∧
    handlerScalar (devH 7) i = some (n, r, v) ∧ (r ≠ 0 → (devH 7).handlerFree n (.hs (Fin.ofNat 16 r.val) v)) := by
  intro i hi
  have h := List.all_eq_true.mp (by decide +kernel : handlerScalarForms.all (handlerScalarMeets (devH 7)) = true) i hi
  simp only [handlerScalarMeets, Bool.and_eq_true, Option.any_eq_true, List.all_eq_true, decide_eq_true_eq] at h
  obtain ⟨⟨⟨⟨⟨h1, h2⟩, h3⟩, h4⟩, h5⟩, ⟨n, r, v⟩, h6, h7⟩ := h
  exact ⟨n, r, v, h1, h2, by decide +kernel, h3, h4, h5, h6, fun _ => handlerFree_of h7⟩

/-- Whether an instruction meets the conditions of a handler's control flow. -/
def handlerControlMeets (d : Device) (i : Instr) : Bool :=
  i.wf && (scalarFields i).all (fun x => decide (x.val < 16)) && (handlerControl d i).any (fun x => x.1.all (handlerFreeB d 1))

/-- A form of each other instruction that a handler may issue. -/
def handlerControlForms : List Instr := [
  .nop, .cmp .ltn 7 15 0, .cmpi .ge 0 1 (.short 0x7FF), .pand 7 0 1, .por 1 7 7, .pnot 7 0, .jmp 0x7FFFFF, .br 15 0x20000, .br 0 1, .brp true 7 1,
  .brp false 0 1, .mtsr 15 4, .mtsr 1 5, .mtsr 1 6, .mtsr 1 0x0B, .mtsr 1 0x40, .mtsr 1 0x7B, .mtsr 1 0x7F]

/-- The hypotheses of HandlerPredicatesTransfersAndRegisterWrites. -/
theorem witness_handler_control : (devH 7).cur.present = true ∧ (devH 7).issue.handler = true ∧ (devH 7).cur.handler = some (handler0 7) ∧
    (∀ i ∈ handlerControlForms, i.wf = true ∧ (∀ x ∈ scalarFields i, x.val < 16) ∧
      ∃ w pc, handlerControl (devH 7) i = some (w, pc) ∧ ∀ x, w = some x → (devH 7).handlerFree 1 x) ∧
    (devH 7).log = BitVec.allOnes 512 :: [] ∧
    (devH 7).handlerFree 1 (.hs (Fin.ofNat 16 15) (dbl (recField (BitVec.allOnes 512) (64 * 7) 64))) := by
  refine ⟨by decide +kernel, by decide +kernel, by decide +kernel, fun i hi => ?_, by decide +kernel, handlerFree_of (by decide +kernel)⟩
  have h := List.all_eq_true.mp (by decide +kernel : handlerControlForms.all (handlerControlMeets (devH 7)) = true) i hi
  simp only [handlerControlMeets, Bool.and_eq_true, Option.any_eq_true, List.all_eq_true, decide_eq_true_eq] at h
  obtain ⟨⟨h1, h2⟩, ⟨w, pc⟩, h3, h4⟩ := h
  refine ⟨h1, h2, w, pc, h3, fun x hx => handlerFree_of ?_⟩
  subst hx
  simpa using h4

/-- A device whose sheet runs in address space 255. -/
def devA : Device := launch (fun x => { x with asid := 255 }) dev0

/-- The instructions of major 0x3E that a program may not issue. -/
def systemOnly : List Instr := [
  .rth 0, .ctxsw 1 0 true, .ctxst 0 0 0, .ctxld 0 0 0, .tlbinv .all 0 0, .shoot 0 .all 0 0, .monrd 1 0, .attest 0 0 0, .errpop 1 0 true, .haltc 1 0 .go]

/-- The hypotheses of PrivilegedInstructionsFaultInAProgram. -/
theorem witness_privilege : ∀ i ∈ systemOnly, (at_ devA).dev.Ready i ∧ devA.curLaunch.asid ≠ 0 ∧ ∃ m, systemMinor i = some m := by
  intro i hi
  have h := List.all_eq_true.mp (by decide +kernel : systemOnly.all (fun i => readyB devA i && (systemMinor i).isSome) = true) i hi
  simp only [Bool.and_eq_true, Option.isSome_iff_exists] at h
  exact ⟨ready_of h.1, by decide +kernel, h.2⟩

/-- An event of a program: an illegal instruction at the last slot. -/
def event0 : Ev := { code := 2, reason := 1, i0 := 0, i1 := 0, i2 := 0, i3 := 0, aux := 0, slot := 7 }

/-- A device whose address space has a handler. -/
def devV : Device := { dev0 with hvec := Assoc.set 0 dev0.hvec 0 (dbl (2 ^ 63 + 4096)) }

/-- The hypotheses of AServicedEventEntersTheHandler, of both classes. -/
theorem witness_service : (devV.launch 0).st = .active ∧ (event0.cls = 3 ∧ event0.code ≠ 19) ∧ (Assoc.get 0 devV.hvec (devV.launch 0).asid).getLsbD 63 = true ∧
    ({ event0 with code := 22 } : Ev).cls = 2 := by decide +kernel

/-- What holds of the empty context and of every one listed holds of each. -/
theorem every_ctx {p : Ctx → Prop} {d : Device} (h0 : p Ctx.empty) (h : ∀ q ∈ d.ctxs, p q.2) (l k : Nat) : p (d.ctx l k) := by
  by_cases e : Assoc.get Ctx.empty d.ctxs (ctxKey l k) = Ctx.empty
  · rw [Device.ctx, e]; exact h0
  · exact h _ (Assoc.mem_of_get_ne _ _ _ e)

/-- No context of a device has an effect in store. -/
theorem no_store {d : Device} (h : ∀ q ∈ d.ctxs, q.2.live.store.isEmpty = true) (l k : Nat) : (d.ctx l k).live.store = [] := by
  refine every_ctx (p := fun c => c.live.store = []) rfl (fun q hq => ?_) l k
  simpa using h q hq

/-- The hypotheses of AnAbortRestoresTheCheckpoint. -/
theorem witness_abort : 3 ∈ (dev0.launch 0).cores ∧ (∀ k, ∀ b ∈ (dev0.ctx 0 k).live.store, ∀ n g m, b.eff ≠ .submit n (some 0) g m) :=
  ⟨by decide +kernel, fun k b hb => by rw [no_store (by decide +kernel)] at hb; cases hb⟩

/-! ## Encoding, bundles and steps -/

/-- The hypotheses of DecodeReadsWhatEncodeWrites, for the words tested below and forms of every family. -/
theorem witness_encoding : ∀ i ∈ scalarForms ++ vectorForms ++ blockForms ++ tileForms ++ pressForms ++ drainForms ++ memoryForms ++ linkForms ++
    controlForms ++ systemForms ++ workForms ++ [.bnd, .exit, .rth 4], isSlot i = true ∧ i.wf = true := by decide +kernel

/-- An instruction with an extension. -/
def longAdd : Instr := .addi 59 0 (.long (BitVec.allOnes 43))

/-- The device whose next bundle is that instruction. -/
def devF : Device := (State.reset.withFetchWord 64 ((bundleWords longAdd).1.getD 0 0 + (bundleWords longAdd).1.getD 1 0 * 2 ^ 32)).dev

/-- The hypotheses of AnInstructionBetweenNopsIsItsBundle. -/
theorem witness_bundle : isSlot longAdd = true ∧ longAdd.wf = true ∧
    (∀ k, k < 4 → devF.fetchWord 0 0 (65536 + 4 * k) = .ok ((bundleWords longAdd).1.getD k 0)) := by
  refine ⟨by decide +kernel, by decide +kernel, ?_⟩
  have h : ∀ k ∈ List.range 4, devF.fetchWord 0 0 (65536 + 4 * k) = .ok ((bundleWords longAdd).1.getD k 0) := by decide +kernel
  exact fun k hk => h k (List.mem_range.mpr hk)

/-- The state whose next step issues an instruction. -/
def stateF (i : Instr) : State := State.reset.withFetchWord 32 (slotWord i)

/-- Whether the next step of a state issues an instruction from a bundle that its sheet tick passes. -/
def issuesB (i : Instr) : Bool :=
  let s := stateF i
  let d := s.dev
  let pc := (d.ctx 0 0).live.pc
  decide (s.agenda = [.issueBundle 0]) && decide ((d.sheaf 0).active = some 0) && d.mayIssue 0 0 &&
    decide ((d.launch 0).checked ≠ (d.launch 0).tick + 1) && decide (d.sheetCheck 0 = .pass) &&
    decide ((readWords 0 (d.launch 0).asid pc (beginTick 0 true d)).bundleAt 0 (d.launch 0).asid pc = .ok (bundleOf i)) &&
    (decide ((bundleOf i).slots.filter (fun y => !isNop y.instr) = [⟨0, i⟩]) || decide (i = .nop ∧ (bundleOf i).slots.filter (fun y => !isNop y.instr) = [])) &&
    isSlot i && !(d.fetched 0 0 true (bundleOf i) 0).mustHold i

/-- The hypotheses of StepRunsTheDecodedInstruction. -/
theorem witness_step : ∀ i ∈ [Instr.nop, .add 59 63 1, .waitt 511, .exit],
    let s := stateF i
    let d := s.dev
    let pc := (d.ctx 0 0).live.pc
    s.agenda = [.issueBundle 0] ∧ (d.sheaf 0).active = some 0 ∧ d.mayIssue 0 0 = true ∧ d.tickPasses 0 true ∧
      (readWords 0 (d.launch 0).asid pc (beginTick 0 true d)).bundleAt 0 (d.launch 0).asid pc = .ok (bundleOf i) ∧
      ((bundleOf i).slots.filter (fun y => !isNop y.instr) = [⟨0, i⟩] ∨ (i = .nop ∧ (bundleOf i).slots.filter (fun y => !isNop y.instr) = [])) ∧
      isSlot i = true ∧ (d.fetched 0 0 true (bundleOf i) 0).mustHold i = false := by
  intro i hi
  have h := List.all_eq_true.mp (by decide +kernel : [Instr.nop, .add 59 63 1, .waitt 511, .exit].all issuesB = true) i hi
  simp only [issuesB, Bool.and_eq_true, Bool.or_eq_true, Bool.not_eq_true', decide_eq_true_eq] at h
  obtain ⟨⟨⟨⟨⟨⟨⟨⟨h1, h2⟩, h3⟩, h4⟩, h5⟩, h6⟩, h7⟩, h8⟩, h9⟩ := h
  exact ⟨h1, h2, h3, by rw [Device.tickPasses, if_pos rfl]; exact ⟨h4, h5⟩, h6, h7, h8, h9⟩

/-- The hypotheses of both parts of StepTakesTheHeadOfTheAgenda. -/
theorem witness_agenda : (stateF .nop).agenda = [.issueBundle 0] ∧ (at_ dev0).agenda = [.powerOnStart] ∧ ({ at_ dev0 with agenda := [] } : State).agenda = [] := by
  decide +kernel

/-- The hypotheses of EveryStepKeepsMemoriesCanonical, of a state with bytes in its memories. -/
theorem witness_canonical : (stateF .nop).dev.memoriesWf = true ∧ ∃ t, step (stateF .nop) = .next t := by
  refine ⟨by decide +kernel, ?_⟩
  have h : goesOn (step (stateF .nop)) = true := by decide +kernel
  revert h
  generalize step (stateF .nop) = o
  cases o <;> simp [goesOn]

/-- The hypotheses of the clauses of ZeroAndTrueAreHardWired. -/
theorem witness_hard_wired : (at_ devS).dev.Ready (.add 0 1 2) ∧ (scalarRule devS (.add 0 1 2)).isSome = true ∧ (at_ devS).dev.Ready (.cmp .eq 0 1 2) ∧
    (predicateRule devS (.cmp .eq 0 1 2)).isSome = true ∧ (at_ devS).dev.Ready (.addi 59 0 (.short 0x800)) ∧
    devS.LandsFree (results 1 [.s 59 (immSext (.short 0x800))] 0 none) ∧ (at_ devS).dev.Ready (.por 7 0 0) ∧
    devS.LandsFree (results 1 [.p 7 true] 0 none) ∧ devS.issue.handler = false ∧
    (FlyOp.regs [.s 59 1, .p 7 false] 0 none).keepsHardWired ∧ (FlyOp.atomRet 59 1).keepsHardWired :=
  ⟨ready_of (by decide +kernel), by decide +kernel, ready_of (by decide +kernel), by decide +kernel, ready_of (by decide +kernel),
    lands_of (by decide +kernel), ready_of (by decide +kernel), lands_of (by decide +kernel), by decide +kernel,
    by simp [FlyOp.keepsHardWired, RegWrite.keeps], by simp [FlyOp.keepsHardWired]⟩

/-! ## The host -/

/-- A device of the host: its sheet is halted, a commit of the configuration and a change of the clock are due, nothing runs on a
timeline, and a job's record stands in device memory. -/
def devHost : Device :=
  let d := launch (fun x => { x with mode := .halt 0 }) dev0
  let d := { d with mill := 100, dbgsel := 4, hdmcfg := dbl (2 ^ 63 + 16 * 2 ^ 16), log := [BitVec.allOnes 512], logHead := 1023 }
  d.writeCells (dramMap 0x3FFFFFFC0 0 0) (BitVec.ofNat 512 (2 ^ 408 * 3 + 2 ^ 403 * 4))

/-- Offsets of registers that an 8-byte write sets. -/
def writtenOffsets : List (BitVec 26) := [
  0x300, 0x318, 0x2000, 0x3000, 0x4000, 0x41F8, 0x20000, 0x207F8, 0x21020, 0x50000, 0x53FF8, 0x80000, 0xFFFF8, 0x21008, 0x21010]

/-- The device in seed mode. -/
def devSeed : Device := { dev0 with startstat := dbl (2 ^ 62) }

/-- The hypotheses of ManagementWritesSetTheirRegisters: every register event, CFGCTL in seed mode, and the offsets whose registers have
no event of their own, each range at its ends. -/
theorem witness_management_writes :
    (devHost.started = true ∧ ∀ e ∈ ([
      .vatcfgWrite 0x00100C100C000000, .vatcfgWrite 0x00281E2828000000, .timelineWordWrite 7 524287 0, .tlctlWrite 7 (dbl (0x84000000000 + 39 * 2 ^ 17)),
      .asctlWrite 255 0 (dbl (2 ^ 63)), .asctlWrite 0 3 0, .measextWrite (dbl (2 ^ 63 + 8)), .measextWrite (dbl (2 ^ 63 + 15)), .errptrHeadWrite 0,
      .errptrHeadWrite 1023, .requeueWrite 0, .requeueWrite 511, .haltctlReq 0, .haltctlGo 0, .haltctlStep 0, .dbgdataWrite (BitVec.allOnes 64),
      .clkctlWrite 300, .clkctlWrite 1200, .cfgctlCommit 1, .cfgctlCommit (dbl (2 ^ 63 + 524288)), .shootreqWrite (dbl (2 ^ 62 + 255 * 2 ^ 54 +
      0xFFFFFFFF0000)), .shootreqWrite 0] : List Instr),
      ∃ t, registerRule devHost e = some t) ∧
    ((devSeed.started || devSeed.seedMode) = true ∧ devSeed.started = false ∧ ∃ t, devSeed.cfgctlTaken 524288 = some t) ∧
    (∀ off ∈ writtenOffsets, ∃ t, offsetRule devHost off.toNat (BitVec.allOnes 64) = some t ∨ offsetRule devHost off.toNat 0 = some t) := by
  simp only [← Option.isSome_iff_exists]
  refine ⟨by decide +kernel, by decide +kernel, fun off ho => ?_⟩
  have h := List.all_eq_true.mp (by decide +kernel : writtenOffsets.all (fun off => (offsetRule devHost off.toNat 0).isSome) = true) off ho
  obtain ⟨t, ht⟩ := Option.isSome_iff_exists.mp h
  exact ⟨t, .inr ht⟩

/-- A halt that outlasts its ream is let go, and stepped, by the host as well. -/
theorem witness_kept_halt : ([.haltctlGo 0, .haltctlStep 0] : List Instr).all (fun e =>
    [true, false].all (fun k => (registerRule (launch (fun x => { x with kept := some k }) devHost) e).isSome)) = true := by decide +kernel

/-- Offsets whose registers a started device reads. -/
def readOffsets : List (BitVec 26) := [
  0, 8, 0x100, 0x2F8, 0x300, 0x318, 0x1018, 0x1100, 0x11F8, 0x2000, 0x3000, 0x3100, 0x3178, 0x4000, 0x41F8, 0x10000, 0x11FF8, 0x20000, 0x207F8, 0x21000,
  0x21020, 0x21038, 0x21058, 0x40000, 0x43FF8, 0x50000, 0x53FF8, 0x100000, 0x100038, 0x2000000, 0x3FFFFF8]

/-- The hypotheses of the clauses of ManagementAccessesAreAnsweredOrRefused: reads of a started device and in seed mode, refused writes,
and accesses of other sizes or places. -/
theorem witness_management_accesses :
    (∀ off ∈ readOffsets, ∃ v, devHost.readRule off.toNat = some v) ∧ (∀ off ∈ ([0, 0x21038, 0x1018, 0x3FFFFF8] : List (BitVec 26)), ∃ v, devSeed.readRule off.toNat = some v) ∧
    (∀ e ∈ ([.timelineWordWrite 7 524287 (dbl (7 * 2 ^ 61)), .tlctlWrite 0 1, .asctlWrite 255 1 257, .asctlWrite 0 3 33, .measextWrite 7, .measextWrite (dbl (2 ^ 63)), .errptrHeadWrite 1,
      .errptrHeadWrite 1022, .clkctlWrite 0, .clkctlWrite 1225, .cfgctlCommit 0, .cfgctlCommit 524289, .shootreqWrite 1] : List Instr),
      ∃ p, refusalRule devHost e = some p) ∧
    (∃ p, refusalRule dev0 (.dbgdataWrite 0) = some p) ∧ (dev0.started = true ∧ dev0.seedMode = false) ∧
    ({ dev0 with store := { dev0.store with key := some 1 } } : Device).store.key.isSome = true ∧
    (dev0.vatcfgTaken 0x000F100C10000000 = none ∧ dev0.vatcfgTaken 0x00281E2829000000 = none) ∧
    ((1 : BitVec 26).toNat % 8 ≠ 0 ∧ (⟨4, none⟩ : MgmtAccess).size ≠ 8) := by
  simp only [← Option.isSome_iff_exists]
  refine ⟨fun off ho => ?_, fun off ho => ?_, by decide +kernel⟩
  · exact List.all_eq_true.mp (by decide +kernel : readOffsets.all (fun off => (devHost.readRule off.toNat).isSome) = true) off ho
  · exact List.all_eq_true.mp (by decide +kernel : ([0, 0x21038, 0x1018, 0x3FFFFF8] : List (BitVec 26)).all (fun off => (devSeed.readRule off.toNat).isSome) = true) off ho

/-- A device in seed mode whose change of the clock and commit of the configuration are due. -/
def devDue : Device := { devSeed with mill := 7, clkBusy := some (600, 7), cfgBusy := some 7, cfgLen := 1 }

/-- The hypotheses of HostActionsAreAnswered: what the host does to a started device, and what seed mode and the module's timers
answer. -/
theorem witness_host_actions :
    (∀ e ∈ ([.cxlMemWrite 0 5 0xFF, .cxlMemWrite 0x3FFFFFFF 0 0, .cxlMemRead 0, .cxlMemRead 0x3FFFFFFF, .hostMessageQueueWrite 3 7, .hostMessageQueueWrite 0 7,
      .jobPortWrite (dbl 0x3FFFFFFC0)] : List Instr), ∃ t, hostRule devHost e = some t) ∧ devHost.started = true ∧
    (∀ e ∈ ([.cxlUnsupportedRequest, .spdmRequest .algorithms, .spdmRequest (.certificate 0), .spdmRequest (.certificate 1), .spdmRequest .measurements, .spdmRequest (.report 0xFFFF 0),
      .spdmRequest .setCertificate, .spdmRequest .mutualAuth, .spdmRequest (.other []), .seedctlGenkey, .clockChangeComplete] : List Instr),
      ∃ t, moduleRule devDue e = some t) ∧
    (∃ t, moduleRule devDue .cfgCommitComplete = some t) := by
  refine ⟨?_, by decide +kernel, ?_, ?_⟩
  · simp only [← Option.isSome_iff_exists]; decide +kernel
  · simp only [← Option.isSome_iff_exists]; decide +kernel
  · have h : devDue.cfgBusy = some 7 ∧ devDue.mill = 7 := by decide +kernel
    simp only [moduleRule, h.1, h.2]
    split
    · split
      · exact ⟨_, rfl⟩
      · exact ⟨_, rfl⟩
    · omega

/-- The hypotheses of StartsEndInSeedModeOrRunTheirSteps: each event that begins a start, with no image, after three failures, and with an
image and two failures at most. -/
theorem witness_starts :
    let due : Device := { devSeed with startDue := some 0 }
    (∀ e ∈ ([.powerOnStart, .conventionalResetStart, .seedctlRetry, .startTimeout] : List Instr), ∃ d, startBy due e = some d) ∧
    (∀ e ∈ ([.powerOnStart, .conventionalResetStart] : List Instr), ∃ d t, startBy dev0 e = some d ∧ d.seedRule = some t) ∧
    (∃ t, ({ dev0 with store := { dev0.store with image := some [7], fails := 3 } } : Device).seedRule = some t) ∧
    (∃ d, startBy { dev0 with store := { dev0.store with image := some [7], fails := 2 } } .powerOnStart = some d ∧ d.store.image = some [7] ∧ d.store.fails < 3) := by
  refine ⟨?_, ?_, ?_, ?_⟩
  · simp only [← Option.isSome_iff_exists]; decide +kernel
  · intro e he
    have h : ∀ e ∈ ([.powerOnStart, .conventionalResetStart] : List Instr), ((startBy dev0 e).bind Device.seedRule).isSome = true := by decide +kernel
    have := h e he
    cases hd : startBy dev0 e with
    | none => simp [hd] at this
    | some d =>
      simp only [hd, Option.bind_some, Option.isSome_iff_exists] at this
      exact ⟨d, this.choose, rfl, this.choose_spec⟩
  · simp only [← Option.isSome_iff_exists]; decide +kernel
  · exact ⟨_, rfl, rfl, by decide +kernel⟩

/-! ## Holds, leases, commits and timelines -/

/-- A device whose sheet holds since mill tick 0 where core 0 waits for the barrier at its address 0. -/
def devHold : Device :=
  let d := (State.reset.withFetchWord 32 (slotWord (.bwait 2 false false))).dev
  launch (fun x => { x with mode := .hold 0 }) d

/-- Core 0's barrier at address 0 with one arrival awaited and none come. -/
def awaited (d : Device) : Device := { d with spad := Memory.writeBytes d.spad (spKey 0 0) (bytesOf 8 (2 ^ 32)) }

/-- A device whose first sheaf is leased, with a limit and a tick of freedom. -/
def devLease (limit free : Nat) : Device :=
  let d := launch (fun x => { x with tick := 10 }) dev0
  d.setSheaf 0 { d.sheaf 0 with lease := { Lease.init with holder := some 3, limit := limit, free := free } }

/-- A commit of sheet 0, due, of some effects. -/
def commit0 (signals : List (Nat × Effect)) : Commit :=
  { l := 0, at_ := 0, tick := 0, pending := [], signals := signals, last := false, early := false, sys := false, exits := [], due := 0, signalled := false, can := false, err := false }

/-- A device at the end of a ream, its commits given. -/
def devCommit (l : List Commit) : Device := { launch (fun x => { x with mode := .commit }) dev0 with commits := l }

/-- Effects of a signal phase, one of each kind. -/
def effects0 : List (Nat × Effect) := [
  (0, .hsig 31 7), (0, .signal 0 (spKey 0 8) 511), (0, .signal 639 0 1), (1, .ctxsw 0 false), (1, .haltc 0 .halt), (1, .haltc 3 .go), (2, .haltc 636 .gate),
  (2, .haltc 0 .gate), (2, .haltc 0 .ungate), (3, .image false 0 0 0), (3, .shoot .all 0 0 0), (3, .cancel 0)]

/-- The hypotheses of HoldsLeasesAndCommitsRunTheirPhases: a hold that ends and one that goes on, a lease at its last tick and one before
it, and each step of a commit, a halt that outlasts its ream among them. -/
theorem witness_phases :
    (sheetRule devHold (.holdEnd 0)).isSome = true ∧ (sheetRule (awaited devHold) (.holdEnd 0)).isSome = true ∧
    (devHold.waitAt 0 0 = some true ∧ (awaited devHold).waitAt 0 0 = some false) ∧
    (sheetRule (devLease 9 11) (.leaseEnd 0)).isSome = true ∧ (sheetRule (devLease 10 11) (.leaseEnd 0)).isSome = true ∧
    (commitRule (devCommit []) (.reamAdvance 0)).isSome = true ∧
    (commitRule (launch (fun x => { x with park := true }) (devCommit [])) (.reamAdvance 0)).isSome = true ∧
    ([true, false].all (fun k => (commitRule (launch (fun x => { x with kept := some k }) (devCommit [])) (.reamAdvance 0)).isSome &&
      (commitRule (launch (fun x => { x with kept := some k }) (devCommit [commit0 [(0, .haltc 0 .go)]])) (.commitSignalPhase 0)).isSome) = true) ∧
    (commitRule (devCommit [commit0 effects0]) (.commitSignalPhase 0)).isSome = true ∧
    (commitRule (devCommit [{ commit0 [] with last := true, signalled := true }]) (.commitCompletionPhase 0)).isSome = true ∧
    (commitRule (devCommit [commit0 []]) (.commitCompletionPhase 0)).isSome = true := by decide +kernel

/-- An entry of the write queue of stack 0's channel 1 for row 0 of bank 0. -/
def entry0 : WqEntry := { loc := 2 ^ 25, data := 5, mask := fullMask, stamp := 0, turns := 63 }

/-- Commits whose entries find room for one line. -/
def devEntries : Device :=
  (devCommit [{ commit0 [] with l := 1, pending := [{ entry0 with loc := 0 }] }, { commit0 [] with pending := [entry0, entry0, { entry0 with loc := 2 ^ 26 }] },
    { commit0 [] with pending := [entry0, { entry0 with loc := 0 }] }]).setQueue 0 1 (List.replicate 63 entry0)

/-- CommitEntriesEnterInOrder speaks of entries that enter and of entries that stay: of two commits of launch 0 and one of launch 1 before
them, an entry with room, one with none, one of another channel, and one behind an entry of another launch. -/
theorem witness_commit_entries : (List.range 6).map (devEntries.enters (0 : LSlot).val) = [false, true, false, true, false, false] ∧
    devEntries.waitingEntries.length = 6 := by decide +kernel

/-- A running ring of 112 positions, with some words at position 0 and the rest idle, one entry to write, and rows open. -/
def devRing (words : Assoc Dbl) : Device :=
  let d := dev0.setStack 0 { Stack.init with words := words, tlctl := dbl (0x84000000001 + 111 * 2 ^ 17), rows := [(0, some (0, none)), (64, some (0, none))] }
  (d.setQueue 0 1 [entry0]).writeCells 0 5

/-- A word of a kind. -/
def ringWord (kind : Nat) : Dbl := dbl (kind * 2 ^ 61)

/-- A ring at its 29th position, whose word drains into a closed bank. -/
def devClosed (m : BitVec 64) : Device :=
  let d := devRing [(32 * 28 + 1, ringWord 2)]
  { (d.setQueue 0 1 [{ entry0 with mask := m }]).setStack 0 { d.stack 0 with pos := 28, rows := [] } with mill := 100 }

/-- The hypotheses of TheTimelineTakesItsPositions: a position whose words read, write, refresh and open a row, one that scrubs, one not yet
come; a write of a whole line and of a part into a closed bank; an entry that has stalled and one that has not; and the web with a line and with none. -/
theorem witness_timeline :
    (timelineRule (devRing [(0, ringWord 1), (1, ringWord 2), (2, ringWord 4), (3, ringWord 5), (32 * 28 + 4, dbl (2 ^ 61 + 2 ^ 60 + 2 ^ 59))]) (.timelinePosition 0)).isSome = true ∧
    (timelineRule (devRing [(0, dbl (6 * 2 ^ 61 + 2 ^ 59 + 2 ^ 9))]) (.timelinePosition 0)).isSome = true ∧
    (timelineRule ((devRing []).setStack 0 { (devRing []).stack 0 with t0 := 1 }) (.timelinePosition 0)).isSome = true ∧
    (timelineRule (devClosed fullMask) (.timelinePosition 0)).isSome = true ∧ (timelineRule (devClosed 1) (.timelinePosition 0)).isSome = true ∧
    (timelineRule ((devRing []).setQueue 0 1 [{ entry0 with turns := 64 }]) (.drainStall 0 1)).isSome = true ∧
    (timelineRule (devRing []) (.drainStall 0 1)).isSome = true ∧ (timelineRule (devRing []) (.drainStall 7 31)).isSome = true ∧
    (timelineRule { dev0 with web := [{ stack := 7, copy := 0, line := 0, data := 1, arrive := 0 }] } (.webLineArrival 7)).isSome = true ∧
    (timelineRule { dev0 with web := [{ stack := 7, copy := 0, line := 0, data := 1, arrive := 1 }] } (.webLineArrival 7)).isSome = true := by decide +kernel

/-- The hypotheses of AnOverlongHoldAbortsItsReam: a hold of the full length, and a shorter one against a reservation. -/
theorem witness_overlong :
    (∀ d ∈ [{ devHold with mill := 2 ^ 24, vatcfg := 0x0018141614000000 },
        { (devHold.setLaunch 1 { devHold.launch 0 with st := .rsvd, mode := .parked }) with mill := 1, reservations := [1] }],
      (d.launch 0).st = .active ∧ (d.launch 0).mode = .hold 0 ∧ (d.launch 0).replaysCur < d.replayCap ∧
      (2 ^ bitField d.vatcfg.toNat 48 8 ≤ d.mill - 0 ∨ d.reservations.any (fun r => r != 0 && (d.launch r).meets (d.launch 0)) = true)) ∧
    (∀ k, ∀ b ∈ (devHold.ctx 0 k).live.store, ∀ n g m, b.eff ≠ .submit n (some 0) g m) :=
  ⟨by decide +kernel, fun k b hb => by rw [no_store (by decide +kernel)] at hb; cases hb⟩

/-! ## Landing and bundles -/

/-- An action due at sheet tick 3, its bytes captured: a line of ones at 0 and a window at 128. -/
def flight0 (op : FlyOp) : Flight := { seq := 1, due := 3, pc := 65536, issued := 2, slot := 0, op := op, buf := Memory.writeBytes (Memory.writeBytes [] 0 (List.replicate 64 0xFF)) 128 (bytesOf 24 window0.toNat) }

/-- A later one. -/
def flight1 : Flight := { flight0 .nothing with seq := 2, due := 4 }

/-- A device at sheet tick 3 where two actions of core 0 are in flight. -/
def devFly (op : FlyOp) : Device := live (fun v => { v with flights := [flight1, flight0 op] }) (launch (fun x => { x with tick := 3 }) dev0)

/-- Whether the first action is the one to land. -/
def landsOneB (op : FlyOp) : Bool :=
  let d := devFly op
  decide ((d.sheaf 0).active = some 0) && decide ((d.launch 0).st = .active ∧ (d.launch 0).mode = .run ∧ (d.launch 0).ticked = false) && (d.ctx 0 0).present &&
    ((0 :: (d.launch 0).cores).all (fun k => (d.ctx 0 k).pending.isEmpty)) && decide ((d.ctx 0 0).live.flights = [flight1] ++ flight0 op :: []) && decide ((flight0 op).due ≤ (d.launch 0).tick) &&
    decide (∀ g ∈ [flight1] ++ [], (d.launch 0).tick < g.due ∧ g.seq ≠ (flight0 op).seq)

theorem landsOne_of {op : FlyOp} (h : landsOneB op = true) : (devFly op).LandsOne (0 : CoreIx).val 0 [flight1] (flight0 op) [] := by
  simp only [landsOneB, Bool.and_eq_true, List.all_eq_true, List.isEmpty_iff, decide_eq_true_eq] at h
  obtain ⟨⟨⟨⟨⟨⟨h1, h2⟩, h3⟩, h4⟩, h5⟩, h6⟩, h7⟩ := h
  exact ⟨h1, h2, h3, fun k hk => h4 k (List.mem_cons.mpr hk), h5, h6, h7⟩

/-- A write of each kind of register of a program. -/
def landedForms : List RegWrite := [
  .s 59 1, .aAddr 15 1, .aInc 15 1, .aWrap 0 1, .p 7 false, .v 63 256 256 1, .k 7 32 32 1, .m 7 1, .tdata 15 1, .ttype 0 1 (some 255), .ttype 15 1 none, .dv 0, .cb 7 1, .lw 7 1,
  .lwBoff 0 1, .fctl 0x10, .fstat 0, .hkey 1, .mmrev 1]

/-- What completes, one of each kind: rows of six-bit elements and a packed block among the tiles. -/
def finishForms : List Finish := [
  .scalar 59 0 8, .scalar 0 0 1, .scalar 63 0 8, .vector 63 [0, 64], .gather 0 16 [0, 2], .scale 7 0, .segment 63 7, .tile 14 true [0, 64] 64 0 false,
  .tile 15 false [0, 24] 24 32 false, .tile 0 false [0] 64 0 true, .codebook 3 0, .window 7 128, .laid 63 window0 true (some 7) modesRne (some (5, false)) 0 7,
  .laid 0 window0 false none modesRne (some (2, true)) 0 0, .bufRegion true (dbl (word2 32 8 1 0 0 0)) 32 8 255 [0] 64 [] 0, .bufLaid false (dbl (word2 32 1 4 0 0 0)) 2 1 window0 (some 0) true,
  .laidFlags window0 2 0 1 false, .copyWindow 0]

/-- The hypotheses of the three clauses of AResultLandsInItsRegistersAlone: a write of each kind of register with all the flags, each load
or command that completes, and a core with nothing due. -/
theorem witness_result_lands :
    ((devFly (.regs landedForms 0x1F none)).LandsOne (0 : CoreIx).val 0 [flight1] (flight0 (.regs landedForms 0x1F none)) [] ∧
      (∀ w ∈ landedForms, w.program = true) ∧
      (landedForms.foldl Regs.landed ((devFly (.regs landedForms 0x1F none)).ctx 0 0).live.regs).trapFree 0x1F) ∧
    (∀ x ∈ finishForms, (devFly (.finish x)).LandsOne (0 : CoreIx).val 0 [flight1] (flight0 (.finish x)) [] ∧
      ∃ u ws fl, (devFly (.finish x)).finishedAs 0 0 (flight0 (.finish x)) x = some (u, ws, fl) ∧ ((devFly (.finish x)).ctx 0 0).live.regs.trapFree fl) ∧
    ((dev0.sheaf 0).active = some 0 ∧ (∀ k ∈ 0 :: (dev0.launch 0).cores, (dev0.ctx 0 k).pending = []) ∧
      (∀ f ∈ (dev0.ctx 0 0).live.flights, (dev0.launch 0).tick < f.due)) := by
  refine ⟨⟨landsOne_of (by decide +kernel), by decide +kernel, by decide +kernel⟩, fun x hx => ?_, by decide +kernel⟩
  have h := List.all_eq_true.mp (by decide +kernel : finishForms.all (fun x => landsOneB (.finish x) &&
      ((devFly (.finish x)).finishedAs 0 0 (flight0 (.finish x)) x).any (fun p => decide (((devFly (.finish x)).ctx 0 0).live.regs.trapFree p.2.2))) = true) x hx
  rw [Bool.and_eq_true, Option.any_eq_true] at h
  obtain ⟨h1, p, h2, h3⟩ := h
  exact ⟨landsOne_of h1, p.1, p.2.1, p.2.2, h2, of_decide_eq_true h3⟩

/-- The hypotheses of both clauses of AStoreLandsItsBytesAlone: a store at the end of a partition, a row of a drain with flags, a felt line with flags. -/
theorem witness_store_lands :
    (∀ op ∈ [FlyOp.store (spKey 0 0x1FFFF8) (bytesOf 8 0xFFFF), .storeFlags 0 (List.replicate 64 1) 0x1F],
      (devFly op).memoriesWf = true ∧ (devFly op).LandsOne (0 : CoreIx).val 0 [flight1] (flight0 op) [] ∧
      ∃ a l fl, storedBytes op = some (a, l, fl) ∧ ((devFly op).ctx 0 0).live.regs.trapFree fl) ∧
    (devFly (.felt 4095 7 0x1F)).memoriesWf = true ∧ (devFly (.felt 4095 7 0x1F)).LandsOne (0 : CoreIx).val 0 [flight1] (flight0 (.felt 4095 7 0x1F)) [] ∧
    ((devFly (.felt 4095 7 0x1F)).ctx 0 0).live.regs.trapFree 0x1F := by
  refine ⟨fun op h => ?_, by decide +kernel, landsOne_of (by decide +kernel), by decide +kernel⟩
  rcases List.mem_cons.mp h with rfl | h
  · exact ⟨by decide +kernel, landsOne_of (by decide +kernel), _, _, _, rfl, by decide +kernel⟩
  · obtain rfl := List.mem_singleton.mp h
    exact ⟨by decide +kernel, landsOne_of (by decide +kernel), _, _, _, rfl, by decide +kernel⟩

/-- The hypotheses of LandingOnlyAddsToTheFlags. -/
theorem witness_flags_stay : ∀ f ∈ ((devFly (.regs [.s 59 1, .v 63 0 512 0] 0x1F (some 63))).ctx 0 0).live.flights, ∀ ws fl vd, f.op = .regs ws fl vd → ∀ v, .fstat v ∉ ws := by
  intro f hf ws fl vd he v
  have h : ((devFly (.regs [.s 59 1, .v 63 0 512 0] 0x1F (some 63))).ctx 0 0).live.flights = [flight1, flight0 (.regs [.s 59 1, .v 63 0 512 0] 0x1F (some 63))] := by decide +kernel
  rw [h] at hf
  rcases List.mem_cons.mp hf with rfl | hf
  · cases he
  · obtain rfl := List.mem_singleton.mp hf
    cases he
    simp

/-- The hypothesis of ACommitReleasesItsReam. -/
theorem witness_commit : ∀ u ∈ (dev0.launch 0).units, u.2.2.1 = false := by decide +kernel

/-- Words of a bundle of four slots. -/
def slots4 (a b c : Instr) : List Nat := [slotWord a, slotWord b, slotWord c, 0x8000003F]

/-- The device whose next bundle has three instructions. -/
def devB (a b c : Instr) : Device := { (stateF .nop).dev with hostMem := Memory.writeBytes (stateF .nop).dev.hostMem 65536 ((slots4 a b c).map (bytesOf 4)).flatten }

/-- Whether a bundle of some slots meets the conditions of its issue. -/
def bundleClearB (d : Device) (ys : List Slot) (l : List (Device × Did)) : Bool :=
  d.cur.present && d.live.flights.all (fun f => decide (d.now < f.due)) && decide ((d.now + 1) % d.curLaunch.ream ≠ 0) &&
    (List.finRange 4).all (fun q => !(namedQueues (ys.map (fun y => y.instr)))[q] || !(d.cur.queues[q]).isEmpty) &&
    (inFlight l).all (fun f => (findLanding f.due f.op.places d.live.flights).isNone) &&
    decide ((inFlight l).Pairwise (fun f g => f.due = g.due → ∀ p ∈ f.op.places, ∀ q ∈ g.op.places, p.meets q = false)) &&
    (findConflict (d.bankPlans d.issue.l) ((l.flatMap (fun p => p.2.uses)).map (fun u => (0, u)))).isNone &&
    decide ((l.map (fun p => p.2.effects)).sum ≤ d.live.effects)

theorem bundleClear_of {d : Device} {ys : List Slot} {l : List (Device × Did)} (h : bundleClearB d ys l = true) : d.BundleClear ys l := by
  simp only [bundleClearB, Bool.and_eq_true, Bool.or_eq_true, Bool.not_eq_true', List.all_eq_true, decide_eq_true_eq, Option.isNone_iff_eq_none] at h
  obtain ⟨⟨⟨⟨⟨⟨⟨h1, h3⟩, h4⟩, h5⟩, h6⟩, h7⟩, h8⟩, h9⟩ := h
  refine ⟨h1, h3, h4, fun q hq => ?_, h6, h7, h8, h9⟩
  rcases h5 q (List.mem_finRange q) with h | h
  · rw [h] at hq; cases hq
  · intro e; simp [e] at h

/-- Whether the bundle that a device fetches does what its slots do. -/
def bundleMeets (asid pc : Nat) (e : Device) : Bool :=
  match e.bundleAt 0 asid pc with
  | .ok b =>
    let d := e.bundleView 0 0 b
    let ys := b.slots.filter (fun y => !isNop y.instr)
    (d.live.dueReps d.now).isEmpty && (d.slotsDo ys d.seq 0 ys).any (bundleClearB d ys)
  | .error _ => false

theorem bundleMeets_of {asid pc : Nat} {e : Device} (h : bundleMeets asid pc e = true) : ∃ b x, e.bundleAt 0 asid pc = .ok b ∧
    (e.bundleView 0 0 b).live.dueReps (e.bundleView 0 0 b).now = [] ∧
    (e.bundleView 0 0 b).slotsDo (b.slots.filter (fun y => !isNop y.instr)) (e.bundleView 0 0 b).seq 0 (b.slots.filter (fun y => !isNop y.instr)) = some x ∧
    (e.bundleView 0 0 b).BundleClear (b.slots.filter (fun y => !isNop y.instr)) x := by
  unfold bundleMeets at h
  split at h
  · rw [Bool.and_eq_true, List.isEmpty_iff, Option.any_eq_true] at h
    obtain ⟨h0, x, h1, h2⟩ := h
    exact ⟨_, x, by assumption, h0, h1, bundleClear_of h2⟩
  · cases h

/-- Three instructions that issue together: two that write, each a register that another reads, and one that loads; and a store, a signal and a comparison. -/
def bundles0 : List Device := [devB (.add 1 2 2) (.add 2 1 1) (.ldd 59 0 0), devB (.std 1 0 8) (.hsig 1 31) (.cmp .eq 7 1 2)]

/-- The hypotheses of the first clause of ABundleDoesWhatEachOfItsSlotsDoes. -/
theorem witness_bundles : ∀ d ∈ bundles0, (d.sheaf 0).active = some 0 ∧ d.mayIssue 0 0 = true ∧ d.tickPasses 0 true ∧
    let pc := (d.ctx 0 0).live.pc
    let e := readWords 0 (d.launch 0).asid pc (beginTick 0 true d)
    ∃ b x, e.bundleAt 0 (d.launch 0).asid pc = .ok b ∧
      (e.bundleView 0 0 b).live.dueReps (e.bundleView 0 0 b).now = [] ∧
      (e.bundleView 0 0 b).slotsDo (b.slots.filter (fun y => !isNop y.instr)) (e.bundleView 0 0 b).seq 0 (b.slots.filter (fun y => !isNop y.instr)) = some x ∧
      (e.bundleView 0 0 b).BundleClear (b.slots.filter (fun y => !isNop y.instr)) x := by
  intro d hd
  have h : ∀ d ∈ bundles0, ((d.sheaf 0).active = some 0 ∧ d.mayIssue 0 0 = true ∧ (d.launch 0).checked ≠ (d.launch 0).tick + 1 ∧ d.sheetCheck 0 = .pass) ∧
      bundleMeets (d.launch 0).asid (d.ctx 0 0).live.pc (readWords 0 (d.launch 0).asid (d.ctx 0 0).live.pc (beginTick 0 true d)) = true := by decide +kernel
  obtain ⟨⟨h1, h2, h3, h4⟩, h5⟩ := h d hd
  exact ⟨h1, h2, by rw [Device.tickPasses, if_pos rfl]; exact ⟨h3, h4⟩, bundleMeets_of h5⟩

/-- The hypotheses of the second clause of ABundleDoesWhatEachOfItsSlotsDoes: an early commit of core 0 over. -/
theorem witness_early_bundles : ∀ d ∈ bundles0.map (launch (fun x => { x with mode := .early 0 })),
    (d.launch 0).st = .active ∧ (d.launch 0).mode = .early 0 ∧ (d.launch 0).asked = false ∧ d.committing 0 = false ∧ d.handling 0 = false ∧
    let pc := (d.ctx 0 0).live.pc
    let e := readWords 0 (d.launch 0).asid pc (d.setLaunch 0 { d.launch 0 with mode := .run, ticked := true, issuedAt := d.mill })
    ∃ b x, e.bundleAt 0 (d.launch 0).asid pc = .ok b ∧
      (e.bundleView 0 0 b).live.dueReps (e.bundleView 0 0 b).now = [] ∧
      (e.bundleView 0 0 b).slotsDo (b.slots.filter (fun y => !isNop y.instr)) (e.bundleView 0 0 b).seq 0 (b.slots.filter (fun y => !isNop y.instr)) = some x ∧
      (e.bundleView 0 0 b).BundleClear (b.slots.filter (fun y => !isNop y.instr)) x := by
  intro d hd
  have h : ∀ d ∈ bundles0.map (launch (fun x => { x with mode := .early 0 })),
      ((d.launch 0).st = .active ∧ (d.launch 0).mode = .early 0 ∧ (d.launch 0).asked = false ∧ d.committing 0 = false ∧ d.handling 0 = false) ∧
      bundleMeets (d.launch 0).asid (d.ctx 0 0).live.pc (readWords 0 (d.launch 0).asid (d.ctx 0 0).live.pc
        (d.setLaunch 0 { d.launch 0 with mode := .run, ticked := true, issuedAt := d.mill })) = true := by decide +kernel
  obtain ⟨⟨h1, h2, h3, h4, h5⟩, h6⟩ := h d hd
  exact ⟨h1, h2, h3, h4, h5, bundleMeets_of h6⟩

/-- A repeat whose first reissue is due at sheet tick 3, at the end of its accumulator field. -/
def rep0 (i : Instr) : Rep := { cmd := i, pc := 65536, slot := 0, issued := 2, done := 0, cnt := 1, per := 1, tstep := 0, astep := 1, dlines := 0 }

/-- A device with that repeat, whose core 0 holds the lease. -/
def repeating (r : Rep) (next : Nat) (d : Device) : Device :=
  let d := launch (fun x => { x with tick := 3 }) (live (fun v => { v with reps := [r], next := next }) d)
  { d.setSheaf 0 { d.sheaf 0 with lease := { (d.sheaf 0).lease with holder := some 0, limit := 1000, cmds := 1 } } with
    accType := [(126, dbl (resultWord 8 4)), (127, dbl (resultWord 8 4))] }

/-- Commands to repeat: a clear, and a drain into the felt. -/
def repForms : List Instr := [.pclr 126,
  .pdrn 126 false 0 1 { dest := 4095, ofmt := 0, rnd := .fctl, sat := .fctl, mx := false, pk := false, res := 0 }]

/-- The hypotheses of the first clause of ARepeatedCommandIssuesAgain: a repeat in an empty tick. -/
theorem witness_repeat : ∀ i ∈ repForms, let r := rep0 i
    let s := repeating r 4 dev0
    let c := s.ctx 0 0
    (s.sheaf 0).active = some 0 ∧ (s.launch 0).st = .active ∧ (s.launch 0).mode = .run ∧ c.present = true ∧ c.live.exited = false ∧
    c.live.next ≠ (s.launch 0).tick ∧ c.live.dueReps (s.launch 0).tick = [r] ∧ (∀ f ∈ c.live.flights, (s.launch 0).tick < f.due) ∧
    let i := r.command (r.done + 1)
    let d := s.reissueView 0 0 r
    d.queuesReady i = true ∧ ∃ now x, repeatRule d (d.opened i) i = some (now, x) ∧ d.Clear (d.reissued i x) := by
  intro i hi
  have h : ∀ i ∈ repForms, let r := rep0 i
      let s := repeating r 4 dev0
      let c := s.ctx 0 0
      ((s.sheaf 0).active = some 0 ∧ (s.launch 0).st = .active ∧ (s.launch 0).mode = .run ∧ c.present = true ∧ c.live.exited = false ∧
      c.live.next ≠ (s.launch 0).tick ∧ c.live.dueReps (s.launch 0).tick = [r] ∧ (∀ f ∈ c.live.flights, (s.launch 0).tick < f.due) ∧
      (s.reissueView 0 0 r).queuesReady (r.command (r.done + 1)) = true) ∧
      (repeatRule (s.reissueView 0 0 r) ((s.reissueView 0 0 r).opened (r.command (r.done + 1))) (r.command (r.done + 1))).any (fun p =>
        clearB (s.reissueView 0 0 r) ((s.reissueView 0 0 r).reissued (r.command (r.done + 1)) p.2)) = true := by decide +kernel
  obtain ⟨⟨h1, h2, h3, h4, h5, h6, h7, h8, h9⟩, h10⟩ := h i hi
  obtain ⟨p, h11, h12⟩ := (Option.any_eq_true _ _).mp h10
  exact ⟨h1, h2, h3, h4, h5, h6, h7, h8, h9, p.1, p.2, h11, clear_of h12⟩

/-- Whether a repeat due with the bundle that a device fetches meets its conditions. -/
def besideMeets (asid pc : Nat) (r : Rep) (e : Device) : Bool :=
  match e.bundleAt 0 asid pc with
  | .ok b =>
    let d := e.bundleView 0 0 b
    let ys := b.slots.filter (fun y => !isNop y.instr)
    let i := r.command (r.done + 1)
    besideReissue ys && decide (d.live.dueReps d.now = [r]) && (d.slotsDo ys d.seq 0 ys).any (fun x =>
      let w := d.besideView r x
      (repeatRule w (w.besideOpened ys i) i).any (fun p =>
        p.2.press.all (fun r => (w.pressPlans w.issue.l (w.issue.core / 4)).all (fun q => !pressMeets r q)) &&
          bundleClearB d (ys ++ [⟨r.slot, i⟩]) (x ++ [(w, w.reissued i p.2)])))
  | .error _ => false

/-- Bundles that go beside a repeat: none but NOPs, and two additions with a load. -/
def bundles1 : List Device := [devB .nop .nop .nop, devB (.add 1 2 2) (.add 2 1 1) (.ldd 59 0 0)]

/-- The hypotheses of the second clause of ARepeatedCommandIssuesAgain: a repeat beside a bundle. -/
theorem witness_repeat_beside : ∀ d ∈ bundles1.flatMap (fun d => repForms.map (fun i => (rep0 i, repeating (rep0 i) 3 d))), let s := d.2
    (s.sheaf 0).active = some 0 ∧ s.mayIssue 0 0 = true ∧ s.tickPasses 0 true ∧
    let pc := (s.ctx 0 0).live.pc
    let e := readWords 0 (s.launch 0).asid pc (beginTick 0 true s)
    ∃ b, e.bundleAt 0 (s.launch 0).asid pc = .ok b ∧
    let ys := b.slots.filter (fun y => !isNop y.instr)
    let f := e.bundleView 0 0 b
    let i := d.1.command (d.1.done + 1)
    besideReissue ys = true ∧ f.live.dueReps f.now = [d.1] ∧ ∃ x, f.slotsDo ys f.seq 0 ys = some x ∧
    let w := f.besideView d.1 x
    ∃ now z, repeatRule w (w.besideOpened ys i) i = some (now, z) ∧ w.PressFree z.press ∧
      f.BundleClear (ys ++ [⟨d.1.slot, i⟩]) (x ++ [(w, w.reissued i z)]) := by
  intro d hd s
  have h : ∀ d ∈ bundles1.flatMap (fun d => repForms.map (fun i => (rep0 i, repeating (rep0 i) 3 d))),
      ((d.2.sheaf 0).active = some 0 ∧ d.2.mayIssue 0 0 = true ∧ (d.2.launch 0).checked ≠ (d.2.launch 0).tick + 1 ∧ d.2.sheetCheck 0 = .pass) ∧
      besideMeets (d.2.launch 0).asid (d.2.ctx 0 0).live.pc d.1 (readWords 0 (d.2.launch 0).asid (d.2.ctx 0 0).live.pc (beginTick 0 true d.2)) = true := by
    decide +kernel
  obtain ⟨⟨h1, h2, h3, h4⟩, h5⟩ := h d hd
  refine ⟨h1, h2, by rw [Device.tickPasses, if_pos rfl]; exact ⟨h3, h4⟩, ?_⟩
  unfold besideMeets at h5
  split at h5
  · rename_i b hb
    simp only [Bool.and_eq_true, decide_eq_true_eq, Option.any_eq_true] at h5
    obtain ⟨⟨h6, h7⟩, x, h8, p, h9, h10, h11⟩ := h5
    exact ⟨b, hb, h6, h7, x, h8, p.1, p.2, h9, by simpa [Device.PressFree, List.all_eq_true] using h10, bundleClear_of h11⟩
  · cases h5

/-- A device whose core 0 runs a handler at a bundle of one instruction. -/
def devG (i : Instr) : Device :=
  let d := (stateF i).dev
  d.setCtx 0 0 { d.ctx 0 0 with handler := some { handler0 7 with pc := 65536 } }

/-- Whether the handler's next bundle is of one instruction that meets the conditions of its control flow. -/
def handlerBundleB (i : Instr) : Bool :=
  let s := devG i
  let e := readWords 0 (s.launch 0).asid 65536 s
  match e.bundleAt 0 (s.launch 0).asid 65536 with
  | .ok b =>
    (decide (b.slots.filter (fun y => !isNop y.instr) = [⟨0, i⟩]) || decide (i = .nop ∧ b.slots.filter (fun y => !isNop y.instr) = [])) && isSlot i && i.wf &&
      handlerControlMeets (e.handlerView 0 0 65536 b 0) i
  | .error _ => false

/-- The hypotheses of TheHandlerIssuesItsBundles. -/
theorem witness_handler_bundles : ∀ i ∈ [Instr.nop, .cmp .eq 7 1 2, .jmp 0x7FFFFF, .mtsr 15 4],
    let s := devG i
    (s.sheaf 0).active = some 0 ∧ (s.ctx 0 0).present = true ∧ (s.ctx 0 0).handler = some { handler0 7 with pc := 65536 } ∧
    let e := readWords 0 (s.launch 0).asid 65536 s
    ∃ b, e.bundleAt 0 (s.launch 0).asid 65536 = .ok b ∧
      (b.slots.filter (fun y => !isNop y.instr) = [⟨0, i⟩] ∨ (i = .nop ∧ b.slots.filter (fun y => !isNop y.instr) = [])) ∧ isSlot i = true ∧ i.wf = true ∧
      (∀ x ∈ scalarFields i, x.val < 16) ∧ ∃ w pc, handlerControl (e.handlerView 0 0 65536 b 0) i = some (w, pc) ∧ ∀ x, w = some x → (e.handlerView 0 0 65536 b 0).handlerFree 1 x := by
  intro i hi
  have h0 : ∀ i ∈ [Instr.nop, .cmp .eq 7 1 2, .jmp 0x7FFFFF, .mtsr 15 4], ((devG i).sheaf 0).active = some 0 ∧ ((devG i).ctx 0 0).present = true ∧
      ((devG i).ctx 0 0).handler = some { handler0 7 with pc := 65536 } := by decide +kernel
  have h : handlerBundleB i = true := List.all_eq_true.mp (by decide +kernel : [Instr.nop, .cmp .eq 7 1 2, .jmp 0x7FFFFF, .mtsr 15 4].all handlerBundleB = true) i hi
  refine ⟨(h0 i hi).1, (h0 i hi).2.1, (h0 i hi).2.2, ?_⟩
  unfold handlerBundleB at h
  simp only at h
  split at h
  · rename_i b hb
    simp only [handlerControlMeets, Bool.and_eq_true, Bool.or_eq_true, Option.any_eq_true, List.all_eq_true, decide_eq_true_eq] at h
    obtain ⟨⟨⟨h1, h2⟩, h3⟩, ⟨_, h4⟩, ⟨w, pc⟩, h5, h6⟩ := h
    refine ⟨b, hb, h1, h2, h3, h4, w, pc, h5, fun x hx => handlerFree_of ?_⟩
    subst hx
    simpa using h6
  · cases h

/-- The hypotheses of both clauses of ABundleThatMustWaitHoldsItsSheet. -/
theorem witness_wait : let d := awaited (launch (fun x => { x with mode := .run }) devHold)
    ((d.sheaf 0).active = some 0 ∧ d.mayIssue 0 0 = true ∧ (d.launch 0).checked ≠ (d.launch 0).tick + 1 ∧ d.sheetCheck 0 = .hold) ∧
    (devHold.sheaf 0).active = some 0 ∧ devHold.mayIssue 0 0 = false := by decide +kernel

/-! ## The untimed engines and the wove -/

/-- An untimed copy of 8 by 2 FP32 elements within core 0's scratchpad that has one line left, with the lines it has read. -/
def ucopy0 (todo : List (Nat × Nat)) (got : List (Nat × Line)) : UCopy :=
  let c : CopySpec := { record := BitVec.ofNat 512 (ofBytes (copyRecord [(298, 1)])), src := spKey 0 65536, dst := spKey 0 131072, dataAt := spKey 0 131072, pitch := 2, scaleAt := 0, typ := 0 }
  { key := 0, asid := 0, started := true, stopped := false, issued := 0, spec := c, todo := todo, srcPages := [], dstPages := [], got := got, srcCtx := none, dstCtx := none,
    bar := spKey 0 0x1FFFF8, due := 0, failed := false, gone := false, header := none }

/-- A signal of a value with a report before it. -/
def signal0 : Signal := { key := 0, at_ := spKey 0 0x1FFFF8, v := 511, due := 0, data := [(spKey 0 64, bytesOf 8 1)], header := some (spKey 0 128, 7), note := some (0, 0, 7) }

/-- An all-reduce of two members whose contributions are there by mill tick 5, or that has lost one. -/
def fred0 (due : Nat) (lost : Bool) : Fred :=
  { key := 0, asid := 0, at_ := spKey 0 64, bits := BitVec.ofNat 256 (fields [(0, 4096), (32, 8192), (64, 0x1FFFF8), (96, 64)]), group := 0, k := 0, members := [7, 9], arrived := [],
    left := 0, due := due, lost := lost }

/-- A contribution of module 9 to another's all-reduce, its hops given. -/
def contribution (dest : BitVec 16) (hops : Nat) : FredFrame := { dest := dest, src := 9, ptag := 0, hops := hops, group := 0, k := 0, bytes := 64, op := 0, fmt := 0, data := 0 }

/-- An engine's command for one window. -/
def vtCmd0 : VtCmd := { key := 0, lw := window0, res := 64, bar := 0x1FFFF8, tgt := 4096, accepted := 0, got := [] }

/-- A device at mill tick 2^24 with work of every engine. -/
def devU : Device :=
  let d := { devI with mill := 2 ^ 24, vatcfg := 0x0018141614000000 }
  let d := { d with
    signals := [(0, some signal0), (1, some { signal0 with due := 2 ^ 24 + 1 }), (2, some { signal0 with key := 639 })]
    ucopies := [(0, some (ucopy0 [(0, spKey 0 131072)] [])), (1, some (ucopy0 [(0, spKey 0 131072)] [(spKey 0 65536, 5)])), (2, some { ucopy0 [] [] with stopped := true }),
      (3, some (ucopy0 [] [])), (4, some { ucopy0 [] [] with header := some (spKey 0 128) }), (5, some { ucopy0 [] [] with failed := true })] }
  { d with
    vtQueues := [(0, [vtCmd0])]
    vtBusy := [(1, some { cmd := vtCmd0, done := 2 ^ 24, bytes := [1, 2], result := 3 }), (2, some { cmd := { vtCmd0 with key := 639 }, done := 0, bytes := [], result := 0 })]
    freds := [(0, some (fred0 5 false)), (1, some (fred0 0 true)), (2, some (fred0 0 false))]
    held := [(0, some { f := contribution 7 0, asid := 0, at_ := 0 })]
    queueWaits := [{ link := some 3, key := 0, q := 0, v := 1 }] }

/-- The hypothesis of the first clause of UntimedEnginesAndTheWoveTakeTheirSteps, of every engine. -/
theorem witness_engines : ∀ e ∈ ([.barrierSignalDelivery 0, .barrierSignalDelivery 1, .barrierSignalDelivery 2, .untimedCopyLine 0, .untimedCopyLine 1, .untimedCopyLine 2,
    .untimedCopyComplete 3, .untimedCopyComplete 4, .untimedCopyComplete 5, .vtencService 0, .vtencService 7, .vtencComplete 1, .vtencComplete 2, .queueEntryEnter 0 0,
    .queueEntryEnter 639 3, .fredComplete 0, .fredComplete 1, .fredComplete 2, .fredTimeout 2, .fredTimeout 0, .fredHeldExpiry 0] : List Instr),
    ∃ t, engineRule devU e = some t := by
  simp only [← Option.isSome_iff_exists]
  decide +kernel

/-- An untimed copy with 1,024 requests of its core's engine outstanding before it (R19). -/
theorem witness_outstanding : let d := { devU with ucopies := (rangeFrom 0 1025).map (fun n => (n, some (ucopy0 [(0, spKey 0 131072)] []))) }
    d.outstanding 0 1024 = 1024 ∧ (engineRule d (.untimedCopyLine 1024)).isSome = true := by decide +kernel

/-- A frame of module 9 for a window, its hops given. -/
def frame0 (dest : BitVec 16) (win : BitVec 8) (hops : Nat) : WoveFrame := { dest := dest, src := 9, ptag := 0, hops := hops, win := win, typ := dbl (word2 128 1 1 0 0 0), rows := [0] }

/-- An access of module 9 to an export. -/
def access0 (dest : BitVec 16) (hops : Nat) (w : Option (Line × BitVec 64)) : PeerReq := { dest := dest, src := 9, ptag := 0, hops := hops, entry := 0, offset := 0, write := w }

/-- A window for module 9's frames at 0x200000 and an export of one page at 0x300000, as the cells hold their lines and check symbols (R278). -/
def peerTables : Memory := [
  (1140850688, 2), (1140850694, 9), (1140850700, 248), (1140850701, 255), (1140850702, 31), (1140850708, 64), (1140850712, 2), (1140850713, 18), (1140850716, 1),
  (1140850752, 161), (1140850753, 163), (1140850754, 82), (1140850755, 18), (1711276032, 1), (1711276040, 64), (1711276044, 9), (1711276047, 224), (1711276096, 113),
  (1711276097, 44), (1711276098, 184), (1711276099, 77)]

/-- A device of module 7 with those tables, a route to module 9, and a region for the frames. -/
def devO : Device :=
  { dev0 with
    dram := peerTables, woveid := 7, wovectl := Vector.replicate 16 (dbl (2 ^ 63)), route := [(0, dbl (2 ^ 63 + 9))],
    asctl := [(0, dbl (2 ^ 63)), (1, dbl 0x200001), (3, dbl 0x300001)], spad := Memory.writeBytes [] 64 (header (word2 128 1 1 0 0 0) 4 4096) }

/-- What an arrival over a link leaves is stated, whichever way the link's error falls, where it is for this module or for another. -/
theorem arrival_some {c : Bool} {p : Prop} [Decidable p] {a b : Device} {o : Option Device} (h : p → ∃ t, o = some t) :
    ∃ t, (if c = true then some a else if p then o else some b) = some t := by
  split
  · exact ⟨_, rfl⟩
  · split
    · exact h (by assumption)
    · exact ⟨_, rfl⟩

/-- The hypotheses of the second clause of UntimedEnginesAndTheWoveTakeTheirSteps: contributions, frames and accesses for this module, for
another and at their last hop, over a link that is up and one that is down, and links that come up and go down. -/
theorem witness_wove : devO.started = true ∧
    (∀ a ∈ [contribution 7 0, contribution 9 14, contribution 9 15], ∃ t, woveRule devO (.fredContributionArrival ⟨15, a⟩) = some t) ∧
    (∀ a ∈ [frame0 7 0 0, frame0 7 1 0, frame0 9 0 14, frame0 9 0 15], ∃ t, woveRule devO (.woveFrameReceive ⟨15, a⟩) = some t) ∧
    (∀ a ∈ [access0 7 0 none, access0 7 0 (some (3, fullMask)), access0 9 14 none, access0 9 15 none], ∃ t, woveRule devO (.peerAccessRequest ⟨15, a⟩) = some t) ∧
    (∃ t, woveRule dev0 (.woveFrameReceive ⟨0, frame0 7 0 0⟩) = some t) ∧
    (∀ l : Fin 16, (∃ t, woveRule devO (.woveLinkUp l) = some t) ∧ ∃ t, woveRule devO (.woveLinkDown l) = some t) := by
  have up : devO.linkUp (15 : Fin 16).val = true := by decide +kernel
  refine ⟨by decide +kernel, fun a ha => ?_, fun a ha => ?_, fun a ha => ?_, ?_, fun l => ⟨⟨_, rfl⟩, _, rfl⟩⟩
  · simp only [woveRule, up]
    exact arrival_some fun _ => ⟨_, rfl⟩
  · simp only [woveRule, up]
    refine arrival_some fun hd => ?_
    have h : ∀ a ∈ [frame0 7 0 0, frame0 7 1 0, frame0 9 0 14, frame0 9 0 15], a.dest.toNat = bitField devO.woveid.toNat 0 16 →
        (({ devO with fresh := devO.fresh + 1 } : Device).framed 15 a).isSome = true := by decide +kernel
    exact Option.isSome_iff_exists.mp (h a ha hd)
  · simp only [woveRule, up]
    refine arrival_some fun hd => ?_
    have h : ∀ a ∈ [access0 7 0 none, access0 7 0 (some (3, fullMask)), access0 9 14 none, access0 9 15 none], a.dest.toNat = bitField devO.woveid.toNat 0 16 →
        (({ devO with fresh := devO.fresh + 1 } : Device).accessed a).isSome = true := by decide +kernel
    exact Option.isSome_iff_exists.mp (h a ha hd)
  · have h : (woveRule dev0 (.woveFrameReceive ⟨0, frame0 7 0 0⟩)).isSome = true := by decide +kernel
    exact Option.isSome_iff_exists.mp h

/-- A frame behind one of its link that waits for its bank (R202, R347). -/
def devO' : Device := { devO with framesHeld := [{ link := 15, key := 0, gen := 0, window := 0, frame := frame0 7 0 0 }] }

theorem witness_frame_held : ∃ t, woveRule devO' (.woveFrameReceive ⟨15, frame0 7 0 0⟩) = some t := by
  have up : devO'.linkUp (15 : Fin 16).val = true := by decide +kernel
  simp only [woveRule, up]
  refine arrival_some fun _ => ?_
  have h : (({ devO' with fresh := devO'.fresh + 1 } : Device).framed 15 (frame0 7 0 0)).isSome = true := by decide +kernel
  exact Option.isSome_iff_exists.mp h

/-! ## The vat and its services -/

/-- The record of a launch of a quarter of one sheaf's storage: its code addresses at 4096 and its arguments at 8192. -/
def record0 (sheaf : Nat) : BitVec 512 := BitVec.ofNat 512 (fields [(247, 32), (255, 8), (262, 2), (288, 1), (296, sheaf), (416, 8192), (464, 4096)])

/-- A launch in a state. -/
def launch0 (st : LState) (sheaf : Nat) : Launch :=
  { placedLaunch with st := st, mode := .parked, record := record0 sheaf, seats := if st = .ready ∨ st = .out ∨ st = .rsvd then [] else [{ sheaf := sheaf, slotNo := 0, spBase := 0, accBase := 0 }] }

/-- The tables of address space 0, as the cells hold each line and its four check symbols (R278): pointers at 0 and 0x2000, and at 0x4000 the
leaf of the first 2 MiB, at 0x200000 of device memory, and of a page marked to migrate after it; then code addresses. -/
def tables : Memory := [
  (1, 32), (7, 128), (64, 236), (65, 243), (66, 161), (67, 30), (273, 64), (279, 128), (336, 34), (337, 18), (338, 247), (339, 7), (546, 32), (550, 14), (551, 224),
  (562, 64), (566, 14), (567, 208), (608, 179), (609, 160), (610, 108), (611, 47), (1140850826, 1), (1140850833, 16), (1140850888, 255), (1140850889, 39),
  (1140850890, 78), (1140850891, 135)]

/-- Launches of every state but one: on a sheaf of its own each of 1 to 5, on sheaf 5 one that is out and three residents. -/
def launches0 (x9 : Launch) : Assoc Launch := [
  (0, placedLaunch), (1, launch0 .ready 1), (2, launch0 .shadow 2), (3, launch0 .ready 0), (4, { launch0 .active 3 with switchAt := 2 ^ 24 }),
  (5, { launch0 .active 4 with switchAt := 2 ^ 24 + 1 }), (6, launch0 .out 5), (7, { launch0 .shadow 5 with since := 2 ^ 24 }),
  (8, { launch0 .shadow 5 with since := 2 ^ 24, seats := [{ sheaf := 5, slotNo := 1, spBase := 2 ^ 19, accBase := 32 }] }), (9, x9)]

/-- A device with those launches. -/
def devLaunches (x9 : Launch) : Device := { dev0 with dram := tables, mill := 2 ^ 24, vatcfg := 0x0018141614000000, launches := launches0 x9 }

/-- A device with a sheet in each state. -/
def devK : Device := devLaunches { launch0 .shadow 5 with since := 2 ^ 24, seats := [{ sheaf := 5, slotNo := 2, spBase := 2 ^ 20, accBase := 64 }] }

/-- Requests of a shoot-down of every entry. -/
def shoot0 : Shoot := { scope := .all, asid := 0, page := 0, bar := none }

/-- A migration of some pages. -/
def migr0 (va left stage : Nat) : Migr := { key := 0, asid := 0, at_ := spKey 0 4096, va := va, left := left, deadline := 0, bar := spKey 0 0x1FFFF8, status := 0, due := 0, stage := stage }

/-- A context image command of a launch. -/
def image0 (l : Nat) (banks : Option (List Nat)) : Image := { load := false, key := 0, asid := 0, l := l, va := 0, at_ := spKey 0 64, due := 2 ^ 24, banks := banks, status := 0 }

/-- A device with a shoot-down, migrations and image commands under way. -/
def devZ : Device :=
  let d := { devLaunches { launch0 .shadow 5 with streaming := .leaving } with shootNow := some { req := shoot0, waiting := [0, 639] } }
  let d := { d with migrs := [(0, some (migr0 0 1 0)), (1, some (migr0 (2 ^ 47) 2 0)), (3, some (migr0 0 0 0))] }
  { d with images := [(0, some (image0 0 none)), (1, some (image0 9 none)), (2, some (image0 2 (some []))), (3, some { image0 2 none with due := 2 ^ 24 + 1 })] }

/-- The hypotheses of the clauses of TheVatAndItsServicesTakeTheirSteps. -/
theorem witness_vat :
    (∀ e ∈ ([.vatReservation 1, .vatReservation 0, .vatSwitchActive 4, .vatSwitchActive 5, .vatSwitchActive 0, .vatPlacement 3, .vatPlacement 6, .vatPlacement 0,
      .contextStreamComplete 2, .contextStreamComplete 0] : List Instr), ∃ t, vatRule devK e = some t) ∧
    (∃ t, vatRule (devLaunches { launch0 .shadow 5 with streaming := .leaving, seats := [{ sheaf := 5, slotNo := 2, spBase := 2 ^ 20, accBase := 64 }] }) (.vatPlacement 6) = some t) ∧
    (∀ e ∈ ([.shootdownAck 0, .shootdownAck 639, .shootdownAck 1, .migrPage 0, .migrPage 1, .migrPage 3, .migrComplete 3, .migrComplete 0,
      .ctxImageComplete 0, .ctxImageComplete 1, .ctxImageComplete 2, .ctxImageComplete 3] : List Instr), ∃ t, serviceRule devZ e = some t) ∧
    devK.canAdmit = false := by
  refine ⟨?_, ?_, ?_, by decide +kernel⟩
  · exact fun e he => Option.isSome_iff_exists.mp (List.all_eq_true (p := fun e => (vatRule devK e).isSome).mp (by decide +kernel) e he)
  · exact Option.isSome_iff_exists.mp (by decide +kernel)
  · exact fun e he => Option.isSome_iff_exists.mp (List.all_eq_true (p := fun e => (serviceRule devZ e).isSome).mp (by decide +kernel) e he)

/-- The hypothesis of the migration clause of TheVatAndItsServicesTakeTheirSteps is met at every stage of a page, its copy among them. -/
theorem witness_migration (d : Device) (n : Nat) (m : Migr) (h : Assoc.get none d.migrs n = some m) : ∃ t, serviceRule d (.migrPage n) = some t := by
  simp only [serviceRule, h, Option.bind_some]
  repeat' split
  all_goals exact ⟨_, rfl⟩

/-- A halt that has been kept goes on where the sheet switches. -/
theorem witness_kept_switch : [true, false].all (fun k =>
    (vatRule (devLaunches { launch0 .active 3 with switchAt := 2 ^ 24, kept := some k }) (.vatSwitchActive 9)).isSome) = true := by decide +kernel

/-- The hypotheses of AShootdownLeavesNoEntryInForce. -/
theorem witness_shootdown : let d := { devK with shootQ := [shoot0, { shoot0 with scope := .page }] }
    d.shootNow = none ∧ d.shootQ = shoot0 :: [{ shoot0 with scope := .page }] ∧ (∀ e ∈ d.tlb 0, e.within .all 0 0 = true) ∧ d.tlb 0 ≠ [] := by decide +kernel

/-- The hypotheses of AnActivationTakesItsSheavesClean: a sheet that takes another's sheaf, and one that goes on on its own. -/
theorem witness_activation :
    ((devK.launch 2).st = .shadow ∧ devK.mayActivate 2 = true ∧ (devK.launch 2).leases.length = (devK.launch 2).sheaves.length ∧
      ∀ g ∈ (devK.launch 2).sheaves, (devK.sheaf g).active ≠ some (2 : LSlot).val ∨ (devK.launch 2).turn = false) ∧
    (let d := (devK.setSheaf 2 { devK.sheaf 2 with active := some 2 }).setLaunch 2 { devK.launch 2 with turn := true };
      (d.launch 2).st = .shadow ∧ d.mayActivate 2 = true ∧ (d.launch 2).leases.length = (d.launch 2).sheaves.length ∧ 2 ∈ (d.launch 2).sheaves ∧
      (d.sheaf 2).active = some (2 : LSlot).val ∧ (d.launch 2).turn = true) := by decide +kernel

/-- The hypotheses of the three clauses of AStreamedSheetLeavesAndReturns. -/
theorem witness_streams :
    (∀ m ∈ [Streaming.leaving, .saving [], .loading []], let d := devLaunches { launch0 .shadow 5 with streaming := m, switchAt := 2 ^ 24 }
      (d.launch 9).st = .shadow ∧ (d.launch 9).switchAt ≤ d.mill ∧ (d.launch 9).streaming = m) ∧ devK.bulk.any (fun p => p.1 == 2 * 9) = false := by decide +kernel

/-- A read that finds every line, with what it leaves. -/
theorem read_of {asid va n : Nat} {d : Device} (h : (vatRead asid va n d).1.isSome = true) : ∃ u, vatRead asid va n d = (some u, (vatRead asid va n d).2) := by
  obtain ⟨u, hu⟩ := Option.isSome_iff_exists.mp h
  exact ⟨u, by rw [← hu]⟩

/-- Whether a launch meets the hypotheses of APlacedLaunchStartsItsCores. -/
def placedB (d : Device) (l : Nat) : Bool :=
  let x := d.launch l
  let read := fun (lo n : Nat) (e : Device) => if x.field lo 48 = 0 then ((some [] : Option (List Byte)), e) else vatRead x.asid (x.field lo 48) n e
  decide (x.st = .ready ∨ x.st = .rsvd) && decide (d.placeable l x.sheaves = some []) && d.asEnabled x.asid &&
    match vatRead x.asid (x.field 464 48) (8 * x.ncores) d with
    | (none, _) => false
    | (some _, d1) =>
      match read 416 64 d1 with
      | (none, _) => false
      | (some _, d2) =>
        match read 199 (64 * x.ncores) d2 with
        | (none, _) => false
        | (some table, d3) =>
          table.all (· == 0) &&
            ((noteTable (d3.asWindows x.asid).1 (32 * (d3.asWindows x.asid).2) d3).launchWindows x.asid).isSome

theorem ofBytes_zeros : ∀ {l : List Byte}, (∀ b ∈ l, b = 0) → ofBytes l = 0
  | [], _ => rfl
  | b :: l, h => by
    have h1 := ofBytes_zeros (l := l) fun c hc => h c (List.mem_cons_of_mem _ hc)
    rw [ofBytes, h1, h b List.mem_cons_self]
    rfl

theorem placed_of {d : Device} {l : Nat} (h : placedB d l = true) : let x := d.launch l
    let read := fun (lo n : Nat) (e : Device) => if x.field lo 48 = 0 then ((some [] : Option (List Byte)), e) else vatRead x.asid (x.field lo 48) n e
    (x.st = .ready ∨ x.st = .rsvd) ∧ d.placeable l x.sheaves = some [] ∧ d.asEnabled x.asid = true ∧ ∃ utab args table d1 d2 d3 ws,
      vatRead x.asid (x.field 464 48) (8 * x.ncores) d = (some utab, d1) ∧ read 416 64 d1 = (some args, d2) ∧ read 199 (64 * x.ncores) d2 = (some table, d3) ∧
      (∀ u j, u < x.ncores → j < 16 → wordObeys j (tableWord table u j)) ∧
      (noteTable (d3.asWindows x.asid).1 (32 * (d3.asWindows x.asid).2) d3).launchWindows x.asid = some ws := by
  intro x read
  unfold placedB at h
  simp only [Bool.and_eq_true, decide_eq_true_eq] at h
  obtain ⟨⟨⟨h1, h2⟩, h3⟩, h4⟩ := h
  refine ⟨h1, h2, h3, ?_⟩
  split at h4
  · cases h4
  · rename_i utab d1 hu
    split at h4
    · cases h4
    · rename_i args d2 ha
      split at h4
      · cases h4
      · rename_i table d3 ht
        simp only [Bool.and_eq_true, List.all_eq_true, beq_iff_eq] at h4
        obtain ⟨ws, hw⟩ := Option.isSome_iff_exists.mp h4.2
        exact ⟨utab, args, table, d1, d2, d3, ws, hu, ha, ht,
          fun u j _ _ => .inl (ofBytes_zeros fun b hb => h4.1 b (List.mem_of_mem_drop (List.mem_of_mem_take hb))), hw⟩

/-- A device whose launch 1 has another record. -/
def devPlace (n : Nat) : Device := devK.setLaunch 1 { devK.launch 1 with record := record0 1 + BitVec.ofNat 512 n }

/-- A launch with arguments, and one without. -/
def placedForms : List Device := [devK, devPlace (2 ^ 512 - 8192 * 2 ^ 416)]

theorem placed_with_args : placedB devK 1 = true := by decide +kernel

theorem placed_without_args : placedB (devPlace (2 ^ 512 - 8192 * 2 ^ 416)) 1 = true := by decide +kernel

/-- The hypotheses of APlacedLaunchStartsItsCores. -/
theorem witness_placed : ∀ d ∈ placedForms, let x := d.launch 1
    let read := fun (lo n : Nat) (e : Device) => if x.field lo 48 = 0 then ((some [] : Option (List Byte)), e) else vatRead x.asid (x.field lo 48) n e
    (x.st = .ready ∨ x.st = .rsvd) ∧ d.placeable 1 x.sheaves = some [] ∧ d.asEnabled x.asid = true ∧ ∃ utab args table d1 d2 d3 ws,
      vatRead x.asid (x.field 464 48) (8 * x.ncores) d = (some utab, d1) ∧ read 416 64 d1 = (some args, d2) ∧ read 199 (64 * x.ncores) d2 = (some table, d3) ∧
      (∀ u j, u < x.ncores → j < 16 → wordObeys j (tableWord table u j)) ∧
      (noteTable (d3.asWindows x.asid).1 (32 * (d3.asWindows x.asid).2) d3).launchWindows x.asid = some ws := by
  intro d hd
  rcases List.mem_cons.mp hd with rfl | hd
  · exact placed_of (l := 1) placed_with_args
  · obtain rfl := List.mem_singleton.mp hd
    exact placed_of (l := 1) placed_without_args

/-- Words of a dimension-variable table that obey its rules, at the ends of their ranges (R143, R284). -/
theorem witness_table_words : wordObeys 0 0 ∧ wordObeys 0 (2 ^ 30 + 1) ∧ wordObeys 15 (2 ^ 30 + 65535) ∧ wordObeys 1 (2 ^ 31) ∧ wordObeys 15 (2 ^ 31 + 14) := by
  simp [wordObeys]

/-- The hypotheses of both clauses of AnAdmittedGraphTakesFreeSlots: as many launches as there are free slots, and a job's root launch. -/
theorem witness_admission :
    (let d := { dev0 with admissions := [(1, 3, 4096)], graphs := [(3, { Graph.free with used := true, pending := some 511 })] };
      d.admissions = (1, 3, 4096) :: [] ∧ ((d.graph 3).pending.getD 0) ≤ d.freeLaunches.length) ∧
    (let d := { dev0 with admissions := [(0, 63, 4096)] };
      d.admissions = (0, 63, 4096) :: [] ∧ d.freeGraphs ≠ [] ∧ d.freeLaunches ≠ []) := by decide +kernel

/-! ## Where bundles stop -/

/-- Instructions that stop because of what they name: past the partition's end, at a place of another alignment, at a selector that is not
theirs, at a felt line not written. -/
def stopForms : List Instr := [
  .ldb 1 5 64, .ldh 1 5 32, .ldw 1 5 16, .ldd 1 5 8, .stb 1 5 64, .sth 1 5 32, .stw 1 5 16, .std 1 5 8, .vld 1 5 0, .vst 1 5 0, .ldh 1 3 0, .ldw 1 3 0, .ldd 1 3 0,
  .sth 1 3 0, .stw 1 3 0, .std 1 3 0, .vld 1 3 0, .vst 1 3 0, .binit 3 0, .dktakeSp 0 3, .mfsr 1 0x0B, .mfsr 1 0x7F, .mtsr 1 0x0B, .mtsr 1 0x07, .flrd 1 0 0]

/-- A program's device whose address registers a3 and a5 lie at the partition's end. -/
def devStop : Device :=
  let a : Vector AReg 16 := Vector.ofFn (fun k => { addr := if k.val = 3 then 0x1FFFFF else if k.val = 5 then 0x1FFFC0 else 0, inc := 0, wrap := 0 })
  launch (fun x => { x with asid := 255 }) (regs (fun r => { r with a := a }) devS)

/-- The hypotheses of the first clause of InstructionsStopWhereTheirRulesSay. -/
theorem witness_stops : ∀ i ∈ stopForms, (at_ devStop).dev.Ready i ∧ i.wf = true ∧ ∃ e, stopRule devStop i = some e := by
  intro i hi
  have h := List.all_eq_true.mp (by decide +kernel : stopForms.all (fun i => readyB devStop i && i.wf && (stopRule devStop i).isSome) = true) i hi
  simp only [Bool.and_eq_true, Option.isSome_iff_exists] at h
  exact ⟨ready_of h.1.1, h.1.2, h.2⟩

/-- A device where a result is due in s59 at the next sheet tick, and a port holds a bank. -/
def devClash : Device :=
  live (fun v => { v with flights := [{ flight0 (.regs [.s 59 1] 0 none) with due := 1 }] }) devS

/-- The hypotheses of the second clause: two results for one register at one sheet tick. -/
theorem witness_landing_stop : (at_ devClash).dev.Ready (.add 59 1 2) ∧ (∃ v, scalarRule devClash (.add 59 1 2) = some (1, 59, v)) ∧
    ∃ k f, findLanding (devClash.now + 1) [{ kind := 0, reg := 59, lo := 0, len := 1 }] devClash.live.flights = some (k, f) := by
  have h : (findLanding (devClash.now + 1) [{ kind := 0, reg := 59, lo := 0, len := 1 }] devClash.live.flights).isSome = true := by decide +kernel
  obtain ⟨p, hp⟩ := Option.isSome_iff_exists.mp h
  exact ⟨ready_of (by decide +kernel), ⟨_, rfl⟩, p.1, p.2, hp⟩

/-- A device where core 1 holds the bank-tick of core 0's next load. -/
def devBank : Device :=
  live (fun v => { v with banks := [{ sp := 0, bank := 0, lo := 0, hi := 3, code := 9, core := 1, pc := 0, issued := 0 }] }) dev0

/-- The hypotheses of the third clause. -/
theorem witness_bank_stop : (at_ devBank).dev.Ready (.ldd 1 0 0) ∧ ∃ x sl p u, memoryRule devBank (devBank.opened (.ldd 1 0 0)) (.ldd 1 0 0) = some x ∧
    devBank.LandsFree x.flights ∧ findConflict (devBank.bankPlans devBank.issue.l) (x.uses.map (fun u => (devBank.issue.slot, u))) = some (sl, p, u) := by
  have h : (memoryRule devBank (devBank.opened (.ldd 1 0 0)) (.ldd 1 0 0)).any (fun x =>
      landsB devBank x.flights && (findConflict (devBank.bankPlans devBank.issue.l) (x.uses.map (fun u => (devBank.issue.slot, u)))).isSome) = true := by decide +kernel
  obtain ⟨x, h1, h2⟩ := (Option.any_eq_true _ _).mp h
  simp only [Bool.and_eq_true] at h2
  obtain ⟨p, hp⟩ := Option.isSome_iff_exists.mp h2.2
  exact ⟨ready_of (by decide +kernel), x, p.1, p.2.1, p.2.2, h1, lands_of h2.1, hp⟩

/-- The hypotheses of the fourth clause: no effect left. -/
theorem witness_budget_stop : let d := live (fun v => { v with effects := 0 }) dev0
    (at_ d).dev.Ready (.hsig 1 31) ∧ d.live.effects = 0 := ⟨ready_of (by decide +kernel), by decide +kernel⟩

/-- Whether an instruction comes to its issue. -/
def comesB (d : Device) (i : Instr) : Bool :=
  d.cur.present && !d.issue.handler && (d.live.dueReps d.now).isEmpty && d.live.flights.all (fun f => decide (d.now < f.due)) && !d.mustHold i

theorem comes_of {d : Device} {i : Instr} (h : comesB d i = true) : d.Comes i := by
  simp only [comesB, Bool.and_eq_true, Bool.not_eq_true', List.isEmpty_iff, List.all_eq_true, decide_eq_true_eq] at h
  obtain ⟨⟨⟨⟨h1, h2⟩, h3⟩, h4⟩, h5⟩ := h
  exact ⟨h1, h2, h3, h4, h5⟩

/-- The hypotheses of the fifth clause: another instruction at a ream's last tick, and a boundary before it. -/
theorem witness_boundary_stop :
    ((at_ (atBoundary dev0)).dev.Comes .nop ∧ (atBoundary dev0).queuesReady .nop = true ∧
      ((atBoundary dev0).now + 1) % (atBoundary dev0).curLaunch.ream = 0 ∧ boundary .nop = false ∧ isSlot .nop = true) ∧
    ((at_ dev0).dev.Comes .bnd ∧ (dev0.now + 1) % dev0.curLaunch.ream ≠ 0 ∧ boundary .bnd = true) :=
  ⟨⟨comes_of (by decide +kernel), by decide +kernel⟩, comes_of (by decide +kernel), by decide +kernel⟩

/-- The hypotheses of the sixth clause: an empty queue named first, and one named second. -/
theorem witness_queue_stop : ∀ p ∈ [(Instr.add 1 60 2, (60 : SReg)), (.sel 1 2 63 7, 63)],
    (at_ dev0).dev.Comes p.1 ∧ plainScalar p.1 = true ∧ (dev0.now + 1) % dev0.curLaunch.ream ≠ 0 ∧
    (scalarSources p.1).find? (fun r => decide (60 ≤ r.val) && (dev0.cur.queues[Fin.ofNat 4 (r.val - 60)]).isEmpty) = some p.2 := by
  have h : ∀ p ∈ [(Instr.add 1 60 2, (60 : SReg)), (.sel 1 2 63 7, 63)], comesB dev0 p.1 = true ∧ plainScalar p.1 = true ∧ (dev0.now + 1) % dev0.curLaunch.ream ≠ 0 ∧
      (scalarSources p.1).find? (fun r => decide (60 ≤ r.val) && (dev0.cur.queues[Fin.ofNat 4 (r.val - 60)]).isEmpty) = some p.2 := by decide +kernel
  exact fun p hp => ⟨comes_of (h p hp).1, (h p hp).2⟩

/-- Writes that enable every trap. -/
def trapWrites : List RegWrite := [.fctl 0x1F10, .v 63 0 512 1]

/-- Landings that raise an event: a result whose flags trap, a fault due, a window that is not well formed. -/
def raisedForms : List FlyOp := [.regs trapWrites 1 (some 63), .raise (evOf 9 0 1 2 0 0), .finish (.window 7 0)]

/-- The hypotheses of the seventh clause. -/
theorem witness_trap_stop : ∀ op ∈ raisedForms, (devFly op).LandsOne (0 : CoreIx).val 0 [flight1] (flight0 op) [] ∧
    ∃ u ws e, (devFly op).raisedAs 0 0 (flight0 op) = some (u, ws, e) := by
  intro op ho
  have h := List.all_eq_true.mp (by decide +kernel : raisedForms.all (fun op => landsOneB op && ((devFly op).raisedAs 0 0 (flight0 op)).isSome) = true) op ho
  rw [Bool.and_eq_true, Option.isSome_iff_exists] at h
  obtain ⟨h1, p, h2⟩ := h
  exact ⟨landsOne_of h1, p.1, p.2.1, p.2.2, h2⟩

/-- A device whose next bundle has a given first word. -/
def devBad (w : Nat) : Device := (State.reset.withFetchWord 32 w).dev

/-- Whether a bundle that a core fetches has a format or an encoding that is not allowed. -/
def badFetchB (d : Device) : Bool :=
  let x := d.launch 0
  let pc := (d.ctx 0 0).live.pc
  let u := readWords 0 x.asid pc (beginTick 0 false d)
  decide ((d.sheaf 0).active = some 0) && d.mayIssue 0 0 && decide (x.checked ≠ x.tick + 1) && (d.tickBundles 0).all (fun p => (fetchFails p.2).isNone) &&
    (match u.bundleAt 0 x.asid pc with
      | .error e => decide ((0, some (.error e)) ∈ d.tickBundles 0) && decide (e.code = 1 ∨ e.code = 2)
      | .ok _ => false)

/-- The hypotheses of the first clause of FetchedBundlesStopBeforeTheyExecute: a word of no instruction, and a first word that ends the
bundle with an extension to come. -/
theorem witness_fetched : ∀ w ∈ [0x3FFFFFFF, 0xC000003F], let d := devBad w
    let x := d.launch 0
    let pc := (d.ctx 0 0).live.pc
    let u := readWords 0 x.asid pc (beginTick 0 false d)
    (d.sheaf 0).active = some 0 ∧ d.mayIssue 0 0 = true ∧ x.checked ≠ x.tick + 1 ∧ (∀ p ∈ d.tickBundles 0, fetchFails p.2 = none) ∧
    ∃ e, (0, some (.error e)) ∈ d.tickBundles 0 ∧ u.bundleAt 0 x.asid pc = .error e ∧ (e.code = 1 ∨ e.code = 2) := by
  intro w hw
  have h := List.all_eq_true.mp (by decide +kernel : [0x3FFFFFFF, 0xC000003F].all (fun w => badFetchB (devBad w)) = true) w hw
  simp only [badFetchB, Bool.and_eq_true, List.all_eq_true, Option.isNone_iff_eq_none, decide_eq_true_eq] at h
  obtain ⟨⟨⟨⟨h1, h2⟩, h3⟩, h4⟩, h5⟩ := h
  refine ⟨h1, h2, h3, h4, ?_⟩
  split at h5
  · rename_i e he
    simp only [Bool.and_eq_true, decide_eq_true_eq] at h5
    exact ⟨e, h5.1, he, h5.2⟩
  · cases h5

/-- The hypotheses of the other clauses of FetchedBundlesStopBeforeTheyExecute. -/
theorem witness_words :
    (∀ k ∈ List.range 3, let w := fun j => if j = k then 2 ^ 31 else 0x3F
      k < 3 ∧ bitAt (w k) 31 = true ∧ (∀ j, j < k → bitAt (w j) 31 = false) ∧ ∀ j, j ≤ k → bitAt (w j) 30 = false) ∧
    (∀ j, j < 8 → bitAt 0x3F 31 = false) ∧ (bitAt (2 ^ 31 + 2 ^ 30) 31 = true ∧ bitAt (2 ^ 31 + 2 ^ 30) 30 = true) ∧ bitField 0x3F000000 24 6 = 0x3F ∧
    (slotClass 0x3D000000 = none ∧ bitField 0x3D000000 24 6 ≠ 0x3F ∧ bitField 0x3D000000 24 6 ≠ 0) ∧
    (isSlot (.add 1 2 3) = true ∧ takesExt (.add 1 2 3) = false ∧ (Instr.add 1 2 3).wf = true) := by decide +kernel

/-- The hypotheses of the clauses of ResultsAreRoundedFromExactValues: each rounding mode of `asked`, the least value and the least normal one of FP32,
values that are real, and the greatest fields. -/
theorem witness_rounding :
    (∀ rnd ∈ List.range 3, ({ rnd := rnd, sat := false, srb := 0, fz := true, key := 0 } : Modes).rnd ≤ 2) ∧ 0 < 1 ∧
    ((1 : ℕ) : ℚ) * 2 ^ (-127 : ℤ) < 2 ^ (1 - ((fieldsOf .fp32).2.2 : ℤ)) ∧ ¬((1 : ℕ) : ℚ) * 2 ^ (-126 : ℤ) < 2 ^ (1 - ((fieldsOf .fp32).2.2 : ℤ)) ∧
    (Exact.fin true 3 0 false).real = some ((-1) * ((3 : ℕ) * (2 : ℚ) ^ (0 : ℤ))) ∧ (Exact.zero true).real = some 0 ∧
    (255 < 2 ^ (fieldsOf .fp32).1 ∧ 8388607 < 2 ^ (fieldsOf .fp32).2.1) := by
  refine ⟨by decide, by decide, ?_, ?_, rfl, rfl, by decide⟩
  · norm_num [fieldsOf]
  · norm_num [fieldsOf]

/-! ## Words, ill-formed terms and single steps -/

/-- Words of the spec, and words written out from the formats of R43 to R46 and the tables of each major, with what they stand for. -/
def words0 : List (Nat × Option Nat × Instr) := [
  (0x00000000 + 3 * 2 ^ 18 + 1 * 2 ^ 12 + 2 * 2 ^ 6, none, .add 3 1 2),
  (0x00000013 + 4 * 2 ^ 21 + 5 * 2 ^ 18 + 6 * 2 ^ 12 + 7 * 2 ^ 6, none, .cmp .ltn 5 6 7),
  (0x01000000 + 59 * 2 ^ 18 + 1 * 2 ^ 12 + 63 * 2 ^ 6, none, .mul 59 1 63),
  (0x02000000 + 3 * 2 ^ 18 + 4 * 2 ^ 12 + 0xFFF, none, .addi 3 4 (.short 0xFFF)),
  (0x42000000 + 3 * 2 ^ 18 + 4 * 2 ^ 12 + 0x789, some 0x123456, .addi 3 4 (.long (BitVec.ofNat 43 (0x123456 * 4096 + 0x789)))),
  (0x8C0D2346, none, .lui 3 0x12346),
  (0x10000001 + 15 * 2 ^ 18 + 2 * 2 ^ 12 + 3 * 2 ^ 6, none, .aadd 15 2 3),
  (0x9D2820CB, none, .vidot .i8 10 2 3 { rnd := .fctl, sat := .fctl, mask := none }),
  (0x59000004 + 4 * 2 ^ 18 + 5 * 2 ^ 12 + 2 * 2 ^ 3, some (2 * 2 ^ 28 + 2 * 2 ^ 26 + 2 ^ 25 + 2 ^ 24 + 5 * 2 ^ 21), .vexp2 .fp16 4 5 0 { rnd := .rz, sat := .nsat, mask := some (5, true) }),
  (0x22000000 + 7 * 2 ^ 18 + 1 * 2 ^ 12 + 2 * 2 ^ 6, none, .mand 7 1 2 { rnd := .fctl, sat := .fctl, mask := none }),
  (0x28000004 + 15 * 2 ^ 20 + 1 * 2 ^ 16 + 59 * 2 ^ 10, none, .tresh 15 1 59),
  (0x29060250, none, .rep 1 32 1 1), (0x29080005, none, .pmmz 4 0 false 0), (0x29200002, none, .pldb 2 0 false 0 0 0),
  (0x2900000A + 7 * 2 ^ 21 + 15 * 2 ^ 17 + 0x3FF * 2 ^ 7, none, .kld 7 15 0x3FF),
  (0x30148C03, none, .ldd 5 2 3), (0x31528006, none, .cpy 5 10 0), (0xB108000E, none, .bwait 0 true false), (0x31000012 + 15 * 2 ^ 20 + 1 * 2 ^ 16, none, .bxfm 15 .zero 0 0),
  (0x38000020, none, .jmp 0x20), (0x3B040010, none, .brp false 1 0x10), (0x3C010202, none, .loop 4 8), (0x3C000006, none, .bnd),
  (0x3C000008 + 59 * 2 ^ 18 + 1 * 2 ^ 12 + 7 * 2 ^ 9, none, .launch 59 1 7), (0x3C01E00D, none, .hsig 30 0), (0x3E041401, none, .mfsr 1 5), (0x0304101D, none, .andi 1 1 (.short 0x1D)),
  (0x3E041402, none, .mtsr 1 5), (0x3E000000, none, .rth 0), (0x3E00000A + 59 * 2 ^ 18 + 7 * 2 ^ 15 + 2 ^ 14, none, .errpop 59 7 true)]

/-- R120: LUI s3, #0x1_2346 is the word 0x8C0D_2346. -/
theorem test_decode_lui : decodeSlot 0x8C0D2346 none = .ok (.lui 3 0x12346) := by decide +kernel

/-- The decoder reads the words (02_bundles.md, 05_scalar_vector.md, 06_tile_press.md, 09_memory_insns.md, 12_control_insns.md, 15_recovery.md). -/
theorem test_decode_words : words0.all (fun p => decide (decodeSlot p.1 p.2.1 = .ok p.2.2)) = true := by decide +kernel

/-- Reserved words are refused by reason (R57): an undefined major, an undefined code, reserved fields, an extension that none takes. -/
theorem test_decode_refusals : decodeSlot 0x3F000000 none = .error 1 ∧ decodeSlot 0x0000003E none = .error 3 ∧ decodeSlot 0x3D000000 none = .error 2 ∧
    decodeSlot (0x31000012 + 1 * 2 ^ 16 + 1 * 2 ^ 10) none = .error 4 ∧ decodeSlot 0x4C0D2346 (some 0) = .error 5 := by decide +kernel

/-- A modifier with nothing set. -/
def plain0 : VMod := { rnd := .fctl, sat := .fctl, mask := none }

/-- Terms that each break one check of well-formedness. -/
def illFormed : List Instr := [
  .vmin .fp32 1 2 3 { plain0 with rnd := .rz }, .vabs .fp32 1 2 { plain0 with sat := .sat }, .mand 1 2 3 { plain0 with mask := some (0, false) },
  .vredmax .bf16 1 2 { plain0 with mask := some (0, true) } false, .vcvtFp .fp32 .fp32 0 0 0 plain0, .vcvtFp .e4m3 .e5m2 0 0 0 plain0, .vcvtFp .fp32 .e4m3 2 0 0 plain0,
  .vcvtFp .e4m3 .fp32 0 2 0 plain0, .vcvtInt .intToFp .i8 .fp32 2 0 0 plain0, .vidot .i32 1 2 3 plain0, .vshl .i8 1 2 3 plain0 true 1, .vshl .i8 1 2 3 plain0 false 1,
  .vperm .w4 1 2 3 plain0, .vbcast .w32 1 2 plain0 false 128, .vzip .w8 1 2 4 plain0, .vunzip .w8 1 2 4 plain0, .vslide .w32 1 2 3 plain0 129, .vwidenX2 .i32 2 0 plain0,
  .vwidenX4 .i8 2 0 plain0, .vnarrowD2 .i4 0 2 plain0, .vnarrowD4 .i32 0 2 plain0, .tbindU 3 3, .tcast 1 2 19 0 0 false 0, .tcast 1 2 0 0 3 false 0, .pldb 1 3 false 0 0 0,
  .pldb 1 0 false 1 0 0, .ptsc 1 true, .pdrn 0 false 0 0 { drain0 with ofmt := 9 }, .pdrn 0 true 0 0 { drain0 with dest := 1 }, .pdrn 0 false 0 0 { drain0 with pk := true },
  .ltdrn 0 0 0 { ofmt := 9, rnd := .fctl, sat := .fctl, mx := false, cbx := 0 }, .rep 0 1 0 0, .rep 1 0 0 0, .satom 0 1 .cas false 0, .gatom 1 0 .cas false 0, .bsig 0 0 1 false, .bwait 1 true false, .fsend true 0 1,
  .fsend false 16 0, .bxfm 0 .zero 1 0, .bxfm 0 .tr16 0 1, .bxfm 0 .nrw 1 0, .bxfm 0 .swp16 1 0, .loop 0 1, .lidx 1 6 false, .waitt 0, .ccwait false 1 1, .hsig 1 32, .rth 5,
  .mfsr 1 0x18, .mtsr 1 0x80]

/-- Every check of well-formedness refuses a term (R50, R57, R115). -/
theorem test_ill_formed : illFormed.all (fun i => !i.wf) = true := by decide +kernel

/-- What an instruction alone in its bundle puts in flight. -/
def flown (d : Device) (i : Instr) : List (Nat × FlyOp) :=
  match exec i (at_ d) with
  | .next t => (t.dev.ctx 0 0).live.flights.map (fun f => (f.due, f.op))
  | _ => []

/-- R120 (05_scalar_vector.md:129): LUI s3, #0x1_2346 writes 0x0000_0000_1234_6000. -/
theorem test_lui : flown dev0 (.lui 3 0x12346) = [(1, .regs [.s 3 0x12346000] 0 none)] := by decide +kernel

/-- R124 (05_scalar_vector.md:186): an address steps within its window. -/
theorem test_aaddi_wraps : flown (regs (fun r => { r with a := r.a.set 4 { addr := 0x3FC0, inc := 0, wrap := 0x1000 } }) dev0) (.aaddi 4 4 (.short 0x80)) =
    [(1, .regs [.aAddr 4 0x3040] 0 none)] := by decide +kernel

/-- Element 0 of 32 bits, and the flags, of a vector result. -/
def element0 : List (Nat × FlyOp) → Option (Nat × Nat × BitVec 5)
  | [(n, .regs [.v _ 0 512 x] fl _)] => some (n, x.toNat % 2 ^ 64, fl)
  | _ => none

/-- R132 (05_scalar_vector.md:370): the running sum of VIDOT passes the range and comes back, and one that stays out of it saturates. -/
theorem test_vidot :
    let d := fun (x : Nat) => regs (fun r => { r with v := ((r.v.set 10 (BitVec.ofNat 4096 2147483000)).set 2 (BitVec.ofNat 4096 x)).set 3 0x7F7F7F7F }) dev0
    element0 (flown (d 0x80807F7F) (.vidot .i8 10 2 3 plain0)) = some (4, 0x7FFFFC7A, 0) ∧
    element0 (flown (d 0x7F7F7F7F) (.vidot .i8 10 2 3 plain0)) = some (4, 0x7FFFFFFF, fST) := by decide +kernel

/-- R136 (05_scalar_vector.md:427): VHUSK v1, s0, s0 writes 0x502B_8E99 and 0x5D4B_366B first. -/
theorem test_vhusk : element0 (flown dev0 (.vhusk 1 0 0 plain0 false false .w4 0)) = some (6, 0x5D4B366B502B8E99, 0) := by decide +kernel

end Sys2Proof.Tests
end

section
/-! PROOFS. What a step takes from the agenda, and the landing of one action of a core (R9): the registers that it writes, the
loads and commands that complete, and the flags. -/

open Sys2Proof.Machine

namespace Sys2Proof.Machine

/-! ## The agenda -/

theorem step_of_agenda_cons {s : State} {i : Instr} {t : List Instr} (h : s.agenda = i :: t) :
    step s = exec i { s with agenda := t } := by
  unfold step
  rw [h]

theorem step_of_agenda_nil {s : State} (h : s.agenda = []) : step s = .next (newTick s) := by
  unfold step
  rw [h]

/-- Settles O17, by the two cases of the agenda. -/
theorem stepTakesTheHeadOfTheAgenda : Obligations.StepTakesTheHeadOfTheAgenda := by
  unfold Obligations.StepTakesTheHeadOfTheAgenda
  exact ⟨fun _ _ _ h => step_of_agenda_cons h, fun _ h => step_of_agenda_nil h⟩

/-! ## Lists of numbers, elements and bytes -/

theorem rangeFrom_eq_range' (lo n : Nat) : rangeFrom lo n = List.range' lo n := by
  induction n generalizing lo with
  | zero => rfl
  | succ n ih => rw [rangeFrom, ih, List.range'_succ]

theorem rangeFrom_eq_map (lo n : Nat) : rangeFrom lo n = (List.range n).map (lo + ·) := by
  rw [rangeFrom_eq_range', List.range'_eq_map_range]

theorem rangeFrom_zero (n : Nat) : rangeFrom 0 n = List.range n := by
  rw [rangeFrom_eq_range', List.range_eq_range']

theorem elemsFrom_eq_map (w x i n : Nat) : elemsFrom w x i n = (rangeFrom i n).map (elemAt w x) := by
  induction n generalizing i with
  | zero => rfl
  | succ n ih => rw [elemsFrom, rangeFrom, List.map_cons, ih]

theorem elems_eq_map (w n x : Nat) : elems w n x = (List.range n).map (elemAt w x) := by
  rw [elems, elemsFrom_eq_map, rangeFrom_zero]

theorem ofElems_eight (l : List Nat) : ofElems 8 l = ofBytes (l.map (BitVec.ofNat 8)) := by
  induction l with
  | nil => rfl
  | cons v t ih =>
    simp only [ofElems, List.map_cons, ofBytes, ih, BitVec.toNat_ofNat]
    norm_num

theorem ofBytes_append (l m : List Byte) : ofBytes (l ++ m) = ofBytes l + 256 ^ l.length * ofBytes m := by
  induction l with
  | nil => simp [ofBytes]
  | cons b t ih =>
    rw [List.cons_append, ofBytes, ofBytes, ih, List.length_cons]
    ring

theorem ofBytes_lt (l : List Byte) : ofBytes l < 256 ^ l.length := by
  induction l with
  | nil => simp [ofBytes]
  | cons b t ih =>
    rw [ofBytes, List.length_cons, pow_succ]
    have := b.isLt
    omega

/-- A packed block is the bytes of its lines, one line after another (R414). -/
theorem ofElems_lines (line : Nat → List Byte) (hlen : ∀ a, (line a).length = 64) (rows : List Nat) :
    ofElems 512 (rows.map (fun a => ofBytes (line a))) = ofBytes (rows.flatMap line) := by
  have hpow : (256 : Nat) ^ 64 = 2 ^ 512 := by rw [show (256 : Nat) = 2 ^ 8 from rfl, ← pow_mul]
  induction rows with
  | nil => rfl
  | cons a t ih =>
    have hlt : ofBytes (line a) < 2 ^ 512 := by
      have := ofBytes_lt (line a)
      rwa [hlen, hpow] at this
    rw [List.map_cons, ofElems, Nat.mod_eq_of_lt hlt, ih, List.flatMap_cons, ofBytes_append, hlen, hpow]

theorem heldRow_eq_unpackedRow (six : Nat) (bytes : List Byte) : heldRow six bytes = unpackedRow six bytes := by
  unfold heldRow unpackedRow sixToBytes
  rw [ofElems_eight, elems_eq_map, List.map_map]
  rfl

/-! ## Flags -/

theorem orFlags_append (l m : List Flags) : orFlags (l ++ m) = orFlags l ||| orFlags m := by
  induction l with
  | nil => simp [orFlags]
  | cons f t ih => rw [List.cons_append, orFlags, orFlags, ih, BitVec.or_assoc]

theorem orFlags_flatten (l : List (List Flags)) : orFlags l.flatten = orFlags (l.map orFlags) := by
  induction l with
  | nil => rfl
  | cons m t ih => rw [List.flatten_cons, orFlags_append, ih, List.map_cons, orFlags]

theorem foldl_or_eq_orFlags (l : List Flags) (x : Flags) : l.foldl (· ||| ·) x = x ||| orFlags l := by
  induction l generalizing x with
  | nil => simp [orFlags]
  | cons f t ih => rw [List.foldl_cons, ih, orFlags, BitVec.or_assoc]

theorem foldl_or_zero (l : List Flags) : l.foldl (· ||| ·) 0 = orFlags l := by
  simp [foldl_or_eq_orFlags]

/-! ## Laid weights -/

/-- A window is the sum of its bits, each at its place (R78). -/
theorem windowBits_eq_sum (rd : Nat → Byte) (total pos n : Nat) :
    windowBits rd total pos n =
      ((List.range n).map (fun t => (rd ((pos + t) % total / 8)).toNat / 2 ^ ((pos + t) % total % 8) % 2 * 2 ^ t)).sum := by
  induction n generalizing pos with
  | zero => rfl
  | succ n ih =>
    have hshift : ∀ t, pos + 1 + t = pos + (t + 1) := fun t => by omega
    simp only [windowBits, ih, List.range_succ_eq_map, List.map_cons, List.map_map, List.sum_cons, bitField, Nat.add_zero,
      pow_zero, pow_one, mul_one, ← List.sum_map_mul_left, hshift]
    congr 3
    funext t
    simp only [Function.comp, Nat.succ_eq_add_one]
    ring

theorem laidWeightAt_eq_laidExact (byte : Nat → Byte) (w : BitVec 192) (give : Exact → Nat × Flags) (index : Nat) :
    laidWeightAt byte w give index =
      give (laidExact w (fun i => byte (lwSptr w + i)) (fun i => byte (lwGsptr w + i)) (index % lwN w)) := by
  unfold laidWeightAt laidExact laidWeight
  rw [windowBits_eq_sum, List.sum_eq_foldl]

/-! ## Register writes -/

/-- Bytes of a register merged through a mask are those spliced in by place (R32). -/
theorem mergeBytes_eq_splice {n : Nat} (old new : BitVec n) (lo len : Nat) :
    mergeBytes old new lo len = splice n old new lo len := by
  have hlow : old.toNat % 2 ^ (8 * lo) < 2 ^ (8 * lo) := Nat.mod_lt _ (by positivity)
  have hmid : new.toNat / 2 ^ (8 * lo) % 2 ^ (8 * len) < 2 ^ (8 * len) := Nat.mod_lt _ (by positivity)
  have hsum : old.toNat / 2 ^ (8 * 0) % 2 ^ (8 * lo) * 2 ^ (8 * 0) + new.toNat / 2 ^ (8 * lo) % 2 ^ (8 * len) * 2 ^ (8 * lo) +
      old.toNat / 2 ^ (8 * (lo + len)) * 2 ^ (8 * (lo + len)) =
      2 ^ (8 * lo) * (2 ^ (8 * len) * (old.toNat / 2 ^ (8 * (lo + len))) + new.toNat / 2 ^ (8 * lo) % 2 ^ (8 * len)) +
        old.toNat % 2 ^ (8 * lo) := by
    rw [Nat.mul_zero, pow_zero, Nat.div_one, Nat.mul_one, Nat.mul_add 8 lo len, pow_add]
    ring
  unfold mergeBytes splice
  simp only [hsum]
  apply BitVec.eq_of_getLsbD_eq
  intro i hi
  simp only [BitVec.getLsbD_or, BitVec.getLsbD_and, BitVec.getLsbD_not, BitVec.getLsbD_ofNat, hi, decide_true, Bool.true_and,
    Nat.testBit_two_pow_mul_add _ hlow, Nat.testBit_two_pow_mul_add _ hmid, Nat.testBit_mul_two_pow, Nat.testBit_two_pow_sub_one,
    Nat.testBit_mod_two_pow, Nat.testBit_div_two_pow]
  by_cases h1 : i < 8 * lo
  · simp [h1, Nat.not_le.mpr h1, BitVec.getLsbD]
  · have hle : 8 * lo ≤ i := Nat.le_of_not_lt h1
    by_cases h2 : i - 8 * lo < 8 * len
    · simp [h1, hle, h2, BitVec.getLsbD, Nat.sub_add_cancel hle]
    · have hi2 : i - 8 * lo - 8 * len + 8 * (lo + len) = i := by omega
      simp [h1, hle, h2, hi2, BitVec.getLsbD]

theorem set_eq_setReg {α : Type} {n : Nat} (file : Vector α n) (r : Fin n) (v : α) : file.set r v = setReg file r v := by
  ext k hk
  by_cases h : k = r.val
  · simp [setReg, h]
  · simp [setReg, Vector.getElem_set_ne _ _ (Ne.symm h), Fin.ext_iff, h]

/-- One write lands in the register it names (R28 to R34). -/
theorem Regs.write_eq_landed (r : Regs) (w : RegWrite) : r.write w = r.landed w := by
  cases w with
  | ttype d w tag => cases tag <;> simp only [Regs.write, Regs.landed, set_eq_setReg] <;> rfl
  | v d lo len x => simp only [Regs.write, Regs.landed, set_eq_setReg, mergeBytes_eq_splice]
  | k d lo len x => simp only [Regs.write, Regs.landed, set_eq_setReg, mergeBytes_eq_splice]
  | _ => simp only [Regs.write, Regs.landed, set_eq_setReg]

theorem RegWrite.dirtyBit_eq_dirtyOf (w : RegWrite) : w.dirtyBit = dirtyOf w := by cases w <;> rfl

theorem dirtied_nil (b : BitVec 41) : b.dirtied [] = b := by
  ext i hi
  simp [BitVec.dirtied]

theorem getElem_markDirty (b : BitVec 41) (bit : Option Nat) (i : Nat) (hi : i < 41) :
    (markDirty b bit)[i] = (b[i] || bit == some i) := by
  cases bit with
  | none => simp [markDirty]
  | some k =>
    have hbit : (BitVec.ofNat 41 (2 ^ k))[i] = decide (k = i) := by
      rw [← BitVec.getLsbD_eq_getElem, BitVec.getLsbD_ofNat, Nat.testBit_two_pow, decide_eq_true hi, Bool.true_and]
    rw [markDirty, BitVec.getElem_or, hbit, Option.some_beq_some]
    rfl

theorem dirtied_cons (b : BitVec 41) (w : RegWrite) (ws : List RegWrite) :
    b.dirtied (w :: ws) = (markDirty b w.dirtyBit).dirtied ws := by
  ext i hi
  simp [BitVec.dirtied, getElem_markDirty, RegWrite.dirtyBit_eq_dirtyOf, Bool.or_assoc]

/-- A context after one write of a program register. -/
theorem Ctx.write_program (c : Ctx) {w : RegWrite} (h : w.program = true) :
    c.write w = { c with live := { c.live with regs := c.live.regs.landed w }, dirty := markDirty c.dirty w.dirtyBit } := by
  rw [← Regs.write_eq_landed]
  cases w with
  | hs r v => simp [RegWrite.program] at h
  | hp r b => simp [RegWrite.program] at h
  | _ => rfl

/-- A context after writes of program registers: these, in turn, and their DIRTY bits (R28 to R34, R296). -/
theorem Ctx.writes_program (c : Ctx) (ws : List RegWrite) (h : ∀ w ∈ ws, w.program = true) :
    c.writes ws =
      { c with live := { c.live with regs := ws.foldl Regs.landed c.live.regs }, dirty := c.dirty.dirtied ws } := by
  induction ws generalizing c with
  | nil => simp [Ctx.writes, dirtied_nil]
  | cons w t ih =>
    have hw := h w List.mem_cons_self
    have ht := fun x hx => h x (List.mem_cons_of_mem w hx)
    have hcons : c.writes (w :: t) = (c.write w).writes t := rfl
    rw [hcons, ih _ ht, c.write_program hw, dirtied_cons]
    rfl

theorem Ctx.writes_append (c : Ctx) (ws vs : List RegWrite) : c.writes (ws ++ vs) = (c.writes ws).writes vs := by
  simp [Ctx.writes]

theorem Ctx.write_keeps (c : Ctx) (w : RegWrite) : (c.write w).present = c.present ∧ (c.write w).pending = c.pending := by
  cases w <;> exact ⟨rfl, rfl⟩

theorem Ctx.writes_keeps (c : Ctx) (ws : List RegWrite) :
    (c.writes ws).present = c.present ∧ (c.writes ws).pending = c.pending := by
  induction ws generalizing c with
  | nil => exact ⟨rfl, rfl⟩
  | cons w t ih =>
    obtain ⟨hp, hq⟩ := c.write_keeps w
    obtain ⟨hp', hq'⟩ := ih (c.write w)
    exact ⟨hp'.trans hp, hq'.trans hq⟩

/-- The second of two replacements of a context stands. -/
theorem Device.setCtx_setCtx (d : Device) (l core : Nat) {c c' : Ctx} (h : c.present = true) (h' : c'.present = true) :
    (d.setCtx l core c).setCtx l core c' = d.setCtx l core c' := by
  unfold Device.setCtx
  simp only [Assoc.set_set _ _ _ (Ctx.ne_empty_of_present h') (Ctx.ne_empty_of_present h)]

theorem writeRegs_setCtx (d : Device) (l core : Nat) (ws : List RegWrite) {c : Ctx} (h : c.present = true) :
    writeRegs l core ws (d.setCtx l core c) = d.setCtx l core (c.writes ws) := by
  rw [writeRegs, Device.ctx_setCtx, d.setCtx_setCtx l core h ((c.writes_keeps ws).1.trans h)]

/-- The context with other actions in flight. -/
def Ctx.withFlights (c : Ctx) (fl : List Flight) : Ctx := { c with live := { c.live with flights := fl } }

/-! ## The one action due -/

theorem FlyOp.pass_lt (op : FlyOp) : op.pass < 4 := by
  cases op <;> simp [FlyOp.pass]

theorem Device.LandsOne.not_due {d : Device} {core l : Nat} {a b : List Flight} {f : Flight} (h : d.LandsOne core l a f b)
    (m : List Flight) (hm : m ⊆ a ++ b) : m.filter (fun g => decide (g.due ≤ (d.launch l).tick)) = [] :=
  filter_none_of_forall (fun g hg => by simpa using (h.later g (hm hg)).1)

theorem dueFlights_of_landsOne {d : Device} {core l : Nat} {a b : List Flight} {f : Flight} (h : d.LandsOne core l a f b) :
    dueFlights (d.ctx l core) (d.launch l).tick = [f.seq] := by
  have hdue : (d.ctx l core).live.flights.filter (fun g => decide (g.due ≤ (d.launch l).tick)) = [f] := by
    rw [h.split, List.filter_append, List.filter_cons, h.not_due a (List.subset_append_left a b),
      h.not_due b (List.subset_append_right a b)]
    simp [h.due]
  have hpass := f.op.pass_lt
  unfold dueFlights
  rw [hdue, rangeFrom_zero]
  interval_cases hk : f.op.pass <;> simp [List.range_succ, hk]

theorem find_of_landsOne {d : Device} {core l : Nat} {a b : List Flight} {f : Flight} (h : d.LandsOne core l a f b) :
    (d.ctx l core).live.flights.find? (fun g => g.seq == f.seq) = some f := by
  have ha : a.find? (fun g => g.seq == f.seq) = none :=
    List.find?_eq_none.mpr (fun g hg => by simpa using (h.later g (List.mem_append_left b hg)).2)
  simp [h.split, List.find?_append, ha]

theorem dropFlight_of_landsOne {d : Device} {core l : Nat} {a b : List Flight} {f : Flight} (h : d.LandsOne core l a f b) :
    dropFlight l core f.seq d = d.setCtx l core ((d.ctx l core).withFlights (a ++ b)) := by
  have hkeep : (a ++ b).filter (fun g => g.seq != f.seq) = a ++ b :=
    List.filter_eq_self.mpr (fun g hg => by simpa using (h.later g hg).2)
  have hrest : (d.ctx l core).live.flights.filter (fun g => g.seq != f.seq) = a ++ b := by
    rw [h.split, List.filter_append, List.filter_cons, ← hkeep, List.filter_append]
    simp
  unfold dropFlight Ctx.withFlights
  simp only [hrest]

/-- What an action that raises no event leaves: another device outside the context, writes of the context's registers, and
flags. -/
structure Landed.Leaves (x : Landed) (l core : Nat) (u : Device) (c : Ctx) (fl : Flags) : Prop where
  st : x.st = u.setCtx l core c
  flags : x.flags = fl
  ev : x.ev = none

/-- Flags that raise no enabled trap are added to FSTAT (R112). -/
theorem settleFlags_trapFree (l core : Nat) (u : Device) {c : Ctx} (hc : c.present = true) (f : Flight) (vd : Option VNum)
    {fl : Flags} (h : c.live.regs.trapFree fl) :
    settleFlags l core { flags := if fl = 0 then [] else [(fl, f, vd)], evs := [] } (u.setCtx l core c) =
      ([], u.setCtx l core (c.writes (c.live.regs.flagged fl))) := by
  unfold settleFlags Regs.flagged
  by_cases h0 : fl = 0
  · simp [h0, orFlags, Ctx.writes]
  · have htrap : bitField c.live.regs.fctl.toNat 8 5 &&& fl.toNat = 0 := h
    have hor : orFlags [fl] = fl := by simp [orFlags]
    simp only [if_neg h0, List.map_cons, List.map_nil, hor, Device.ctx_setCtx, htrap, if_true, writeRegs_setCtx u l core _ hc]

theorem landCore_of_landsOne {d u : Device} {core l : Nat} {a b : List Flight} {f : Flight} {c : Ctx} {fl : Flags}
    (h : d.LandsOne core l a f b)
    (hx : (perform l core f (d.setCtx l core ((d.ctx l core).withFlights (a ++ b)))).Leaves l core u c fl)
    (hc : c.present = true) (htrap : c.live.regs.trapFree fl) :
    landCore l core (d.launch l).tick d = u.setCtx l core (c.writes (c.live.regs.flagged fl)) := by
  unfold landCore
  simp only [dueFlights_of_landsOne h, performAll, find_of_landsOne h, dropFlight_of_landsOne h, hx.st, hx.flags, hx.ev,
    List.nil_append, settleFlags_trapFree l core u hc f _ htrap, List.isEmpty_nil, if_true]

/-! ## The events that wait -/

theorem detectEvents_of_quiet {d : Device} {l core : Nat} (h : (d.ctx l core).pending = []) : detectEvents l core d = d := by
  simp [detectEvents, h]

theorem serveCores_of_quiet {d : Device} {l : Nat} (cores : List Nat) (h : ∀ k ∈ cores, (d.ctx l k).pending = []) :
    serveCores l cores d = d := by
  induction cores with
  | nil => rfl
  | cons k t ih =>
    have hk : serveAll l k d = d := by simp [serveAll, h k List.mem_cons_self, servePending]
    rw [serveCores, hk]
    exact ih (fun j hj => h j (List.mem_cons_of_mem k hj))

theorem exec_resultLanding (core : CoreIx) (s : State) :
    exec (.resultLanding core) s = .next { s with dev := resultLanding core.val s.dev } := rfl

/-- Where no event waits once a core has landed, the landing is all that the step does. -/
theorem resultLanding_of_quiet {d : Device} {core l : Nat} (hactive : (d.sheaf (core / 4)).active = some l)
    (hrun : (d.launch l).st = .active ∧ ((d.launch l).mode = .run ∨ (d.launch l).mode = .stop) ∧ (d.launch l).ticked = false ∧
      (d.ctx l core).present = true)
    (hquiet : ∀ k, k = core ∨ k ∈ (d.launch l).cores → ((landCore l core (d.launch l).tick d).ctx l k).pending = []) :
    resultLanding core d = landCore l core (d.launch l).tick d := by
  unfold resultLanding
  simp only [hactive]
  rw [if_pos hrun, detectEvents_of_quiet (hquiet core (.inl rfl)), serveCores_of_quiet _ (fun k hk => hquiet k (.inr hk)), ite_self]

/-- RESULT_LANDING where nothing is due and no event waits (R9). -/
theorem resultLanding_of_none_due {d : Device} {core l : Nat} (hactive : (d.sheaf (core / 4)).active = some l)
    (hquiet : ∀ k, k = core ∨ k ∈ (d.launch l).cores → (d.ctx l k).pending = [])
    (hlater : ∀ f ∈ (d.ctx l core).live.flights, (d.launch l).tick < f.due) : resultLanding core d = d := by
  have hland := landCore_none l core (d.launch l).tick d hlater
  by_cases hrun : (d.launch l).st = .active ∧ ((d.launch l).mode = .run ∨ (d.launch l).mode = .stop) ∧
      (d.launch l).ticked = false ∧ (d.ctx l core).present = true
  · rw [resultLanding_of_quiet hactive hrun (by rwa [hland]), hland]
  · unfold resultLanding
    simp only [hactive]
    rw [if_neg hrun]

theorem ctx_setCtx_pending {d u : Device} {l core k : Nat} {c : Ctx} (hu : u.ctxs = d.ctxs) (hc : c.pending = [])
    (hk : (d.ctx l k).pending = []) : ((u.setCtx l core c).ctx l k).pending = [] := by
  by_cases h : ctxKey l k = ctxKey l core
  · obtain rfl : k = core := Nat.add_left_cancel h
    rw [Device.ctx_setCtx, hc]
  · have hctx : u.ctx l k = d.ctx l k := by rw [Device.ctx, hu, Device.ctx]
    rw [u.ctx_setCtx_ne c h, hctx, hk]

/-- RESULT_LANDING of one action that raises no event and no enabled trap: what the action leaves, with its flags in FSTAT. -/
theorem resultLanding_of_landsOne {d u : Device} {core l : Nat} {a b : List Flight} {f : Flight} {c : Ctx} {fl : Flags}
    (h : d.LandsOne core l a f b) (hu : u.ctxs = d.ctxs)
    (hx : (perform l core f (d.setCtx l core ((d.ctx l core).withFlights (a ++ b)))).Leaves l core u c fl)
    (hc : c.present = true) (hq : c.pending = []) (htrap : c.live.regs.trapFree fl) :
    resultLanding core d = u.setCtx l core (c.writes (c.live.regs.flagged fl)) := by
  obtain ⟨hst, hmode, hticked⟩ := h.running
  have hland := landCore_of_landsOne h hx hc htrap
  rw [resultLanding_of_quiet h.active ⟨hst, .inl hmode, hticked, h.present⟩, hland]
  intro k hk
  rw [hland]
  exact ctx_setCtx_pending hu ((c.writes_keeps _).2.trans hq) (h.quiet k hk)

theorem Regs.flagged_program (r : Regs) (fl : Flags) : ∀ w ∈ r.flagged fl, w.program = true := by
  unfold Regs.flagged
  split <;> simp [RegWrite.program]

/-- The landing of one action that leaves `u` outside the context, writes `ws` in it, and flags: the registers of all writes,
their DIRTY bits, and nothing else of the context. -/
theorem resultLanding_writes {d u : Device} {core l : Nat} {a b fls : List Flight} {f : Flight} {ws : List RegWrite} {fl : Flags}
    (h : d.LandsOne core l a f b) (hu : u.ctxs = d.ctxs) (hws : ∀ w ∈ ws, w.program = true)
    (hx : (perform l core f (d.setCtx l core ((d.ctx l core).withFlights (a ++ b)))).Leaves l core u
      (((d.ctx l core).withFlights fls).writes ws) fl)
    (htrap : (ws.foldl Regs.landed (d.ctx l core).live.regs).trapFree fl) :
    let c := d.ctx l core
    let all := ws ++ (ws.foldl Regs.landed c.live.regs).flagged fl
    resultLanding core d = u.landedCtx l core fls (all.foldl Regs.landed c.live.regs) (c.dirty.dirtied all) := by
  intro c all
  have hwrites := (c.withFlights fls).writes_program ws hws
  obtain ⟨hp, hq⟩ := (c.withFlights fls).writes_keeps ws
  have hregs : ((c.withFlights fls).writes ws).live.regs = ws.foldl Regs.landed c.live.regs := by rw [hwrites]; rfl
  have hall : ∀ w ∈ all, w.program = true := fun w hw =>
    (List.mem_append.mp hw).elim (hws w) (Regs.flagged_program _ fl w)
  have hctx : u.ctx l core = c := by rw [Device.ctx, hu]; rfl
  rw [resultLanding_of_landsOne h hu hx (hp.trans h.present) (hq.trans (h.quiet core (.inl rfl))) (by rwa [hregs]), hregs,
    ← Ctx.writes_append, Ctx.writes_program _ _ hall, Device.landedCtx, hctx]
  rfl

/-- The landing of register writes (R9). -/
theorem resultLanding_regs {d : Device} {core l : Nat} {a b : List Flight} {f : Flight} {ws : List RegWrite} {fl : Flags}
    {vd : Option VNum} (h : d.LandsOne core l a f b) (hop : f.op = .regs ws fl vd) (hws : ∀ w ∈ ws, w.program = true)
    (htrap : (ws.foldl Regs.landed (d.ctx l core).live.regs).trapFree fl) :
    let c := d.ctx l core
    let all := ws ++ (ws.foldl Regs.landed c.live.regs).flagged fl
    resultLanding core d = d.landedCtx l core (a ++ b) (all.foldl Regs.landed c.live.regs) (c.dirty.dirtied all) := by
  refine resultLanding_writes h rfl hws ?_ htrap
  have hpresent : ((d.ctx l core).withFlights (a ++ b)).present = true := h.present
  simp only [perform, hop]
  exact ⟨writeRegs_setCtx d l core ws hpresent, rfl, rfl⟩

/-! ## Loads and commands that complete -/

/-- Whether a write is of a data register: not of FCTL or FSTAT, nor of the handler's own registers. -/
def RegWrite.ofData : RegWrite → Bool
  | .fctl _ => false
  | .fstat _ => false
  | w => w.program

theorem RegWrite.program_of_ofData {w : RegWrite} (h : w.ofData = true) : w.program = true := by
  cases w with
  | fctl v => rfl
  | fstat v => rfl
  | _ => exact h

theorem Regs.landed_ofData (r : Regs) {w : RegWrite} (h : w.ofData = true) :
    (r.landed w).fctl = r.fctl ∧ (r.landed w).fstat = r.fstat := by
  cases w with
  | fctl v => simp [RegWrite.ofData] at h
  | fstat v => simp [RegWrite.ofData] at h
  | ttype t w tag => cases tag <;> simp only [Regs.landed, and_self]
  | _ => simp only [Regs.landed, and_self]

theorem Regs.foldl_landed_ofData (r : Regs) (ws : List RegWrite) (h : ∀ w ∈ ws, w.ofData = true) :
    (ws.foldl Regs.landed r).fctl = r.fctl ∧ (ws.foldl Regs.landed r).fstat = r.fstat := by
  induction ws generalizing r with
  | nil => exact ⟨rfl, rfl⟩
  | cons w t ih =>
    obtain ⟨hc, hs⟩ := r.landed_ofData (h w List.mem_cons_self)
    obtain ⟨hc', hs'⟩ := ih (r.landed w) (fun x hx => h x (List.mem_cons_of_mem w hx))
    exact ⟨hc'.trans hc, hs'.trans hs⟩

/-- What a load or command that completes leaves: `u` outside the context, of whose actions `fls` stay in flight, writes of
data registers, flags, and no event. -/
structure Landed.Completes (x : Landed) (d : Device) (l core : Nat) (fls : List Flight) (u : Device) (ws : List RegWrite)
    (fl : Flags) : Prop where
  ctxs : u.ctxs = d.ctxs
  data : ∀ w ∈ ws, w.ofData = true
  leaves : x.Leaves l core u (((d.ctx l core).withFlights fls).writes ws) fl

theorem Landed.completes_of_writeRegs {d u : Device} {l core : Nat} {fls : List Flight} {ws : List RegWrite} {fl : Flags}
    {vd : Option VNum} (hp : (d.ctx l core).present = true) (hu : u.ctxs = d.ctxs) (hws : ∀ w ∈ ws, w.ofData = true) :
    Landed.Completes
      { st := writeRegs l core ws (u.setCtx l core ((d.ctx l core).withFlights fls)), flags := fl, vd := vd, ev := none }
      d l core fls u ws fl :=
  ⟨hu, hws, writeRegs_setCtx u l core ws hp, rfl, rfl⟩

theorem Landed.completes_of_quiet {d u : Device} {l core : Nat} {fls : List Flight} (hu : u.ctxs = d.ctxs) (fl : Flags) :
    Landed.Completes { quiet (u.setCtx l core ((d.ctx l core).withFlights fls)) with flags := fl } d l core fls u [] fl :=
  ⟨hu, by simp, rfl, rfl, rfl⟩

theorem advance_eq_advanced (adv : Option LwNum) (w : BitVec 192) (n : Nat) : advance adv w n = advanced adv w n := by
  cases adv <;> rfl

theorem advanced_ofData (adv : Option LwNum) (w : BitVec 192) (n : Nat) : ∀ x ∈ advanced adv w n, x.ofData = true := by
  cases adv <;> simp [advanced, RegWrite.ofData, RegWrite.program]

theorem laidWeightAt_capture (f : Flight) (base : Nat) (w : BitVec 192) (give : Exact → Nat × Flags) (index : Nat) :
    laidWeightAt (fun p => Memory.read f.buf (base + p)) w give index =
      give (laidExact w (f.laidReader base (lwSptr w)) (f.laidReader base (lwGsptr w)) (index % lwN w)) := by
  rw [laidWeightAt_eq_laidExact]
  unfold Flight.laidReader
  simp only [Nat.add_assoc]

theorem laidLoad_eq_laidWeightAt (f : Flight) (base : Nat) (w : BitVec 192) (k : Nat) (sat : Bool) (j i : Nat) :
    laidLoad f base w k sat j i =
      laidWeightAt (fun p => Memory.read f.buf (base + p)) w (deliver { modesRne with sat := sat } 0 (.fl .bf16))
        (lwBoff w / lwKw w + i + k * j) := by
  rw [laidWeightAt_capture]
  rfl

/-- An element of VLAID under its mask: the weight, zero, or the old element (R116, R140). -/
def laidElemAt (weight : Nat → Nat × Flags) (mask : Option (Nat × Bool)) (n old i : Nat) : Nat × Flags :=
  match mask with
  | none => weight i
  | some (m, z) => if m / 2 ^ i % 2 = 1 then weight i else (if z then 0 else old / 2 ^ (n * i) % 2 ^ n, 0)

theorem maskElem_eq_laidElemAt (weight : Nat → Nat × Flags) (mask : Option (Nat × Bool)) (n : Nat) (old : VData) (i : Nat) :
    maskElem mask i (velem n old i) (weight i) = laidElemAt weight mask n old.toNat i := by
  cases mask with
  | none => rfl
  | some p => simp [maskElem, laidElemAt, bitAt, bitField, velem, elemAt]

theorem laidCount_eq (w32 : Bool) : (if w32 then 128 else 256) = 4096 / (if w32 then 32 else 16) := by cases w32 <;> rfl

theorem laidElems_eq_map (f : Flight) (base : Nat) (w : BitVec 192) (w32 : Bool) (md : Modes) (mask : Mask) (old : VData)
    (off : Dbl) :
    laidElems f base w w32 md mask old off =
      (List.range (4096 / (if w32 then 32 else 16))).map (laidElemAt (fun i =>
        laidWeightAt (fun p => Memory.read f.buf (base + p)) w (deliverFz md (i + off.toNat) (if w32 then .fp32 else .bf16))
          (lwBoff w / lwKw w + i)) mask (if w32 then 32 else 16) old.toNat) := by
  unfold laidElems mapElems laidIndices
  simp only [laidCount_eq, rangeFrom_zero]
  refine List.map_congr_left (fun i hi => ?_)
  have hidx : nth ((List.range (4096 / (if w32 then 32 else 16))).map (fun e => (lwBoff w / lwKw w + e) % lwN w)) i =
      (lwBoff w / lwKw w + i) % lwN w := by
    simp [nth, List.mem_range.mp hi]
  rw [← maskElem_eq_laidElemAt, laidWeightAt_capture, hidx]

theorem Device.baseKey_setCtx (d : Device) (l core : Nat) (c : Ctx) :
    (d.setCtx l core c).baseKey l core = 2097152 * core + ((d.launch l).seat core).spBase := by
  simp only [Device.baseKey, Device.setCtx_launch_of, spKey, spBytes, Launch.spPhys]
  omega

theorem loadedTile_packed (f : Flight) (pair : Bool) (rows : List Nat) :
    loadedTile f pair rows 64 0 true = [BitVec.ofNat 65536 (ofBytes (rows.flatMap (fun a => Memory.readBytes f.buf a 64)))] := by
  rw [← ofElems_lines _ (fun a => Memory.length_readBytes f.buf 64 a)]
  rfl

theorem loadedTile_plain (f : Flight) (pair : Bool) (rows : List Nat) (len n : Nat) :
    loadedTile f pair rows len n false = tileData pair (rows.map (fun a => unpackedRow n (Memory.readBytes f.buf a len))) := by
  simp [loadedTile, heldRow_eq_unpackedRow, Flight.bytes]

theorem zip_pairRegs_single (t : TNum) (pair : Bool) (x : TData) : (pairRegs t pair).zip [x] = [(t, x)] := by
  cases pair <;> rfl

theorem regionBuf_eq (f : Flight) (typ : Dbl) (k n : Nat) (tag : Byte) (rows : List Nat) (len : Nat) (scales : List Nat)
    (slen : Nat) :
    regionBuf f typ k n tag rows len scales slen =
      { typ := typ, k := k, n := n, tag := tag,
        cols := rows.map (fun a => BitVec.ofNat 2048
          (unpackedRow (if fmtWidth (tFmt typ.toNat) = 6 then k else 0) (Memory.readBytes f.buf a len))),
        scales := scales.flatMap (fun a => Memory.readBytes f.buf a slen), metas := List.replicate n none } := by
  simp only [regionBuf, heldRow_eq_unpackedRow, Flight.bytes, List.flatMap_def]

theorem laidBuf_eq (f : Flight) (base : Nat) (typ : Dbl) (k n : Nat) (w : BitVec 192) (sat : Bool) :
    laidBuf f base typ k n w sat =
      { typ := typ, k := k, n := n, tag := 0,
        cols := (List.range n).map (fun j => BitVec.ofNat 2048 (ofElems 16 ((List.range k).map (fun i =>
          (laidWeightAt (fun p => Memory.read f.buf (base + p)) w (deliver { modesRne with sat := sat } 0 (.fl .bf16))
            (lwBoff w / lwKw w + i + k * j)).1)))),
        scales := [], metas := List.replicate n none } := by
  simp only [laidBuf, laidLoad_eq_laidWeightAt, rangeFrom_zero]

/-- The flags of some columns, column by column, are those of all their weights (R112, R166). -/
theorem orFlags_columns (g : Nat → Nat → Flags) (n0 c k : Nat) :
    orFlags ((rangeFrom n0 c).map (fun n => orFlags ((rangeFrom 0 k).map (g n)))) =
      ((List.range c).flatMap (fun j => (List.range k).map (g (n0 + j)))).foldl (· ||| ·) 0 := by
  rw [foldl_or_zero, List.flatMap_def, orFlags_flatten, rangeFrom_zero, rangeFrom_eq_map, List.map_map, List.map_map]
  rfl

/-- Whether an action stays in flight when a codebook register changes: not a table under construction from it (R172). -/
def Flight.survives (q : CbNum) (f : Flight) : Bool :=
  match f.op with
  | .table x y _ _ => x != some q && y != some q
  | _ => true

/-- Whether a sheaf's product table was built from a codebook register of a core (R172). -/
def Sheaf.builtFrom (g : Sheaf) (core : Nat) (q : CbNum) : Bool :=
  g.table.any (fun t => t.core == core && (t.a == some q || t.b == some q))

/-- The device without the product table of a core's sheaf, where it was built from a codebook register of the core (R172). -/
def Device.withoutTable (d : Device) (core : Nat) (q : CbNum) : Device :=
  if (d.sheaf (core / 4)).builtFrom core q = true then d.setSheaf (core / 4) { d.sheaf (core / 4) with table := none } else d

theorem Device.withoutTable_ctxs (d : Device) (core : Nat) (q : CbNum) : (d.withoutTable core q).ctxs = d.ctxs := by
  unfold Device.withoutTable
  split <;> rfl

theorem Device.withoutTable_setCtx (d : Device) (l core : Nat) (q : CbNum) (c : Ctx) :
    (d.setCtx l core c).withoutTable core q = (d.withoutTable core q).setCtx l core c := by
  unfold Device.withoutTable
  rw [Device.setCtx_sheaf_of]
  split <;> rfl

theorem Flight.survives_eq (q : CbNum) (f : Flight) :
    f.survives q = match f.op with
      | .table a b _ _ => !(a == some q || b == some q)
      | _ => true := by
  unfold Flight.survives
  cases f.op <;> simp [bne]

theorem dropTables_eq (l core : Nat) (q : CbNum) (s : Device) :
    dropTables l core q s =
      (s.withoutTable core q).setCtx l core (((s.withoutTable core q).ctx l core).withFlights
        (((s.withoutTable core q).ctx l core).live.flights.filter (Flight.survives q))) := by
  unfold dropTables Device.withoutTable Sheaf.builtFrom
  rw [funext (Flight.survives_eq q)]
  cases htable : (s.sheaf (core / 4)).table with
  | none =>
    simp only [htable, Option.any_none, Bool.false_eq_true, if_false]
    rfl
  | some t =>
    simp only [htable, Option.any_some]
    rfl

theorem dropTables_setCtx (d : Device) (l core : Nat) (q : CbNum) {c : Ctx} (hp : c.present = true) :
    dropTables l core q (d.setCtx l core c) =
      (d.withoutTable core q).setCtx l core (c.withFlights (c.live.flights.filter (Flight.survives q))) := by
  have hp' : (c.withFlights (c.live.flights.filter (Flight.survives q))).present = true := hp
  rw [dropTables_eq, Device.withoutTable_setCtx, Device.ctx_setCtx, Device.setCtx_setCtx _ _ _ hp hp']

theorem keptFlights_of_not_codebook {d : Device} {l core : Nat} {f : Flight} {x : Finish} (hop : f.op = .finish x)
    (hx : ∀ q a, x ≠ .codebook q a) (fls : List Flight) : d.keptFlights l core f fls = fls := by
  unfold Device.keptFlights
  rw [hop]
  cases x with
  | codebook q a => exact absurd rfl (hx q a)
  | _ => rfl

theorem keptFlights_codebook {d : Device} {l core : Nat} {f : Flight} {q : CbNum} {a : Nat}
    (hop : f.op = .finish (.codebook q a)) (fls : List Flight) :
    d.keptFlights l core f fls =
      if (d.ctx l core).live.regs.cb[q] = BitVec.ofNat 256 (ofBytes (Memory.readBytes f.buf a 32)) then fls
      else fls.filter (Flight.survives q) := by
  unfold Device.keptFlights
  rw [hop]
  rfl

/-- CBLD: a codebook that changes drops the tables built from it (R172). -/
theorem finish_codebook_completes {d : Device} {l core : Nat} {f : Flight} {q : CbNum} {a : Nat}
    (hp : (d.ctx l core).present = true) (hop : f.op = .finish (.codebook q a)) (fls : List Flight) :
    let v := BitVec.ofNat 256 (ofBytes (Memory.readBytes f.buf a 32))
    (finish l core f (.codebook q a) (d.setCtx l core ((d.ctx l core).withFlights fls))).Completes d l core
      (d.keptFlights l core f fls) (if (d.ctx l core).live.regs.cb[q] = v then d else d.withoutTable core q) [.cb q v] 0 := by
  intro v
  have hws : ∀ w ∈ [RegWrite.cb q v], w.ofData = true := List.forall_mem_singleton.mpr rfl
  have hcb : ((d.ctx l core).withFlights fls).live.regs.cb[q] = (d.ctx l core).live.regs.cb[q] := rfl
  have hp' : ((d.ctx l core).withFlights fls).present = true := hp
  rw [keptFlights_codebook hop]
  unfold finish quietRegs quiet Flight.bytes
  simp only [Device.ctx_setCtx, hcb, dropTables_setCtx d l core q hp']
  by_cases h : (d.ctx l core).live.regs.cb[q] = v
  · simp only [v] at h
    simp only [v, if_pos h]
    exact Landed.completes_of_writeRegs hp rfl hws
  · simp only [v] at h
    simp only [v, if_neg h]
    exact Landed.completes_of_writeRegs hp (d.withoutTable_ctxs core q) hws

theorem finish_scalar_completes {d : Device} {l core : Nat} {f : Flight} (r : SReg) (a n : Nat)
    (hp : (d.ctx l core).present = true) (fls : List Flight) :
    (finish l core f (.scalar r a n) (d.setCtx l core ((d.ctx l core).withFlights fls))).Completes d l core fls d
      (if r = 0 ∨ 60 ≤ r.val then [] else [.s r (dbl (ofBytes (Memory.readBytes f.buf a n)))]) 0 := by
  simp only [finish]
  by_cases hr : r = 0 ∨ 60 ≤ r.val
  · rw [if_pos hr, if_pos hr]
    exact Landed.completes_of_quiet rfl 0
  · rw [if_neg hr, if_neg hr]
    exact Landed.completes_of_writeRegs hp rfl (List.forall_mem_singleton.mpr rfl)

theorem finish_tile_completes {d : Device} {l core : Nat} {f : Flight} (t : TNum) (pair : Bool) (rows : List Nat)
    (len n : Nat) (pack : Bool) (hp : (d.ctx l core).present = true) (fls : List Flight) :
    (finish l core f (.tile t pair rows len n pack) (d.setCtx l core ((d.ctx l core).withFlights fls))).Completes d l core fls d
      (((pairRegs t pair).zip (loadedTile f pair rows len n pack)).map (fun p => .tdata p.1 p.2)) 0 := by
  simp only [finish]
  refine Landed.completes_of_writeRegs hp rfl (fun w hw => ?_)
  obtain ⟨p, -, rfl⟩ := List.mem_map.mp hw
  rfl

/-- VLAID (R140): its elements, BOFF where it advances, and the flags of the elements. -/
theorem finish_laid_completes {d : Device} {l core : Nat} {f : Flight} (r : VNum) (w : BitVec 192) (w32 : Bool)
    (adv : Option LwNum) (md : Modes) (mask : Option (Nat × Bool)) (old : VData) (off : Dbl)
    (hp : (d.ctx l core).present = true) (fls : List Flight) :
    let n := if w32 then 32 else 16
    let base := 2097152 * core + ((d.launch l).seat core).spBase
    let weight := fun (i : Nat) =>
      laidWeightAt (fun p => Memory.read f.buf (base + p)) w (deliverFz md (i + off.toNat) (if w32 then .fp32 else .bf16))
        (lwBoff w / lwKw w + i)
    let all := (List.range (4096 / n)).map (laidElemAt weight mask n old.toNat)
    (finish l core f (.laid r w w32 adv md mask old off) (d.setCtx l core ((d.ctx l core).withFlights fls))).Completes d l core
      fls d (.v r 0 512 (vdata n (all.map (·.1))) :: advanced adv w (4096 / n)) ((all.map (·.2)).foldl (· ||| ·) 0) := by
  intro n base weight all
  simp only [finish, laidElems_eq_map, Device.baseKey_setCtx, advance_eq_advanced, laidCount_eq, codesOf, flagsOf, ← foldl_or_zero]
  refine Landed.completes_of_writeRegs hp rfl (List.forall_mem_cons.mpr ⟨rfl, advanced_ofData adv w _⟩)

/-- PLAID (R166): its buffer, and BOFF where it advances. -/
theorem finish_bufLaid_completes {d : Device} {l core : Nat} {f : Flight} (b : Bool) (typ : Dbl) (k n : Nat) (w : BitVec 192)
    (adv : Option LwNum) (sat : Bool) (hp : (d.ctx l core).present = true) (fls : List Flight) :
    (finish l core f (.bufLaid b typ k n w adv sat) (d.setCtx l core ((d.ctx l core).withFlights fls))).Completes d l core fls
      (d.setSheaf (core / 4) ((d.sheaf (core / 4)).setBuf b
        (laidBuf f (2097152 * core + ((d.launch l).seat core).spBase) typ k n w sat)))
      (advanced adv w (k * n)) 0 := by
  simp only [finish, Device.baseKey_setCtx, Device.setCtx_sheaf_of, advance_eq_advanced]
  exact Landed.completes_of_writeRegs
    (u := d.setSheaf (core / 4) ((d.sheaf (core / 4)).setBuf b
      (laidBuf f (2097152 * core + ((d.launch l).seat core).spBase) typ k n w sat)))
    hp rfl (advanced_ofData adv w (k * n))

/-- The copy's window takes what its row has captured (R244). -/
theorem finish_copyWindow_completes {d : Device} {l core : Nat} {f : Flight} (id : Nat) (fls : List Flight) :
    (finish l core f (.copyWindow id) (d.setCtx l core ((d.ctx l core).withFlights fls))).Completes d l core fls
      ((Assoc.get none d.copies id).elim d
        (fun c => { d with copies := Assoc.set none d.copies id (some { c with window := f.buf }) })) [] 0 := by
  simp only [finish, Device.setCtx_copies]
  cases Assoc.get none d.copies id with
  | none => exact Landed.completes_of_quiet (d := d) rfl 0
  | some c =>
    exact Landed.completes_of_quiet
      (d := d) (u := { d with copies := Assoc.set none d.copies id (some { c with window := f.buf }) }) rfl 0

/-- The flags of some columns of a PLAID (R112, R166). -/
theorem finish_laidFlags_completes {d : Device} {l core : Nat} {f : Flight} (w : BitVec 192) (k n0 c : Nat) (sat : Bool)
    (fls : List Flight) :
    let base := 2097152 * core + ((d.launch l).seat core).spBase
    let flags := fun (j i : Nat) =>
      (laidWeightAt (fun p => Memory.read f.buf (base + p)) w (deliver { modesRne with sat := sat } 0 (.fl .bf16))
        (lwBoff w / lwKw w + i + k * j)).2
    (finish l core f (.laidFlags w k n0 c sat) (d.setCtx l core ((d.ctx l core).withFlights fls))).Completes d l core fls d []
      (((List.range c).flatMap (fun j => (List.range k).map (flags (n0 + j)))).foldl (· ||| ·) 0) := by
  intro base flags
  simp only [finish, Device.baseKey_setCtx, laidLoad_eq_laidWeightAt]
  rw [orFlags_columns flags]
  exact Landed.completes_of_quiet rfl _

theorem finishedAs_codebook_device (d : Device) (core : Nat) (q : CbNum) (old v : BitVec 256) :
    (if old ≠ v ∧ (d.sheaf (core / 4)).table.any (fun t => t.core == core && (t.a == some q || t.b == some q)) = true then
      d.setSheaf (core / 4) { d.sheaf (core / 4) with table := none } else d) =
      if old = v then d else d.withoutTable core q := by
  unfold Device.withoutTable Sheaf.builtFrom
  by_cases h : old = v <;> simp [h]

theorem finishedAs_packed {d u : Device} {l core len n : Nat} {f : Flight} {t : TNum} {pair : Bool} {rows : List Nat}
    {ws : List RegWrite} {fl : Flags} (h : d.finishedAs l core f (.tile t pair rows len n true) = some (u, ws, fl)) :
    len = 64 ∧ n = 0 ∧ d = u ∧
      [.tdata t (BitVec.ofNat 65536 (ofBytes (rows.flatMap (fun a => Memory.readBytes f.buf a 64))))] = ws ∧ 0 = fl := by
  by_cases hform : len = 64 ∧ n = 0
  · obtain ⟨rfl, rfl⟩ := hform
    cases h
    exact ⟨rfl, rfl, rfl, rfl, rfl⟩
  · have hnone : d.finishedAs l core f (.tile t pair rows len n true) = none := by
      rw [Device.finishedAs]
      exact fun hlen hn => hform ⟨hlen, hn⟩
    rw [hnone] at h
    cases h

theorem finishedAs_window {d u : Device} {l core a : Nat} {f : Flight} {q : LwNum} {ws : List RegWrite} {fl : Flags}
    (h : d.finishedAs l core f (.window q a) = some (u, ws, fl)) :
    lwFails (BitVec.ofNat 192 (ofBytes (Memory.readBytes f.buf a 24))) (d.launch l).spSize = none ∧ d = u ∧
      [.lw q (BitVec.ofNat 192 (ofBytes (Memory.readBytes f.buf a 24)))] = ws ∧ 0 = fl := by
  simp only [Device.finishedAs] at h
  split at h
  next hpass =>
    cases h
    exact ⟨hpass, rfl, rfl, rfl⟩
  next => cases h

/-- Each load or command but CBLD that completes leaves what it is said to (R112, R140, R164, R166, R173, R174, R230 to
R232, R237). -/
theorem finish_completes_of_not_codebook {d u : Device} {l core : Nat} {f : Flight} {x : Finish} {ws : List RegWrite} {fl : Flags}
    (hp : (d.ctx l core).present = true) (hx : ∀ q a, x ≠ .codebook q a) (h : d.finishedAs l core f x = some (u, ws, fl))
    (fls : List Flight) :
    (finish l core f x (d.setCtx l core ((d.ctx l core).withFlights fls))).Completes d l core fls u ws fl := by
  cases x with
  | codebook q a => exact absurd rfl (hx q a)
  | scalar r a n =>
    cases h
    exact finish_scalar_completes r a n hp fls
  | vector r lines =>
    cases h
    rw [List.flatMap_def]
    exact Landed.completes_of_writeRegs hp rfl (List.forall_mem_singleton.mpr rfl)
  | gather r w addrs =>
    cases h
    exact Landed.completes_of_writeRegs hp rfl (List.forall_mem_singleton.mpr rfl)
  | scale q a =>
    cases h
    exact Landed.completes_of_writeRegs hp rfl (List.forall_mem_singleton.mpr rfl)
  | segment r seg =>
    cases h
    exact Landed.completes_of_writeRegs hp rfl (List.forall_mem_singleton.mpr rfl)
  | tile t pair rows len n pack =>
    have htile := finish_tile_completes (f := f) t pair rows len n pack hp fls
    cases pack with
    | false =>
      cases h
      rwa [loadedTile_plain] at htile
    | true =>
      obtain ⟨rfl, rfl, rfl, rfl, rfl⟩ := finishedAs_packed h
      rwa [loadedTile_packed, zip_pairRegs_single] at htile
  | window q a =>
    obtain ⟨hpass, rfl, rfl, rfl⟩ := finishedAs_window h
    simp only [finish, Device.setCtx_launch_of, Flight.bytes, hpass]
    exact Landed.completes_of_writeRegs hp rfl (List.forall_mem_singleton.mpr rfl)
  | laid r w w32 adv md mask old off =>
    cases h
    exact finish_laid_completes r w w32 adv md mask old off hp fls
  | bufRegion b typ k n tag rows len scales slen =>
    cases h
    rw [← regionBuf_eq]
    exact Landed.completes_of_quiet (d := d) (u := d.setSheaf (core / 4) ((d.sheaf (core / 4)).setBuf b
      (regionBuf f typ k n tag rows len scales slen))) rfl 0
  | bufLaid b typ k n w adv sat =>
    cases h
    rw [← laidBuf_eq]
    exact finish_bufLaid_completes b typ k n w adv sat hp fls
  | laidFlags w k n0 c sat =>
    cases h
    exact finish_laidFlags_completes w k n0 c sat fls
  | copyWindow id =>
    cases h
    exact finish_copyWindow_completes id fls

/-- Each load or command that completes leaves what it is said to, and keeps in flight what its codebook leaves valid (R172). -/
theorem finish_completes {d u : Device} {l core : Nat} {f : Flight} {x : Finish} {ws : List RegWrite} {fl : Flags}
    (hp : (d.ctx l core).present = true) (hop : f.op = .finish x) (h : d.finishedAs l core f x = some (u, ws, fl))
    (fls : List Flight) :
    (finish l core f x (d.setCtx l core ((d.ctx l core).withFlights fls))).Completes d l core
      (d.keptFlights l core f fls) u ws fl := by
  by_cases hx : ∃ q a, x = .codebook q a
  · obtain ⟨q, a, rfl⟩ := hx
    cases h
    rw [finishedAs_codebook_device]
    exact finish_codebook_completes hp hop fls
  · have hne : ∀ q a, x ≠ .codebook q a := fun q a e => hx ⟨q, a, e⟩
    rw [keptFlights_of_not_codebook hop hne]
    exact finish_completes_of_not_codebook hp hne h fls

/-- The landing of a load or a command that completes. -/
theorem resultLanding_finish {d u : Device} {core l : Nat} {a b : List Flight} {f : Flight} {x : Finish} {ws : List RegWrite}
    {fl : Flags} (h : d.LandsOne core l a f b) (hop : f.op = .finish x) (hfin : d.finishedAs l core f x = some (u, ws, fl))
    (htrap : (d.ctx l core).live.regs.trapFree fl) :
    let c := d.ctx l core
    let all := ws ++ c.live.regs.flagged fl
    resultLanding core d =
      u.landedCtx l core (d.keptFlights l core f (a ++ b)) (all.foldl Regs.landed c.live.regs) (c.dirty.dirtied all) := by
  obtain ⟨hu, hdata, hleaves⟩ := finish_completes h.present hop hfin (a ++ b)
  obtain ⟨hfctl, hfstat⟩ := (d.ctx l core).live.regs.foldl_landed_ofData ws hdata
  have hflagged : (ws.foldl Regs.landed (d.ctx l core).live.regs).flagged fl = (d.ctx l core).live.regs.flagged fl := by
    rw [Regs.flagged, hfstat, Regs.flagged]
  have hperform : perform l core f (d.setCtx l core ((d.ctx l core).withFlights (a ++ b))) =
      finish l core f x (d.setCtx l core ((d.ctx l core).withFlights (a ++ b))) := by simp only [perform, hop]
  intro c all
  have hland := resultLanding_writes h hu (fun w hw => RegWrite.program_of_ofData (hdata w hw)) (by rwa [hperform])
    (by rwa [Regs.trapFree, hfctl])
  simpa only [hflagged] using hland

/-- Settles O43: the one action due is the only one performed, and what it leaves is by cases on the action. -/
theorem aResultLandsInItsRegistersAlone : Obligations.AResultLandsInItsRegistersAlone := by
  unfold Obligations.AResultLandsInItsRegistersAlone
  refine ⟨?_, ?_, ?_⟩
  · intro s core l a b f ws fl vd h hop hws c r all htrap
    rw [exec_resultLanding, resultLanding_regs h hop hws htrap]
  · intro s core l a b f x u ws fl h hop hfin c all htrap
    rw [exec_resultLanding, resultLanding_finish h hop hfin htrap]
  · intro s core l hactive hquiet hlater
    rw [exec_resultLanding, resultLanding_of_none_due hactive hquiet hlater]

end Sys2Proof.Machine
end

section
/-! PROOFS. The decoder on the words that the encoder writes (R38, R43, R46 to R60): what a window of a word put together from
fields reads, and with it, for every instruction of a slot, that its codes lead back to it. -/

open Sys2Proof.Machine

namespace Sys2Proof

/-! ## Windows of a word -/

theorem bitField_mod (w k lo n : Nat) (h : lo + n ≤ k) : bitField (w % 2 ^ k) lo n = bitField w lo n := by
  obtain ⟨j, rfl⟩ := Nat.exists_eq_add_of_le h
  rw [bitField, bitField, Nat.add_assoc, pow_add, Nat.mod_mul_right_div_self, pow_add, Nat.mod_mul_right_mod]

theorem bitField_of_lt {w lo n : Nat} (h : w < 2 ^ lo) : bitField w lo n = 0 := by
  rw [bitField, Nat.div_eq_of_lt h, Nat.zero_mod]

theorem lt_of_bitField_above {w lo : Nat} (h : ∀ n, bitField w lo n = 0) : w < 2 ^ lo := by
  have h0 := h (w / 2 ^ lo)
  rw [bitField, Nat.mod_eq_of_lt Nat.lt_two_pow_self] at h0
  exact Nat.lt_of_div_eq_zero (Nat.two_pow_pos lo) h0

/-- A word that is clear from bit `k` to bit `k + m` is its bits below and its bits above. -/
theorem split_of_clear {r k m : Nat} (hc : bitField r k m = 0) :
    r = r % 2 ^ k + 2 ^ (k + m) * (r / 2 ^ (k + m)) := by
  have h := Nat.mod_add_div (r / 2 ^ k) (2 ^ m)
  rw [bitField] at hc
  rw [hc, Nat.zero_add, Nat.div_div_eq_div_mul, ← pow_add] at h
  rw [pow_add, Nat.mul_assoc, ← pow_add, h, Nat.mod_add_div]

theorem bitField_add_of_le {v k r lo n : Nat} (h : lo + n ≤ k) : bitField (v * 2 ^ k + r) lo n = bitField r lo n := by
  rw [← bitField_mod _ k _ _ h, Nat.mul_add_mod_self_right, bitField_mod _ k _ _ h]

theorem bitField_add_of_ge {v m k r lo n : Nat} (hv : v < 2 ^ m) (h : k + m ≤ lo) (hc : bitField r k m = 0) :
    bitField (v * 2 ^ k + r) lo n = bitField r lo n := by
  have hlow : v * 2 ^ k + r % 2 ^ k < 2 ^ (k + m) := by
    have := Nat.mod_lt r (Nat.two_pow_pos k)
    calc v * 2 ^ k + r % 2 ^ k < (v + 1) * 2 ^ k := by rw [Nat.succ_mul]; omega
      _ ≤ 2 ^ m * 2 ^ k := Nat.mul_le_mul_right _ hv
      _ = 2 ^ (k + m) := by rw [← pow_add, Nat.add_comm]
  have hr := split_of_clear hc
  obtain ⟨j, rfl⟩ := Nat.exists_eq_add_of_le h
  have key : (v * 2 ^ k + r) / 2 ^ (k + m) = r / 2 ^ (k + m) := by
    rw [hr, ← Nat.add_assoc, Nat.add_mul_div_left _ _ (Nat.two_pow_pos _), Nat.div_eq_of_lt hlow, ← hr, Nat.zero_add]
  rw [bitField, bitField, pow_add 2 (k + m), ← Nat.div_div_eq_div_mul, ← Nat.div_div_eq_div_mul, key]

theorem bitField_add_here {v m k r n : Nat} (hv : v < 2 ^ m) (hn : m ≤ n) (hc : bitField r k m = 0) :
    bitField (v * 2 ^ k + r) k n = v + bitField r k n := by
  obtain ⟨j, rfl⟩ := Nat.exists_eq_add_of_le hn
  have hr : r / 2 ^ k = 2 ^ m * (r / 2 ^ k / 2 ^ m) := (Nat.mul_div_cancel' (Nat.dvd_of_mod_eq_zero hc)).symm
  rw [bitField, bitField, Nat.add_comm, Nat.add_mul_div_right _ _ (Nat.two_pow_pos k), hr, pow_add, Nat.mul_mod_mul_left,
    Nat.mod_mul,
    Nat.mul_add_mod, Nat.mod_eq_of_lt hv, Nat.mul_add_div (Nat.two_pow_pos m), Nat.div_eq_of_lt hv, Nat.add_zero]

/-! ## Words packed from fields

The side conditions of the rules below are Booleans that the positions and widths of the fields decide by evaluation, whatever
the fields' values: `rfl` proves them, and `simp (disch := exact id rfl)` applies the rules. -/

/-- A field of a word: its lowest bit, its width, and a value that keeps to the width. -/
inductive WordField where
  | mk (lo width val : Nat) (fits : val < 2 ^ width)

/-- Whether the `m` bits from `k` up and the `n` bits from `lo` up have none in common. -/
def bitsApart (k m lo n : Nat) : Bool := Nat.ble (k + m) lo || Nat.ble (lo + n) k

/-- A word put together from a base and fields. -/
def packFields (base : Nat) : List WordField → Nat
  | [] => base
  | .mk lo _ val _ :: t => val * 2 ^ lo + packFields base t

/-- Whether each field lies apart from the `n` bits from `lo` up or begins there and ends among them. -/
def wholeIn (lo n : Nat) : List WordField → Bool
  | [] => true
  | .mk k m _ _ :: t => (bitsApart k m lo n || (Nat.beq k lo && Nat.ble m n)) && wholeIn lo n t

/-- Whether each field lies apart from the `n` bits from `lo` up. -/
def clearIn (lo n : Nat) : List WordField → Bool
  | [] => true
  | .mk k m _ _ :: t => bitsApart k m lo n && clearIn lo n t

/-- Whether no two fields meet and the base is zero in each. -/
def laidOut (base : Nat) : List WordField → Bool
  | [] => true
  | .mk lo width _ _ :: t => Nat.beq (bitField base lo width) 0 && clearIn lo width t && laidOut base t

/-- What stands in the `n` bits from `lo` up. -/
def readFields (base lo n : Nat) : List WordField → Nat
  | [] => base >>> lo &&& (2 ^ n - 1)
  | .mk k m val _ :: t => if bitsApart k m lo n then readFields base lo n t else val + readFields base lo n t

theorem readFields_nil (base lo n : Nat) : readFields base lo n [] = base >>> lo &&& (2 ^ n - 1) := rfl

theorem readFields_apart {base lo n k m val : Nat} {fits : val < 2 ^ m} {t : List WordField} (h : bitsApart k m lo n = true) :
    readFields base lo n (.mk k m val fits :: t) = readFields base lo n t := if_pos h

theorem readFields_here {base lo n k m val : Nat} {fits : val < 2 ^ m} {t : List WordField} (h : bitsApart k m lo n = false) :
    readFields base lo n (.mk k m val fits :: t) = val + readFields base lo n t := if_neg (by simp [h])

theorem readFields_nil_eq (base lo n : Nat) : readFields base lo n [] = bitField base lo n := by
  rw [readFields, Nat.and_two_pow_sub_one_eq_mod, Nat.shiftRight_eq_div_pow, bitField]

theorem readFields_of_clearIn {base lo n : Nat} {l : List WordField} (h : clearIn lo n l = true) :
    readFields base lo n l = bitField base lo n := by
  induction l with
  | nil => exact readFields_nil_eq base lo n
  | cons f t ih =>
    obtain ⟨k, m, val, fits⟩ := f
    rw [clearIn, Bool.and_eq_true] at h
    rw [readFields_apart h.1, ih h.2]

theorem wholeIn_of_clearIn {lo n : Nat} {l : List WordField} (h : clearIn lo n l = true) : wholeIn lo n l = true := by
  induction l with
  | nil => rfl
  | cons f t ih =>
    obtain ⟨k, m, val, fits⟩ := f
    rw [clearIn, Bool.and_eq_true] at h
    rw [wholeIn, h.1, ih h.2]; rfl

/-- A window over a packed word reads the fields inside it. -/
theorem bitField_packFields {base lo n : Nat} {l : List WordField} (hlaid : laidOut base l = true) (hwhole :
    wholeIn lo n l = true) :
    bitField (packFields base l) lo n = readFields base lo n l := by
  induction l generalizing lo n with
  | nil => exact (readFields_nil_eq base lo n).symm
  | cons f t ih =>
    obtain ⟨k, m, val, fits⟩ := f
    simp only [laidOut, Bool.and_eq_true, Nat.beq_eq] at hlaid
    simp only [wholeIn, Bool.and_eq_true, Bool.or_eq_true] at hwhole
    obtain ⟨⟨hbase, hclear⟩, hlaid⟩ := hlaid
    obtain ⟨hf, hwhole⟩ := hwhole
    have hzero : bitField (packFields base t) k m = 0 := by
      rw [ih hlaid (wholeIn_of_clearIn hclear), readFields_of_clearIn hclear, hbase]
    rw [packFields, readFields, ← ih hlaid hwhole]
    split
    next ha =>
      simp only [bitsApart, Bool.or_eq_true, Nat.ble_eq] at ha
      exact ha.elim (fun h => bitField_add_of_ge fits h hzero) bitField_add_of_le
    next ha =>
      obtain ⟨rfl, hm⟩ : k = lo ∧ m ≤ n := by simpa only [Bool.and_eq_true, Nat.beq_eq, Nat.ble_eq] using hf.resolve_left ha
      exact bitField_add_here fits hm hzero

/-- Whether neither a base nor a field over it reaches bit `k`. -/
def keepBelow (k base : Nat) : List WordField → Bool
  | [] => Nat.blt base (2 ^ k)
  | .mk lo width _ _ :: t => Nat.ble (lo + width) k && keepBelow k base t

theorem clearIn_of_keepBelow {k base : Nat} {l : List WordField} (h : keepBelow k base l = true) : base < 2 ^ k ∧ ∀ n,
    clearIn k n l = true := by
  induction l with
  | nil => exact ⟨by simpa [keepBelow, Nat.blt_eq] using h, fun _ => rfl⟩
  | cons f t ih =>
    obtain ⟨lo, width, val, fits⟩ := f
    rw [keepBelow, Bool.and_eq_true] at h
    exact ⟨(ih h.2).1, fun n => by rw [clearIn, (ih h.2).2 n, bitsApart, h.1]; rfl⟩

theorem packFields_lt {k base : Nat} {l : List WordField} (hlaid : laidOut base l = true) (h : keepBelow k base l = true) :
    packFields base l < 2 ^ k := by
  obtain ⟨hb, hc⟩ := clearIn_of_keepBelow h
  exact lt_of_bitField_above fun n => by
    rw [bitField_packFields hlaid (wholeIn_of_clearIn (hc n)), readFields_of_clearIn (hc n), bitField_of_lt hb]

/-! ## Operands as fields

The equations of this part turn a word that `packBits` puts together into one of fields: each operand is placed as a field of
the width that its type keeps to. -/

/-- A value placed above a word. -/
def placeAt (k v r : Nat) : Nat := v * 2 ^ k + r

theorem packBits_cons (B k v : Nat) (t : List (Nat × Nat)) : packBits B ((k, v) :: t) = placeAt k v (packBits B t) := rfl

theorem packBits_nil (B : Nat) : packBits B [] = packFields B [] := rfl

/-- A value is placed as a field of a width that it keeps to. -/
abbrev PlacedAs (v m : Nat) (h : v < 2 ^ m) : Prop :=
  ∀ (k B : Nat) (l : List WordField), placeAt k v (packFields B l) = packFields B (.mk k m v h :: l)

theorem registers_placed : (∀ r : Fin 4, PlacedAs r.val 2 r.isLt) ∧ (∀ r : Fin 8, PlacedAs r.val 3 r.isLt) ∧
    (∀ r : Fin 16, PlacedAs r.val 4 r.isLt) ∧ (∀ r : Fin 64, PlacedAs r.val 6 r.isLt) ∧ (∀ r : Fin 128,
      PlacedAs r.val 7 r.isLt) :=
  ⟨fun _ _ _ _ => rfl, fun _ _ _ _ => rfl, fun _ _ _ _ => rfl, fun _ _ _ _ => rfl, fun _ _ _ _ => rfl⟩

theorem bitOf_lt (b : Bool) : bitOf b < 2 ^ 1 := by cases b <;> decide

theorem numbers_placed : (∀ (n : Nat) (v : BitVec n), PlacedAs v.toNat n v.isLt) ∧ (∀ b, PlacedAs (bitOf b) 1 (bitOf_lt b)) :=
  ⟨fun _ _ _ _ _ => rfl, fun _ _ _ _ => rfl⟩

theorem ExtW.code_lt (e : ExtW) : e.code < 2 ^ 2 := by cases e <;> decide
theorem Cond.code_lt (e : Cond) : e.code < 2 ^ 3 := by cases e <;> decide
theorem VCond.code_lt (e : VCond) : e.code < 2 ^ 3 := by cases e <;> decide
theorem FpFmt.code_lt (e : FpFmt) : e.code < 2 ^ 2 := by cases e <;> decide
theorem FloatFmt.code_lt (e : FloatFmt) : e.code < 2 ^ 3 := by cases e <;> decide
theorem IntFmt.code_lt (e : IntFmt) : e.code < 2 ^ 3 := by cases e <;> decide
theorem EWidth.code_lt (e : EWidth) : e.code < 2 ^ 2 := by cases e <;> decide
theorem CvtDir.code_lt (e : CvtDir) : e.code < 2 ^ 1 := by cases e <;> decide
theorem AField.code_lt (e : AField) : e.code < 2 ^ 2 := by cases e <;> decide
theorem AtomOp.code_lt (e : AtomOp) : e.code < 2 ^ 3 := by cases e <;> decide
theorem FenceKind.code_lt (e : FenceKind) : e.code < 2 ^ 2 := by cases e <;> decide
theorem Xfm.code_lt (e : Xfm) : e.code < 2 ^ 4 := by cases e <;> decide
theorem Scope.code_lt (e : Scope) : e.code < 2 ^ 2 := by cases e <;> decide
theorem HaltOp.code_lt (e : HaltOp) : e.code < 2 ^ 2 := by cases e <;> decide
theorem RndSel.code_lt (e : RndSel) : e.code < 2 ^ 2 := by cases e <;> decide
theorem SatSel.code_lt (e : SatSel) : e.code < 2 ^ 2 := by cases e <;> decide
theorem GWidth.code_lt (e : GWidth) : e.code < 2 ^ 2 := by cases e <;> decide

theorem codes_placed : (∀ e : ExtW, PlacedAs e.code 2 e.code_lt) ∧
    (∀ e : Cond, PlacedAs e.code 3 e.code_lt) ∧
    (∀ e : VCond, PlacedAs e.code 3 e.code_lt) ∧
    (∀ e : FpFmt, PlacedAs e.code 2 e.code_lt) ∧
    (∀ e : FloatFmt, PlacedAs e.code 3 e.code_lt) ∧
    (∀ e : IntFmt, PlacedAs e.code 3 e.code_lt) ∧
    (∀ e : EWidth, PlacedAs e.code 2 e.code_lt) ∧
    (∀ e : CvtDir, PlacedAs e.code 1 e.code_lt) ∧
    (∀ e : AField, PlacedAs e.code 2 e.code_lt) ∧
    (∀ e : AtomOp, PlacedAs e.code 3 e.code_lt) ∧
    (∀ e : FenceKind, PlacedAs e.code 2 e.code_lt) ∧
    (∀ e : Xfm, PlacedAs e.code 4 e.code_lt) ∧
    (∀ e : Scope, PlacedAs e.code 2 e.code_lt) ∧
    (∀ e : HaltOp, PlacedAs e.code 2 e.code_lt) ∧
    (∀ e : RndSel, PlacedAs e.code 2 e.code_lt) ∧
    (∀ e : SatSel, PlacedAs e.code 2 e.code_lt) ∧
    (∀ e : GWidth, PlacedAs e.code 2 e.code_lt) := by
  and_intros <;> exact fun _ _ _ _ => rfl

theorem codes_decode : (∀ e, ExtW.ofCode e.code = .ok e) ∧
    (∀ e, Cond.ofCode e.code = .ok e) ∧
    (∀ e, VCond.ofCode e.code = .ok e) ∧
    (∀ e, FpFmt.ofCode e.code = .ok e) ∧
    (∀ e, FloatFmt.ofCode e.code = .ok e) ∧
    (∀ e, IntFmt.ofCode e.code = .ok e) ∧
    (∀ e, EWidth.ofCode e.code = .ok e) ∧
    (∀ e, CvtDir.ofCode e.code = .ok e) ∧
    (∀ e, AField.ofCode e.code = .ok e) ∧
    (∀ e, AtomOp.ofCode e.code = .ok e) ∧
    (∀ e, FenceKind.ofCode e.code = .ok e) ∧
    (∀ e, Xfm.ofCode e.code = .ok e) ∧
    (∀ e, Scope.ofCode e.code = .ok e) ∧
    (∀ e, HaltOp.ofCode e.code = .ok e) ∧
    (∀ e, RndSel.ofCode e.code = .ok e) ∧
    (∀ e, SatSel.ofCode e.code = .ok e) ∧
    (∀ e, GWidth.ofCode e.code = .ok e) := by
  and_intros <;> intro e <;> cases e <;> rfl

theorem ok_bind {ε α β : Type} (a : α) (f : α → Except ε β) : (Except.ok a >>= f) = f a := rfl

theorem bitOf_beq_one (b : Bool) : (bitOf b == 1) = b := by cases b <;> rfl

/-! ## The common fields of a modifier word, and immediates -/

/-- The ten bits of a modifier word that its common fields take, from bit 21 up (R50). -/
def VMod.top (m : VMod) : Nat := m.bits / 2 ^ 21

/-- The common fields that ten bits stand for. -/
def VMod.ofTop (t : Nat) : Except Nat VMod := VMod.ofExt (t * 2 ^ 21)

/-- The common fields of a modifier word as fields. -/
def VMod.fields : VMod → List WordField
  | ⟨rd, st, none⟩ => [.mk 28 2 rd.code rd.code_lt, .mk 26 2 st.code st.code_lt]
  | ⟨rd, st, some (r, z)⟩ => [.mk 28 2 rd.code rd.code_lt, .mk 26 2 st.code st.code_lt, .mk 25 1 1 (by decide),
      .mk 24 1 (bitOf z) (bitOf_lt z), .mk 21 3 r.val r.isLt]

theorem VMod.bits_eq : ∀ m : VMod, m.bits = packFields 0 m.fields
  | ⟨rd, st, none⟩ => by simp [VMod.bits, VMod.fields, packFields]
  | ⟨rd, st, some (r, z)⟩ => by simp [VMod.bits, VMod.fields, packFields, Nat.add_assoc]

theorem VMod.bits_lt : ∀ m : VMod, m.bits < 2 ^ 31
  | ⟨_, _, none⟩ => VMod.bits_eq _ ▸ packFields_lt rfl rfl
  | ⟨_, _, some (_, _)⟩ => VMod.bits_eq _ ▸ packFields_lt rfl rfl

theorem VMod.top_lt (m : VMod) : m.top < 2 ^ 10 := Nat.div_lt_of_lt_mul m.bits_lt

theorem VMod.ofExt_bits (m : VMod) : VMod.ofExt m.bits = .ok m := by
  rw [m.bits_eq]
  obtain ⟨rd, st, _ | ⟨r, z⟩⟩ := m <;>
    simp (disch := exact id rfl) only [VMod.fields, VMod.ofExt, bitAt, bitField_packFields, readFields_nil, readFields_apart,
      readFields_here, codes_decode, ok_bind, bitOf_beq_one, Nat.reduceSub, Nat.reducePow, Nat.reduceShiftRight, Nat.reduceAnd,
      Nat.reduceBEq, Bool.false_eq_true, BEq.rfl, ↓reduceIte, Nat.add_zero, Fin.ofNat_val_eq_self]

/-- A field inside a window can be read in the window put back in its place. -/
theorem bitField_window {w k m i n : Nat} (h : i + n ≤ m) : bitField (bitField w k m * 2 ^ k) (k + i) n = bitField w (k + i) n :=
  calc bitField (bitField w k m * 2 ^ k) (k + i) n
      = bitField (w / 2 ^ k % 2 ^ m) i n := by
        rw [bitField, bitField, bitField, pow_add, ← Nat.div_div_eq_div_mul, Nat.mul_div_cancel _ (Nat.two_pow_pos k)]
    _ = bitField (w / 2 ^ k) i n := bitField_mod _ _ _ _ h
    _ = bitField w (k + i) n := by rw [bitField, bitField, Nat.div_div_eq_div_mul, pow_add]

/-- The decoder reads the common fields from bits 21 to 30 alone. -/
theorem VMod.ofExt_eq_ofTop (x : Nat) : VMod.ofExt x = VMod.ofTop (bitField x 21 10) := by
  have h (i n : Nat) (hi : i + n ≤ 10) := bitField_window (w := x) (k := 21) hi
  simp only [VMod.ofTop, VMod.ofExt, bitAt, h 7 3 (by decide), h 5 2 (by decide), h 4 1 (by decide), h 0 3 (by decide),
    h 3 1 (by decide), Nat.reduceAdd]
  rfl

theorem VMod.bits_mod : ∀ m : VMod, bitField m.bits 0 21 = 0
  | ⟨_, _, none⟩ => by rw [VMod.bits_eq, bitField_packFields rfl rfl]; rfl
  | ⟨_, _, some (_, _)⟩ => by rw [VMod.bits_eq, bitField_packFields rfl rfl]; rfl

theorem VMod.top_eq (m : VMod) : m.bits = m.top * 2 ^ 21 := by
  have h := m.bits_mod
  rw [bitField, pow_zero, Nat.div_one] at h
  exact (Nat.div_mul_cancel (Nat.dvd_of_mod_eq_zero h)).symm

theorem VMod.ofTop_top (m : VMod) : VMod.ofTop m.top = .ok m := by
  rw [VMod.ofTop, ← m.top_eq, m.ofExt_bits]

/-- The common fields are placed as one field. -/
theorem VMod.bits_placed (m : VMod) : m.bits = packFields 0 [.mk 21 10 m.top m.top_lt] := by
  rw [packFields, packFields, Nat.add_zero, ← m.top_eq]

theorem packFields_packFields_nil (B : Nat) (l : List WordField) : packFields (packFields B l) [] = packFields B l := rfl

theorem Imm.low_lt (v : Imm) : v.low < 2 ^ 12 := by
  cases v with
  | short v => exact v.isLt
  | long v => exact Nat.mod_lt _ (by decide)

theorem Imm.low_placed (v : Imm) : PlacedAs v.low 12 v.low_lt := fun _ _ _ => rfl

theorem Imm.ext_lt (v : Imm) : ∀ e, v.ext = some e → e < 2 ^ 31 := by
  cases v with
  | short v => simp [Imm.ext]
  | long v =>
    rintro _ ⟨⟩
    exact Nat.div_lt_of_lt_mul v.isLt

/-- An immediate is the one of its 12 bits in the slot word and of its extension (R46, R47). -/
theorem Imm.ofBits_low_ext (v : Imm) : Imm.ofBits v.low v.ext = v := by
  cases v with
  | short v => simp [Imm.ofBits, Imm.low, Imm.ext]
  | long v =>
    have he : v.toNat / 4096 < 2 ^ 31 := Nat.div_lt_of_lt_mul v.isLt
    simp only [Imm.ofBits, Imm.low, Imm.ext, Nat.mod_eq_of_lt he, Nat.div_add_mod', BitVec.ofNat_toNat, BitVec.setWidth_eq]

theorem DrainX.bits_placed (x : DrainX) : x.bits = packFields 0 [.mk 19 12 x.dest.toNat x.dest.isLt,
    .mk 14 5 x.ofmt.toNat x.ofmt.isLt,
    .mk 12 2 x.rnd.code x.rnd.code_lt, .mk 10 2 x.sat.code x.sat.code_lt, .mk 9 1 (bitOf x.mx) (bitOf_lt _),
    .mk 8 1 (bitOf x.pk) (bitOf_lt _), .mk 0 8 x.res.toNat x.res.isLt] := by
  simp [DrainX.bits, packFields, Nat.add_assoc]

theorem LDrainX.bits_placed (x : LDrainX) : x.bits = packFields 0 [.mk 14 5 x.ofmt.toNat x.ofmt.isLt,
    .mk 12 2 x.rnd.code x.rnd.code_lt,
    .mk 10 2 x.sat.code x.sat.code_lt, .mk 9 1 (bitOf x.mx) (bitOf_lt _), .mk 7 2 x.cbx.val x.cbx.isLt] := by
  simp [LDrainX.bits, packFields, Nat.add_assoc]

theorem DrainX.bits_lt (x : DrainX) : x.bits < 2 ^ 31 := by
  rw [x.bits_placed]
  exact packFields_lt rfl rfl

theorem LDrainX.bits_lt (x : LDrainX) : x.bits < 2 ^ 31 := by
  rw [x.bits_placed]
  exact packFields_lt rfl rfl

theorem DrainX.ofExt_bits (x : DrainX) : DrainX.ofExt x.bits = .ok x := by
  rw [x.bits_placed]
  simp (disch := exact id rfl) only [DrainX.ofExt, bitAt, bitField_packFields, readFields_nil, readFields_apart,
    readFields_here, Nat.reduceSub, Nat.reducePow, Nat.reduceShiftRight, Nat.reduceAnd, Nat.add_zero, codes_decode, ok_bind,
    bitOf_beq_one, BitVec.ofNat_toNat, BitVec.setWidth_eq]

theorem LDrainX.ofExt_bits (x : LDrainX) : LDrainX.ofExt x.bits = .ok x := by
  rw [x.bits_placed]
  simp (disch := exact id rfl) only [LDrainX.ofExt, bitAt, bitField_packFields, readFields_nil, readFields_apart,
    readFields_here, Nat.reduceSub, Nat.reducePow, Nat.reduceShiftRight, Nat.reduceAnd, Nat.add_zero, codes_decode, ok_bind,
    bitOf_beq_one, BitVec.ofNat_toNat, BitVec.setWidth_eq, Fin.ofNat_val_eq_self]

/-! ## Instructions that decode

An instruction is read back in three steps: its word is written as fields, the decoder's windows read the fields, and the codes
and registers read lead back to its operands. The three forms of extension have an introduction rule each. -/

/-- Every window of `w` below the S and X bits reads as that of `W`. -/
abbrev ReadsAs (w W : Nat) : Prop := ∀ lo n, Nat.ble (lo + n) 30 = true → bitField w lo n = bitField W lo n

/-- The decoder's codes lead back from an instruction's words to the instruction, whatever the S and X bits, and where it
takes no extension whatever follows. -/
structure Decodes (i : Instr) : Prop where
  word_lt : slotWord i < 2 ^ 30
  ext_lt : ∀ e, slotExt i = some e → e < 2 ^ 31
  ext_none : takesExt i = false → slotExt i = none
  reads : ∀ w x, ReadsAs w (slotWord i) → (takesExt i = true → x = slotExt i) → extract w x = .ok i

theorem nonZero_eq_some {n e : Nat} (h : nonZero n = some e) : e = n := by
  unfold nonZero at h
  split at h
  · cases h
  · exact (Option.some.inj h).symm

theorem extOr0_nonZero {n : Nat} (h : n < 2 ^ 31) : extOr0 (nonZero n) = n := by
  unfold nonZero
  split
  next h0 => exact h0.symm
  next h0 => exact Nat.mod_eq_of_lt h

/-- An instruction that takes no extension. -/
theorem Decodes.plain {i : Instr} {B : Nat} {fs : List (Nat × Nat)} (hW : slotWord i = packBits B fs) (hX : slotExt i = none)
    (h : packBits B fs < 2 ^ 30 ∧ ∀ w x, ReadsAs w (packBits B fs) → extract w x = .ok i) : Decodes i where
  word_lt := hW ▸ h.1
  ext_lt := fun e he => by simp [hX] at he
  ext_none := fun _ => hX
  reads := fun w x hw _ => h.2 w x (hW ▸ hw)

/-- An instruction with an extension that is absent where its bits are zero. -/
theorem Decodes.extended {i : Instr} {B N : Nat} {fs : List (Nat × Nat)} (hW : slotWord i = packBits B fs) (hX :
    slotExt i = nonZero N)
    (hT : takesExt i = true)
    (h : packBits B fs < 2 ^ 30 ∧ N < 2 ^ 31 ∧ ∀ w x,
      ReadsAs w (packBits B fs) → extOr0 x = N → extract w x = .ok i) : Decodes i where
  word_lt := hW ▸ h.1
  ext_lt := fun e he => nonZero_eq_some (hX ▸ he) ▸ h.2.1
  ext_none := fun hf => by simp [hT] at hf
  reads := fun w x hw hx => h.2.2 w x (hW ▸ hw) (by rw [hx hT, hX, extOr0_nonZero h.2.1])

/-- An instruction with an immediate of 12 or 43 bits. -/
theorem Decodes.immediate {i : Instr} {B : Nat} {fs : List (Nat × Nat)} {v : Imm} (hW : slotWord i = packBits B fs) (hX :
    slotExt i = v.ext)
    (hT : takesExt i = true) (h : packBits B fs < 2 ^ 30 ∧ ∀ w,
      ReadsAs w (packBits B fs) → extract w v.ext = .ok i) : Decodes i where
  word_lt := hW ▸ h.1
  ext_lt := fun e he => v.ext_lt e (hX ▸ he)
  ext_none := fun hf => by simp [hT] at hf
  reads := fun w x hw hx => by rw [hx hT, hX]; exact h.2 w (hW ▸ hw)

/-! ### The encoding tables, by unit -/

@[simp] theorem decodes_scalar :
    (∀ d a b, Decodes (.add d a b)) ∧ (∀ d a b, Decodes (.sub d a b)) ∧ (∀ d a b, Decodes (.and d a b)) ∧
    (∀ d a b, Decodes (.or d a b)) ∧ (∀ d a b, Decodes (.xor d a b)) ∧ (∀ d a b, Decodes (.andn d a b)) ∧
    (∀ d a b, Decodes (.shl d a b)) ∧ (∀ d a b, Decodes (.shr d a b)) ∧ (∀ d a b, Decodes (.sra d a b)) ∧
    (∀ d a b, Decodes (.rol d a b)) ∧ (∀ d a b, Decodes (.min d a b)) ∧ (∀ d a b, Decodes (.max d a b)) ∧
    (∀ d a b, Decodes (.minn d a b)) ∧ (∀ d a b, Decodes (.maxn d a b)) ∧ (∀ d a, Decodes (.clz d a)) ∧
    (∀ d a, Decodes (.ctz d a)) ∧ (∀ d a, Decodes (.popc d a)) ∧ (∀ d a w, Decodes (.sext d a w)) ∧
    (∀ d a w, Decodes (.zext d a w)) ∧ (∀ c p a b, Decodes (.cmp c p a b)) ∧ (∀ d a b, Decodes (.pand d a b)) ∧
    (∀ d a b, Decodes (.por d a b)) ∧ (∀ d a, Decodes (.pnot d a)) ∧ (∀ d a b q, Decodes (.sel d a b q)) ∧
    (∀ d a b, Decodes (.mul d a b)) ∧ (∀ d a b, Decodes (.mulh d a b)) ∧ (∀ d a b, Decodes (.mulhn d a b)) ∧
    (∀ d a b, Decodes (.div d a b)) ∧ (∀ d a b, Decodes (.divn d a b)) ∧ (∀ d a b, Decodes (.rem d a b)) ∧
    (∀ d a b, Decodes (.remn d a b)) ∧ (∀ d a n, Decodes (.shli d a n)) ∧ (∀ d a n, Decodes (.shri d a n)) ∧
    (∀ d a n, Decodes (.srai d a n)) ∧ (∀ d a, Decodes (.amov d a)) ∧ (∀ d a b, Decodes (.aadd d a b)) ∧
    (∀ d a, Decodes (.ainc d a)) ∧ (∀ d a, Decodes (.amod d a)) ∧ (∀ d a f, Decodes (.aget d a f)) := by
  and_intros <;> intros <;> refine .plain rfl rfl ?_ <;> simp only [packBits_cons, packBits_nil, registers_placed,
    numbers_placed, codes_placed] <;>
    refine ⟨packFields_lt rfl rfl, fun w x hw => ?_⟩ <;>
    simp (disch := exact id rfl) only [extract, decMajor00, decMajor01, decMajor06, decMajor07, decMajor08, decMajor10, reg6,
      reg4, reg3, bits, hw, bitField_packFields, readFields_nil, readFields_apart, readFields_here, codes_decode, ok_bind,
      Fin.ofNat_val_eq_self, BitVec.ofNat_toNat, BitVec.setWidth_eq, Nat.reduceSub, Nat.reducePow, Nat.reduceShiftRight,
      Nat.reduceAnd, Nat.reduceEqDiff, add_zero, or_self, ↓reduceIte]

/-- Instructions with an immediate of 12 or 43 bits (R46, R47). -/
@[simp] theorem decodes_immediate :
    (∀ d a i, Decodes (.addi d a i)) ∧ (∀ d a i, Decodes (.andi d a i)) ∧ (∀ d a i, Decodes (.ori d a i)) ∧
    (∀ d a i, Decodes (.xori d a i)) ∧ (∀ c p a i, Decodes (.cmpi c p a i)) ∧ (∀ d i, Decodes (.movi d i)) ∧
    (∀ d a i, Decodes (.aaddi d a i)) := by
  and_intros <;> intros <;> refine .immediate rfl rfl rfl ?_ <;> simp only [packBits_cons, packBits_nil, registers_placed,
    codes_placed, Imm.low_placed] <;>
    refine ⟨packFields_lt rfl rfl, fun w hw => ?_⟩ <;>
    simp (disch := exact id rfl) only [extract, decMajor02, decMajor03, decMajor04, decMajor05, decMajor09, decMajor0A,
      decMajor11, reg6, reg4, reg3, hw, Imm.ofBits_low_ext, bitField_packFields, readFields_nil, readFields_apart,
      readFields_here, codes_decode, ok_bind, Fin.ofNat_val_eq_self, Nat.reduceSub, Nat.reducePow, Nat.reduceShiftRight,
      Nat.reduceAnd, Nat.reduceEqDiff, add_zero, or_self, ↓reduceIte]

@[simp] theorem decodes_vector_float :
    (∀ e d a b m roff, Decodes (.vadd e d a b m roff)) ∧ (∀ e d a b m roff, Decodes (.vsub e d a b m roff)) ∧
    (∀ e d a b m roff, Decodes (.vmul e d a b m roff)) ∧ (∀ e d a b m roff, Decodes (.vfma e d a b m roff)) ∧
    (∀ e d a b m roff, Decodes (.vfms e d a b m roff)) ∧ (∀ e d a b m, Decodes (.vmin e d a b m)) ∧
    (∀ e d a b m, Decodes (.vmax e d a b m)) ∧ (∀ e c d a b m, Decodes (.vcmp e c d a b m)) ∧
    (∀ e d a m, Decodes (.vabs e d a m)) ∧ (∀ e d a m, Decodes (.vneg e d a m)) ∧
    (∀ e d a b m selm, Decodes (.vsel e d a b m selm)) ∧ (∀ e d a n m, Decodes (.vrnd e d a n m)) ∧
    (∀ e d a n m, Decodes (.vexp2 e d a n m)) ∧ (∀ e d a n m, Decodes (.vlog2 e d a n m)) ∧
    (∀ e d a n m, Decodes (.vrcp e d a n m)) ∧ (∀ e d a n m, Decodes (.vrsq e d a n m)) ∧
    (∀ e d a n m, Decodes (.vsig e d a n m)) ∧ (∀ e d a n m, Decodes (.vtanh e d a n m)) ∧
    (∀ e d a n m acc, Decodes (.vredsum e d a n m acc)) ∧ (∀ e d a m acc, Decodes (.vredmax e d a m acc)) ∧
    (∀ e d a m acc, Decodes (.vredmin e d a m acc)) ∧ (∀ dir i f d a n m, Decodes (.vcvtInt dir i f d a n m)) := by
  and_intros <;> intros <;> refine .extended rfl rfl rfl ?_ <;> simp only [packBits_cons, packBits_nil, registers_placed,
    numbers_placed, codes_placed, VMod.bits_placed, packFields_packFields_nil] <;>
    refine ⟨packFields_lt rfl rfl, packFields_lt rfl rfl, fun w x hw hx => ?_⟩ <;>
    simp (disch := exact id rfl) only [extract, decMajor18, decMajor19, decMajor1A, decMajor1C, reg6, reg3, bits, bitAt, hw,
      hx, VMod.ofExt_eq_ofTop, VMod.ofTop_top, bitField_packFields, readFields_nil, readFields_apart, readFields_here,
      codes_decode, ok_bind, bitOf_beq_one, Fin.ofNat_val_eq_self, BitVec.ofNat_toNat, BitVec.setWidth_eq, Nat.reduceSub,
      Nat.reducePow, Nat.reduceShiftRight, Nat.reduceAnd, Nat.reduceEqDiff, add_zero, or_self, ↓reduceIte]

@[simp] theorem decodes_vector_int :
    (∀ e d a b m, Decodes (.viadd e d a b m)) ∧ (∀ e d a b m, Decodes (.visub e d a b m)) ∧
    (∀ e d a b m, Decodes (.vimul e d a b m)) ∧ (∀ e d a b m, Decodes (.vimin e d a b m)) ∧
    (∀ e d a b m, Decodes (.vimax e d a b m)) ∧ (∀ e d a b m imm amt, Decodes (.vshl e d a b m imm amt)) ∧
    (∀ e d a b m imm amt, Decodes (.vshr e d a b m imm amt)) ∧ (∀ e d a b m imm amt, Decodes (.vsra e d a b m imm amt)) ∧
    (∀ e d a b m, Decodes (.vand e d a b m)) ∧ (∀ e d a b m, Decodes (.vor e d a b m)) ∧
    (∀ e d a b m, Decodes (.vxor e d a b m)) ∧ (∀ e d a b m, Decodes (.vperm e d a b m)) ∧
    (∀ e d a m scl idx, Decodes (.vbcast e d a m scl idx)) ∧ (∀ e d a b m, Decodes (.vzip e d a b m)) ∧
    (∀ e d a b m, Decodes (.vunzip e d a b m)) ∧ (∀ e d a b m sh, Decodes (.vslide e d a b m sh)) ∧
    (∀ e d a m, Decodes (.viota e d a m)) ∧ (∀ e d a b m sgn, Decodes (.vext e d a b m sgn)) ∧
    (∀ e d a b m, Decodes (.vins e d a b m)) ∧ (∀ d a b m hk msk wc p, Decodes (.vhusk d a b m hk msk wc p)) ∧
    (∀ d a m pfmt res, Decodes (.vpack d a m pfmt res)) ∧ (∀ d a m, Decodes (.vunpack d a m)) ∧
    (∀ d l n m adv w32, Decodes (.vlaid d l n m adv w32)) ∧
    (∀ d a n m fout sin cbx kreg sb, Decodes (.vqnt d a n m fout sin cbx kreg sb)) ∧ (∀ d a b m, Decodes (.mand d a b m)) ∧
    (∀ d a b m, Decodes (.mor d a b m)) ∧ (∀ d a m, Decodes (.mnot d a m)) ∧ (∀ d a m, Decodes (.mpop d a m)) ∧
    (∀ d a f rnd sat re off, Decodes (.tcast d a f rnd sat re off)) := by
  and_intros <;> intros <;> refine .extended rfl rfl rfl ?_ <;> simp only [packBits_cons, packBits_nil, registers_placed,
    numbers_placed, codes_placed, VMod.bits_placed, packFields_packFields_nil] <;>
    refine ⟨packFields_lt rfl rfl, packFields_lt rfl rfl, fun w x hw hx => ?_⟩ <;>
    simp (disch := exact id rfl) only [extract, decMajor1D, decMajor1E, decMajor1F, decMajor21, decMajor22, decMajor28, reg6,
      reg4, reg3, reg2, bits, bitAt, hw, hx, VMod.ofExt_eq_ofTop, VMod.ofTop_top, bitField_packFields, readFields_nil,
      readFields_apart, readFields_here, codes_decode, ok_bind, bitOf_beq_one, Fin.ofNat_val_eq_self, BitVec.ofNat_toNat,
      BitVec.setWidth_eq, Nat.reduceSub, Nat.reducePow, Nat.reduceShiftRight, Nat.reduceAnd, Nat.reduceEqDiff, add_zero,
      or_self, false_and, ↓reduceIte]

/-- Vector instructions whose formats the decoder checks (R49, R53, R132). -/
@[simp] theorem decodes_vector_checked :
    (∀ df sf d a n m, cvtPairOk df sf = true → Decodes (.vcvtFp df sf d a n m)) ∧
    (∀ e d a b m, dotFmtOk e = true → Decodes (.vidot e d a b m)) ∧
    (∀ e d a m, widenFmtOk 2 e = true → Decodes (.vwidenX2 e d a m)) ∧
    (∀ e d a m, widenFmtOk 4 e = true → Decodes (.vwidenX4 e d a m)) ∧
    (∀ e d a m, narrowFmtOk 2 e = true → Decodes (.vnarrowD2 e d a m)) ∧
    (∀ e d a m, narrowFmtOk 4 e = true → Decodes (.vnarrowD4 e d a m)) := by
  and_intros <;> intros <;> rename_i hok <;> refine .extended rfl rfl rfl ?_ <;> simp only [packBits_cons, packBits_nil,
    registers_placed, codes_placed, VMod.bits_placed] <;>
    refine ⟨packFields_lt rfl rfl, packFields_lt rfl rfl, fun w x hw hx => ?_⟩ <;>
    simp (disch := exact id rfl) only [extract, decMajor1B, decMajor1D, decMajor20, reg6, hw, hx, VMod.ofExt_eq_ofTop,
      VMod.ofTop_top, hok, cvtPair, dotFmt, widenFmt, narrowFmt, bitField_packFields, readFields_nil, readFields_apart,
      readFields_here, codes_decode, ok_bind, Fin.ofNat_val_eq_self, Nat.reduceSub, Nat.reducePow, Nat.reduceShiftRight,
      Nat.reduceAnd, Nat.reduceEqDiff, add_zero, or_self, ↓reduceIte]

@[simp] theorem decodes_tile :
    (∀ t s, Decodes (.ttype t s)) ∧ (∀ d t r, Decodes (.tgett d t r)) ∧ (∀ v s, Decodes (.tbind v s)) ∧
    (∀ v u, Decodes (.tbindU v u)) ∧ (∀ t, Decodes (.tfree t)) ∧ (∀ v, Decodes (.tfreeDv v)) ∧
    (∀ d a s, Decodes (.tresh d a s)) ∧ (∀ d a lt, Decodes (.ttrans d a lt)) ∧ (∀ d, Decodes (.tzero d)) ∧
    (∀ d a k out, Decodes (.texp d a k out)) ∧ (∀ d a, Decodes (.tmov d a)) ∧ (∀ p, Decodes (.lacq p)) ∧
    (∀ t mode b x noff k, Decodes (.pldb t mode b x noff k)) ∧ (∀ a b, Decodes (.pldbSp a b)) ∧
    (∀ l b s adv, Decodes (.plaid l b s adv)) ∧ (∀ c t b k, Decodes (.pmma c t b k)) ∧ (∀ c t b k, Decodes (.pmmz c t b k)) ∧
    (∀ c, Decodes (.pclr c)) ∧ (∀ s off, Decodes (.ptsc s off)) ∧ (∀ q a o, Decodes (.cbld q a o)) ∧
    (∀ a b ea eb, Decodes (.cbldPt a b ea eb)) ∧ (∀ k a o, Decodes (.kld k a o)) ∧ (∀ l a o, Decodes (.lwset l a o)) ∧
    (∀ l s ab, Decodes (.lwstep l s ab)) ∧ (∀ c a b z, Decodes (.ltmma c a b z)) ∧ (∀ p l a, Decodes (.vtenc p l a)) ∧
    (∀ cnt per tstep astep, Decodes (.rep cnt per tstep astep)) := by
  and_intros <;> intros <;> refine .plain rfl rfl ?_ <;> simp only [packBits_cons, packBits_nil, registers_placed,
    numbers_placed] <;>
    refine ⟨packFields_lt rfl rfl, fun w x hw => ?_⟩ <;>
    simp (disch := exact id rfl) only [extract, decMajor28, decMajor29, reg6, reg4, reg3, reg2, reg7, bits, bitAt, hw,
      bitField_packFields, readFields_nil, readFields_apart, readFields_here, bitOf_beq_one, Fin.ofNat_val_eq_self,
      BitVec.ofNat_toNat, BitVec.setWidth_eq, Nat.reduceSub, Nat.reducePow, Nat.reduceShiftRight, Nat.reduceAnd,
      Nat.reduceEqDiff, Nat.reduceBEq, add_zero, Bool.false_eq_true, or_self, true_and, false_and, not_true_eq_false,
      not_false_eq_true, ↓reduceIte]

@[simp] theorem decodes_memory :
    (∀ r a o, Decodes (.ldb r a o)) ∧ (∀ r a o, Decodes (.ldh r a o)) ∧ (∀ r a o, Decodes (.ldw r a o)) ∧
    (∀ r a o, Decodes (.ldd r a o)) ∧ (∀ r a o, Decodes (.stb r a o)) ∧ (∀ r a o, Decodes (.sth r a o)) ∧
    (∀ r a o, Decodes (.stw r a o)) ∧ (∀ r a o, Decodes (.std r a o)) ∧ (∀ r a o, Decodes (.vld r a o)) ∧
    (∀ r a o, Decodes (.vst r a o)) ∧ (∀ r a o, Decodes (.tld r a o)) ∧ (∀ r a o, Decodes (.tst r a o)) ∧
    (∀ r a o, Decodes (.flrd r a o)) ∧ (∀ v a s, Decodes (.vlds v a s)) ∧ (∀ v a s, Decodes (.vsts v a s)) ∧
    (∀ v a i w, Decodes (.vgth v a i w)) ∧ (∀ v a i w, Decodes (.vsct v a i w)) ∧ (∀ l v seg, Decodes (.dkput l v seg)) ∧
    (∀ l a, Decodes (.dkputSp l a)) ∧ (∀ l v seg, Decodes (.dktake l v seg)) ∧ (∀ l a, Decodes (.dktakeSp l a)) ∧
    (∀ a so dof, Decodes (.cpy a so dof)) ∧ (∀ a so dof, Decodes (.cpyu a so dof)) ∧ (∀ a so dof, Decodes (.cpyw a so dof)) ∧
    (∀ a d op w cis, Decodes (.satom a d op w cis)) ∧ (∀ d a op w rt, Decodes (.gatom d a op w rt)) ∧
    (∀ k, Decodes (.fence k)) ∧ (∀ a v, Decodes (.binit a v)) ∧ (∀ a v sc c, Decodes (.bsig a v sc c)) ∧
    (∀ a bare keep, Decodes (.bwait a bare keep)) ∧ (∀ v r s, Decodes (.fsend v r s)) ∧ (∀ a, Decodes (.fred a)) ∧
    (∀ d q, Decodes (.qcnt d q)) ∧ (∀ a op v cnt, Decodes (.bxfm a op v cnt)) ∧ (∀ a, Decodes (.migr a)) := by
  and_intros <;> intros <;> refine .plain rfl rfl ?_ <;> simp only [packBits_cons, packBits_nil, registers_placed,
    numbers_placed, codes_placed] <;>
    refine ⟨packFields_lt rfl rfl, fun w x hw => ?_⟩ <;>
    simp (disch := exact id rfl) only [extract, decMajor30, decMajor31, reg6, reg4, bits, bitAt, hw, bitField_packFields,
      readFields_nil, readFields_apart, readFields_here, codes_decode, ok_bind, bitOf_beq_one, Fin.ofNat_val_eq_self,
      BitVec.ofNat_toNat, BitVec.setWidth_eq, Nat.reduceSub, Nat.reducePow, Nat.reduceShiftRight, Nat.reduceAnd,
      Nat.reduceEqDiff, Nat.reduceBEq, add_zero, Bool.false_eq_true, or_self, true_and, false_and, not_true_eq_false,
      not_false_eq_true, ↓reduceIte]

@[simp] theorem decodes_control :
    (∀ o, Decodes (.jmp o)) ∧ (∀ o, Decodes (.call o)) ∧ (∀ s o, Decodes (.br s o)) ∧ (∀ inv p o, Decodes (.brp inv p o)) ∧
    (∀ d a, Decodes (.callr d a)) ∧ (∀ a, Decodes (.ret a)) ∧ (∀ cnt eo, Decodes (.loop cnt eo)) ∧
    (∀ s eo, Decodes (.loops s eo)) ∧ (∀ d dep pop, Decodes (.lidx d dep pop)) ∧ (∀ n, Decodes (.waitt n)) ∧
    (∀ s, Decodes (.waittAbs s)) ∧ (∀ d a p, Decodes (.launch d a p)) ∧ (∀ d a p, Decodes (.graph d a p)) ∧
    (∀ ge a b, Decodes (.ccwait ge a b)) ∧ (∀ d a, Decodes (.ccrd d a)) ∧ (∀ a p, Decodes (.cancel a p)) ∧
    (∀ s v, Decodes (.hsig s v)) ∧ (∀ c, Decodes (.trap c)) ∧ (∀ c, Decodes (.brk c)) ∧ (∀ act, Decodes (.rth act)) ∧
    (∀ d sr, Decodes (.mfsr d sr)) ∧ (∀ a sr, Decodes (.mtsr a sr)) ∧ (∀ p s inn, Decodes (.ctxsw p s inn)) ∧
    (∀ a s b, Decodes (.ctxst a s b)) ∧ (∀ a s b, Decodes (.ctxld a s b)) ∧ (∀ sc s b, Decodes (.tlbinv sc s b)) ∧
    (∀ a sc s b, Decodes (.shoot a sc s b)) ∧ (∀ d a, Decodes (.monrd d a)) ∧ (∀ a m b, Decodes (.attest a m b)) ∧
    (∀ d w pop, Decodes (.errpop d w pop)) ∧ (∀ p s op, Decodes (.haltc p s op)) := by
  and_intros <;> intros <;> refine .plain rfl rfl ?_ <;> simp only [packBits_cons, packBits_nil, registers_placed,
    numbers_placed, codes_placed] <;>
    refine ⟨packFields_lt rfl rfl, fun w x hw => ?_⟩ <;>
    simp (disch := exact id rfl) only [extract, decMajor38, decMajor39, decMajor3A, decMajor3B, decMajor3C, decMajor3E, reg6,
      reg4, reg3, bits, bitAt, hw, bitField_packFields, readFields_nil, readFields_apart, readFields_here, codes_decode,
      ok_bind, bitOf_beq_one, Fin.ofNat_val_eq_self, BitVec.ofNat_toNat, BitVec.setWidth_eq, Nat.reduceSub, Nat.reducePow,
      Nat.reduceShiftRight, Nat.reduceAnd, Nat.reduceEqDiff, Nat.reduceBEq, add_zero, Bool.false_eq_true, or_self, true_and,
      false_and, not_true_eq_false, not_false_eq_true, ↓reduceIte]

@[simp] theorem decodes_pdrn (c : AccNum) (dst : Bool) (cb : CbNum) (s : SReg) (x : DrainX) : Decodes (.pdrn c dst cb s x) := by
  refine .extended rfl rfl rfl ?_
  simp only [packBits_cons, packBits_nil, registers_placed, numbers_placed]
  refine ⟨packFields_lt rfl rfl, x.bits_lt, fun w x hw hx => ?_⟩
  simp (disch := exact id rfl) only [extract, decMajor29, reg6, reg2, reg7, bitAt, hw, hx, DrainX.ofExt_bits,
    bitField_packFields, readFields_nil, readFields_apart, readFields_here, ok_bind, bitOf_beq_one, Fin.ofNat_val_eq_self,
    Nat.reduceSub, Nat.reducePow, Nat.reduceShiftRight, Nat.reduceAnd, Nat.reduceEqDiff, add_zero, or_self, false_and, ↓reduceIte]

@[simp] theorem decodes_ltdrn (c : AccNum) (d : ANum) (s : SReg) (x : LDrainX) : Decodes (.ltdrn c d s x) := by
  refine .extended rfl rfl rfl ?_
  simp only [packBits_cons, packBits_nil, registers_placed]
  refine ⟨packFields_lt rfl rfl, x.bits_lt, fun w x hw hx => ?_⟩
  simp (disch := exact id rfl) only [extract, decMajor29, reg6, reg4, reg7, hw, hx, LDrainX.ofExt_bits, bitField_packFields,
    readFields_nil, readFields_apart, readFields_here, ok_bind, Fin.ofNat_val_eq_self, Nat.reduceSub, Nat.reducePow,
    Nat.reduceShiftRight, Nat.reduceAnd, Nat.reduceEqDiff, add_zero, or_self, false_and, ↓reduceIte]

/-- The instructions without operands are the numbers that the tables give. -/
@[simp] theorem decodes_bare : Decodes .nop ∧ Decodes .lrel ∧ Decodes .bnd ∧ Decodes .exit := by
  refine ⟨.plain (B := 0x3F) (fs := []) rfl rfl ?_, .plain (B := 0x29000001) (fs := []) rfl rfl ?_,
    .plain (B := 0x3C000006) (fs := []) rfl rfl ?_, .plain (B := 0x3C000007) (fs := []) rfl rfl ?_⟩ <;>
    refine ⟨by decide, fun w x hw => ?_⟩ <;>
    simp (disch := exact id rfl) only [extract, decMajor00, decMajor29, decMajor3C, hw, packBits_nil, bitField_packFields,
      readFields_nil, Nat.reduceSub, Nat.reducePow, Nat.reduceShiftRight, Nat.reduceAnd, Nat.reduceEqDiff, or_self, false_and,
      ↓reduceIte]

/-- The two high bits of an upper immediate stand in the major, which has four values (R120). -/
theorem extract_upper {w v : Nat} (hv : v < 4) (x : Option Nat) :
    (bitField w 24 6 = v + 12 → extract w x = decMajor0C w x) ∧ (bitField w 24 6 = v + 20 → extract w x = decMajor14 w x) := by
  constructor <;> intro h <;> interval_cases v <;>
    simp only [extract, h, Nat.reduceAdd, Nat.reduceEqDiff, or_self, or_false, or_true, ↓reduceIte]

/-- The two parts of an upper immediate keep to their fields. -/
theorem halves_lt (u : BitVec 20) : u.toNat / 2 ^ 18 < 2 ^ 2 ∧ u.toNat % 2 ^ 18 < 2 ^ 18 :=
  ⟨Nat.div_lt_of_lt_mul u.isLt, Nat.mod_lt _ (Nat.two_pow_pos 18)⟩

theorem halves_placed (u : BitVec 20) : PlacedAs (u.toNat / 2 ^ 18) 2 (halves_lt u).1 ∧
    PlacedAs (u.toNat % 2 ^ 18) 18 (halves_lt u).2 :=
  ⟨fun _ _ _ => rfl, fun _ _ _ => rfl⟩

@[simp] theorem decodes_upper : (∀ d u, Decodes (.lui d u)) ∧ (∀ d u, Decodes (.addpc d u)) := by
  and_intros <;> intro d u <;> refine .plain rfl rfl ?_ <;> simp only [packBits_cons, packBits_nil, registers_placed,
    halves_placed] <;>
    refine ⟨packFields_lt rfl rfl, fun w x hw => ?_⟩ <;>
    have h24 := (hw 24 6 rfl).trans (bitField_packFields rfl rfl) <;>
    simp (disch := exact id rfl) only [readFields_nil, readFields_apart, readFields_here, Nat.reduceShiftRight, Nat.reduceSub,
      Nat.reducePow, Nat.reduceAnd] at h24
  case refine_1 =>
    rw [(extract_upper (halves_lt u).1 x).1 h24]
    simp (disch := exact id rfl) only [decMajor0C, reg6, hw, bitField_packFields, readFields_nil, readFields_apart,
      readFields_here, Nat.reduceSub, Nat.reducePow, Nat.reduceShiftRight, Nat.reduceAnd, add_zero, Nat.div_add_mod',
      Fin.ofNat_val_eq_self, BitVec.ofNat_toNat, BitVec.setWidth_eq]
  case refine_2 =>
    rw [(extract_upper (halves_lt u).1 x).2 h24]
    simp (disch := exact id rfl) only [decMajor14, reg6, hw, bitField_packFields, readFields_nil, readFields_apart,
      readFields_here, Nat.reduceSub, Nat.reducePow, Nat.reduceShiftRight, Nat.reduceAnd, add_zero, Nat.div_add_mod',
      Fin.ofNat_val_eq_self, BitVec.ofNat_toNat, BitVec.setWidth_eq]

/-- Every well-formed instruction of a slot decodes: the formats that the decoder checks are well formed. -/
theorem decodes {i : Instr} (hs : isSlot i = true) (hwf : i.wf = true) : Decodes i := by
  cases i <;> cases hs
  case vcvtFp =>
    obtain ⟨h, -⟩ := Bool.and_eq_true_iff.mp (Bool.and_eq_true_iff.mp hwf).1
    simp [(Bool.and_eq_true_iff.mp h).2]
  case vidot => simp [(Bool.and_eq_true_iff.mp hwf).2]
  case vwidenX2 | vwidenX4 | vnarrowD2 | vnarrowD4 =>
    obtain ⟨h, -⟩ := Bool.and_eq_true_iff.mp hwf
    simp [(Bool.and_eq_true_iff.mp h).2]
  all_goals simp

theorem Decodes.extOr0_slotExt {i : Instr} (h : Decodes i) : extOr0 (slotExt i) = (slotExt i).getD 0 := by
  cases hx : slotExt i with
  | none => rfl
  | some e => exact Nat.mod_eq_of_lt (h.ext_lt e hx)

/-- The decoder on the word of a well-formed instruction, whatever its S and X bits, and on an extension that is the
instruction's own where it takes one (R57). -/
theorem decodeSlot_slotWord {i : Instr} {w : Nat} {x : Option Nat} (hs : isSlot i = true) (hwf : i.wf = true)
    (hw : w % 2 ^ 30 = slotWord i) (hx : takesExt i = true → x = slotExt i) :
    decodeSlot w x = if x.isSome ∧ ¬ takesExt i then .error 5 else .ok i := by
  have hd := decodes hs hwf
  have hread : ReadsAs w (slotWord i) := fun lo n h => by rw [← hw, bitField_mod _ _ _ _ (Nat.le_of_ble_eq_true h)]
  have hext : ¬ (takesExt i = true ∧ (slotExt i).getD 0 ≠ extOr0 x) := fun ⟨ht, hne⟩ => hne (by rw [hx ht, hd.extOr0_slotExt])
  rw [decodeSlot, hd.reads w x hread hx]
  simp only [ok_bind, hw, hext, hwf, ne_eq, not_true_eq_false, ↓reduceIte]

/-- An instruction's word decodes to it with its own extension, whatever the S and X bits. -/
theorem decodeSlot_own {i : Instr} {w : Nat} (hs : isSlot i = true) (hwf : i.wf = true) (hw : w % 2 ^ 30 = slotWord i) :
    decodeSlot w (slotExt i) = .ok i := by
  rw [decodeSlot_slotWord hs hwf hw fun _ => rfl, if_neg]
  rintro ⟨hsome, ht⟩
  rw [(decodes hs hwf).ext_none (Bool.eq_false_iff.mpr ht)] at hsome
  cases hsome

/-- Settles O14: the word and the extension of an instruction are its own. -/
theorem decodeReadsWhatEncodeWrites : Obligations.DecodeReadsWhatEncodeWrites := by
  unfold Obligations.DecodeReadsWhatEncodeWrites
  exact fun i hs hwf => decodeSlot_own hs hwf (Nat.mod_eq_of_lt (decodes hs hwf).word_lt)

end Sys2Proof
end

section
/-! PROOFS. The scan of a bundle's words, slot by slot (R55, R56), and the bundle of an instruction between NOPs. -/

open Sys2Proof.Machine

namespace Sys2Proof

/-! ## One step of the scan -/

section
variable {ε : Type} {fetch : Nat → Except ε Nat} {fuel i t w e : Nat} {l : List RawSlot}

/-- A slot with S = 1 ends the bundle. -/
theorem scanFrom_stop (hi : i < 8) (hw : fetch i = .ok w) (hx : bitAt w 30 = false) (hs : bitAt w 31 = true) :
    scanFrom fetch (fuel + 1) i t l = .ok (closeBundle i t (l ++ [{ ix := i, word := w, ext := none }])) := by
  simp only [scanFrom, Nat.not_le.mpr hi, hw, ok_bind, hx, hs, Bool.false_eq_true, ↓reduceIte, ge_iff_le]

/-- The scan goes on behind a slot with S = 0. -/
theorem scanFrom_slot (hi : i < 8) (hw : fetch i = .ok w) (hx : bitAt w 30 = false) (hs : bitAt w 31 = false) :
    scanFrom fetch (fuel + 1) i t l = scanFrom fetch fuel (i + 1) t (l ++ [{ ix := i, word := w, ext := none }]) := by
  simp only [scanFrom, Nat.not_le.mpr hi, hw, ok_bind, hx, hs, Bool.false_eq_true, ↓reduceIte, ge_iff_le]

/-- The scan goes on behind a slot and its extension. -/
theorem scanFrom_extended (hi : i + 1 < 8) (hw : fetch i = .ok w) (hx : bitAt w 30 = true) (hs : bitAt w 31 = false)
    (he : fetch (i + 1) = .ok e) (hes : bitAt e 31 = false) : scanFrom fetch (fuel + 1) i t l =
      scanFrom fetch fuel (i + 2) (t + 2 ^ (i + 1)) (l ++ [{ ix := i, word := w, ext := some (e % 2 ^ 31) }]) := by
  simp only [scanFrom, Nat.not_le.mpr hi, Nat.not_le.mpr (Nat.lt_of_succ_lt hi), hw, he, ok_bind, hx, hs, hes,
    Bool.false_eq_true, ↓reduceIte]

/-- A slot has no room for both S = 1 and X = 1. -/
theorem scanFrom_stop_extended (hi : i < 8) (hw : fetch i = .ok w) (hx : bitAt w 30 = true) (hs : bitAt w 31 = true) :
    scanFrom fetch (fuel + 1) i t l = .ok (.bad 4 t 0) := by
  simp only [scanFrom, Nat.not_le.mpr hi, hw, ok_bind, hx, hs, ↓reduceIte, ge_iff_le]

end

/-! ## NOPs and the class limits (R42) -/

theorem overLimit_of_unclassed {seen l : List RawSlot} (h : ∀ s ∈ l, slotClass s.word = none) : overLimit seen l = none := by
  induction l generalizing seen with
  | nil => rfl
  | cons s l ih =>
    rw [overLimit, h s List.mem_cons_self]
    exact ih fun r hr => h r (List.mem_cons_of_mem s hr)

theorem SlotClass.limit_pos (c : SlotClass) : 1 ≤ c.limit := by cases c <;> decide

/-- One slot keeps to the limit of its class, whatever it holds. -/
theorem overLimit_of_first {s : RawSlot} {l : List RawSlot} (h : ∀ r ∈ l, slotClass r.word = none) :
    overLimit [] (s :: l) = none := by
  rw [overLimit]
  cases hc : slotClass s.word with
  | none => exact overLimit_of_unclassed h
  | some c =>
    have hone : countClass c [s] = 1 := by rw [countClass, if_pos hc, countClass]
    dsimp only
    rw [hone, if_neg (Nat.not_lt.mpr c.limit_pos)]
    exact overLimit_of_unclassed h

/-- A bundle that ends at slot 3, with all classed slots but the first left out, is one of four slots. -/
theorem closeBundle_three {t : Nat} {s : RawSlot} {l : List RawSlot} (h : ∀ r ∈ l, slotClass r.word = none) :
    closeBundle 3 t (s :: l) = .bundle 4 t (s :: l) := by
  rw [closeBundle, if_neg (by decide), overLimit_of_first h]

theorem slotClass_nop : slotClass 0x3F = none ∧ slotClass 0x8000003F = none := by decide

theorem decodeSlot_nop : decodeSlot 0x3F none = .ok .nop ∧ decodeSlot 0x8000003F none = .ok .nop :=
  ⟨decodeSlot_own (i := .nop) rfl rfl (by decide), decodeSlot_own (i := .nop) rfl rfl (by decide)⟩

/-! ## The S and X bits of an encoded word (R43) -/

theorem bitAt_of_lt {w lo : Nat} (h : w < 2 ^ lo) : bitAt w lo = false := by rw [bitAt, bitField_of_lt h]; rfl

theorem bitAt_add_two_pow {w lo : Nat} (h : w < 2 ^ lo) : bitAt (w + 2 ^ lo) lo = true := by
  rw [bitAt, bitField, Nat.add_div_right _ (Nat.two_pow_pos lo), Nat.div_eq_of_lt h]; rfl

/-! ## An instruction between NOPs -/

/-- The slots of the bundle of four that holds an instruction and NOPs, as the scan finds them. -/
def rawSlotsOf (i : Instr) : List RawSlot :=
  match slotExt i with
  | none => [⟨0, slotWord i, none⟩, ⟨1, 0x3F, none⟩, ⟨2, 0x3F, none⟩, ⟨3, 0x8000003F, none⟩]
  | some e => [⟨0, slotWord i + 2 ^ 30, some e⟩, ⟨2, 0x3F, none⟩, ⟨3, 0x8000003F, none⟩]

theorem scanBundle_bundleWords {ε : Type} {fetch : Nat → Except ε Nat} {i : Instr} (hd : Decodes i)
    (hf : ∀ k, k < 4 → fetch k = .ok ((bundleWords i).1.getD k 0)) :
    scanBundle fetch = .ok (.bundle 4 (bundleWords i).2 (rawSlotsOf i)) := by
  have h0 := hf 0 (by decide)
  have h1 := hf 1 (by decide)
  have h2 := hf 2 (by decide)
  have h3 := hf 3 (by decide)
  have hword := hd.word_lt
  cases hx : slotExt i with
  | none =>
    simp only [bundleWords, hx, List.getD_cons_zero, List.getD_cons_succ] at h0 h1 h2 h3
    rw [scanBundle, scanFrom_slot (by decide) h0 (bitAt_of_lt hword) (bitAt_of_lt (hword.trans (by decide))),
      scanFrom_slot (by decide) h1 rfl rfl, scanFrom_slot (by decide) h2 rfl rfl, scanFrom_stop (by decide) h3 rfl rfl]
    simp only [List.cons_append, List.nil_append]
    rw [closeBundle_three (by simp [slotClass_nop]), bundleWords, rawSlotsOf, hx]
  | some e =>
    have he := hd.ext_lt e hx
    simp only [bundleWords, hx, List.getD_cons_zero, List.getD_cons_succ] at h0 h1 h2 h3
    rw [scanBundle, scanFrom_extended (by decide) h0 (bitAt_add_two_pow hword) (bitAt_of_lt (by omega)) h1 (bitAt_of_lt he),
      scanFrom_slot (by decide) h2 rfl rfl, scanFrom_stop (by decide) h3 rfl rfl]
    simp only [List.cons_append, List.nil_append, Nat.mod_eq_of_lt he]
    rw [closeBundle_three (by simp [slotClass_nop])]
    simp only [bundleWords, rawSlotsOf, hx, Nat.zero_add, pow_one]

theorem decodeSlots_cons {ix w : Nat} {x : Option Nat} {i : Instr} {t : List RawSlot} {r : List Slot} (h : decodeSlot w x = .ok i)
    (ht : decodeSlots t = .ok r) : decodeSlots (⟨ix, w, x⟩ :: t) = .ok (⟨ix, i⟩ :: r) := by
  rw [decodeSlots, h, ht]

theorem decodeSlots_rawSlotsOf {i : Instr} (hs : isSlot i = true) (hwf : i.wf = true) :
    decodeSlots (rawSlotsOf i) = .ok (bundleOf i).slots := by
  have hword := Nat.mod_eq_of_lt (decodes hs hwf).word_lt
  have hlast := decodeSlots_cons (ix := 3) decodeSlot_nop.2 (show decodeSlots [] = .ok [] from rfl)
  have htwo := decodeSlots_cons (ix := 2) decodeSlot_nop.1 hlast
  cases hx : slotExt i with
  | none =>
    rw [rawSlotsOf, bundleOf, hx]
    exact decodeSlots_cons (hx ▸ decodeSlot_own hs hwf hword) (decodeSlots_cons decodeSlot_nop.1 htwo)
  | some e =>
    rw [rawSlotsOf, bundleOf, hx]
    exact decodeSlots_cons (hx ▸ decodeSlot_own hs hwf (by rw [Nat.add_mod_right, hword])) htwo

/-- Settles O16: the scan finds the four slots, and each decodes. -/
theorem anInstructionBetweenNopsIsItsBundle : Obligations.AnInstructionBetweenNopsIsItsBundle := by
  unfold Obligations.AnInstructionBetweenNopsIsItsBundle
  intro d core asid pc i hs hwf hf
  rw [Device.bundleAt, Device.fetchBundle, scanBundle_bundleWords (decodes hs hwf) hf]
  dsimp only
  rw [decodeSlots_rawSlotsOf hs hwf]
  rfl

end Sys2Proof
end

section
/-! PROOFS. The issue of a core's bundle (R55, R56, R188): what the fetch of its words leaves unchanged, the bundle of one
instruction as the step of that instruction, and the bundles that stop before they execute. -/

open Sys2Proof.Machine

namespace Sys2Proof.Machine

/-! ## What the reading of a bundle's words keeps -/

/-- Launch slots and contexts are those of `s`. -/
def Device.SamePrograms (s t : Device) : Prop := t.launches = s.launches ∧ t.ctxs = s.ctxs

theorem Device.SamePrograms.trans {s t u : Device} (h : s.SamePrograms t) (k : t.SamePrograms u) : s.SamePrograms u :=
  ⟨k.1.trans h.1, k.2.trans h.2⟩

theorem Device.SamePrograms.launch_eq {s t : Device} (h : s.SamePrograms t) (l : Nat) : t.launch l = s.launch l := by
  rw [Device.launch, h.1, Device.launch]

theorem Device.SamePrograms.ctx_eq {s t : Device} (h : s.SamePrograms t) (l core : Nat) : t.ctx l core = s.ctx l core := by
  rw [Device.ctx, h.2, Device.ctx]

theorem Device.samePrograms_note (s : Device) (cls : Nat) (w : Where) (e : Ev) : s.SamePrograms (s.note cls w e) := by
  rw [Device.note, Device.record]
  split <;> exact ⟨rfl, rfl⟩

theorem samePrograms_readLine (loc : Nat) (s : Device) : s.SamePrograms (readLine loc s).2 := by
  rw [readLine, readUnder]
  split
  · exact ⟨rfl, rfl⟩
  · exact s.samePrograms_note ..
  · exact s.samePrograms_note ..

theorem samePrograms_noteLines (locs : List Nat) (s : Device) : s.SamePrograms (noteLines locs s) := by
  induction locs generalizing s with
  | nil => exact ⟨rfl, rfl⟩
  | cons loc t ih => exact (samePrograms_readLine loc s).trans (ih _)

theorem samePrograms_touchTlb (core asid : Nat) (vas : List Nat) (s : Device) :
    s.SamePrograms (vas.foldl (fun s va => s.touchTlb core asid va) s) := by
  induction vas generalizing s with
  | nil => exact ⟨rfl, rfl⟩
  | cons va t ih => exact Device.SamePrograms.trans ⟨rfl, rfl⟩ (ih (s.touchTlb core asid va))

theorem samePrograms_readWords (core asid pc : Nat) (s : Device) : s.SamePrograms (readWords core asid pc s) :=
  (samePrograms_touchTlb ..).trans (samePrograms_noteLines ..)

/-! ## A core's issue -/

theorem exec_issueBundle (core : CoreIx) (s : State) :
    exec (.issueBundle core) s = .next { s with dev := issueBundle core.val s.dev } := rfl

section
variable {d : Device} {l core : Nat}

theorem Device.mayIssue_present (h : d.mayIssue l core = true) : (d.ctx l core).present = true := by
  simp only [Device.mayIssue, Bool.and_eq_true] at h
  tauto

/-- A core that may issue and whose tick passes issues its bundle. -/
theorem issueBundle_passes {now : Bool} (ha : (d.sheaf (core / 4)).active = some l) (hm : d.mayIssue l core = true)
    (hp : d.tickPasses l now) : issueBundle core d = issueCore l core (beginTick l now d) := by
  rw [issueBundle, ha]
  dsimp only
  rw [if_neg (by simp [hm])]
  cases now with
  | false => rw [if_pos (by simpa [Device.tickPasses] using hp)]
  | true =>
    obtain ⟨hne, hpass⟩ : (d.launch l).checked ≠ (d.launch l).tick + 1 ∧ d.sheetCheck l = .pass := by
      simpa [Device.tickPasses] using hp
    rw [if_neg hne, hpass]

theorem issueCore_ok {s : Device} {asid pc : Nat} {b : Bundle} (hasid : (s.launch l).asid = asid) (hpc :
    (s.ctx l core).live.pc = pc)
    (h : (readWords core asid pc s).bundleAt core asid pc = .ok b) : issueCore l core s =
      issueRuns (runsOf pc b.slots) (beginIssue l core b.nslots b.template (readWords core asid pc s)) := by
  subst hasid hpc
  rw [issueCore, h]

theorem issueCore_error {s : Device} {asid pc : Nat} {e : Ev} (hasid : (s.launch l).asid = asid) (hpc :
    (s.ctx l core).live.pc = pc)
    (h : (readWords core asid pc s).bundleAt core asid pc = .error e) : issueCore l core s =
      refuseIssue e (beginIssue l core 4 0 (readWords core asid pc s)) := by
  subst hasid hpc
  rw [issueCore, h]

theorem asid_beginTick (now : Bool) : ((beginTick l now d).launch l).asid = (d.launch l).asid := by
  rw [beginTick, Device.launch_setLaunch]

theorem tick_beginTick (now : Bool) : ((beginTick l now d).launch l).tick = (d.launch l).tick := by
  rw [beginTick, Device.launch_setLaunch]

theorem Device.SamePrograms.ctx_of_beginTick {now : Bool} {r : Device} (h : (beginTick l now d).SamePrograms r) :
    r.ctx l core = d.ctx l core := h.ctx_eq l core

end

/-! ## The bundle of one instruction -/

theorem slotOf_of_isSlot {i : Instr} (h : isSlot i = true) : ∃ f, slotOf i = some f := by
  cases i <;> cases h <;> exact ⟨_, rfl⟩

/-- An instruction of a slot is executed as the issue of the bundle that holds it alone. -/
theorem exec_eq_issueOne {i : Instr} {f : Device → Except Ev Device} (h : slotOf i = some f) (s : State) :
    exec i s = issueOne i f s := by
  cases i <;> cases h <;> rfl

/-- The slots that do something, of a bundle that holds one instruction beside NOPs. -/
theorem runsOf_one {i : Instr} {f : Device → Except Ev Device} (hf : slotOf i = some f) {pc ix : Nat} {slots : List Slot}
    (h : slots.filter (fun y => !isNop y.instr) = [⟨ix, i⟩] ∨ (i = .nop ∧ slots.filter (fun y => !isNop y.instr) = [])) :
    runsOf pc slots = oneRun i f ix pc := by
  rcases h with h | ⟨rfl, h⟩
  · have hmem : (⟨ix, i⟩ : Slot) ∈ slots.filter (fun y => !isNop y.instr) := by rw [h]; exact List.mem_singleton_self _
    have hnop := (List.mem_filter.mp hmem).2
    rw [runsOf, h, oneRun, if_neg (by simpa using hnop)]
    simp only [List.filterMap_cons, hf, List.filterMap_nil]
  · rw [runsOf, h]
    rfl

/-- A program's instruction that need not hold runs as its bundle. -/
theorem issueOne_of_program {i : Instr} {f : Device → Except Ev Device} {d : Device} (s : State) (hc : d.cur.present = true)
    (hh : d.issue.handler = false) (hw : d.mustHold i = false) : issueOne i f { s with dev := d } =
      .next { s with dev := issueRuns (oneRun i f d.issue.slot d.live.pc) (beginOne d) } := by
  rw [issueOne, if_neg (by simp [hc]), if_neg (by simp [hh]), if_neg (by simp [hw])]
  rfl

/-- A device with the issue of a fetched instruction. -/
def Device.withFetched (r : Device) (l core : Nat) (b : Bundle) (ix : Nat) : Device :=
  { r with issue := { Issue.idle with core := core, l := l, nslots := b.nslots, template := b.template, slot := ix } }

section
variable (r : Device) (l core : Nat) (b : Bundle) (ix : Nat)

theorem Device.fetched_eq (d : Device) (now : Bool) : d.fetched l core now b ix =
    (readWords core (d.launch l).asid (d.ctx l core).live.pc (beginTick l now d)).withFetched l core b ix := rfl

theorem Device.withFetched_cur : (r.withFetched l core b ix).cur = r.ctx l core := rfl

theorem Device.withFetched_live : (r.withFetched l core b ix).live = (r.ctx l core).live := rfl

theorem beginOne_withFetched : beginOne (r.withFetched l core b ix) = beginIssue l core b.nslots b.template r := rfl

end

/-- Settles O18: the bundle that the step fetches is the one whose slots `exec` of the instruction runs. -/
theorem stepRunsTheDecodedInstruction : Obligations.StepRunsTheDecodedInstruction := by
  unfold Obligations.StepRunsTheDecodedInstruction
  intro s t core l now b ix i hagenda hactive hmay hpass hb hone hslot hhold
  obtain ⟨f, hf⟩ := slotOf_of_isSlot hslot
  have hsame := samePrograms_readWords core (s.dev.launch l).asid (s.dev.ctx l core).live.pc (beginTick l now s.dev)
  rw [Device.fetched_eq] at hhold ⊢
  have hstep : step s = .next { s with agenda := t, dev := issueBundle core.val s.dev } :=
    (step_of_agenda_cons hagenda).trans (exec_issueBundle core _)
  rw [hstep, exec_eq_issueOne hf, issueBundle_passes hactive hmay hpass,
    issueCore_ok (pc := (s.dev.ctx l core).live.pc) (asid_beginTick now) rfl hb,
    runsOf_one hf hone]
  generalize readWords core (s.dev.launch l).asid (s.dev.ctx l core).live.pc (beginTick l now s.dev) = r at hsame hhold ⊢
  have hctx : r.ctx l core = s.dev.ctx l core := hsame.ctx_of_beginTick
  have hpresent : (r.withFetched l core b ix).cur.present = true := by
    rw [Device.withFetched_cur, hctx, Device.mayIssue_present hmay]
  rw [issueOne_of_program { s with agenda := t } hpresent rfl hhold, beginOne_withFetched, Device.withFetched_live, hctx]
  rfl

end Sys2Proof.Machine
end

section
/-! PROOFS. The bundles that stop before they execute (R55 to R57): the scan's faults, the illegal slots and their event. -/

open Sys2Proof.Machine

namespace Sys2Proof

/-! ## The faults of the scan (R55) -/

section
variable {ε : Type} {fetch : Nat → Except ε Nat} {w : Nat → Nat}

theorem scanBundle_early {k : Nat} (hf : ∀ j, fetch j = .ok (w j)) (hk : k < 3) (hs : bitAt (w k) 31 = true)
    (hn : ∀ j, j < k → bitAt (w j) 31 = false) (hx : ∀ j, j ≤ k → bitAt (w j) 30 = false) :
    scanBundle fetch = .ok (.bad 2 0 0) := by
  rw [scanBundle]
  obtain rfl | rfl | rfl : k = 0 ∨ k = 1 ∨ k = 2 := by omega
  · rw [scanFrom_stop (by decide) (hf 0) (hx 0 (by decide)) hs]
    rfl
  · rw [scanFrom_slot (by decide) (hf 0) (hx 0 (by decide)) (hn 0 (by decide)),
      scanFrom_stop (by decide) (hf 1) (hx 1 (by decide)) hs]
    rfl
  · rw [scanFrom_slot (by decide) (hf 0) (hx 0 (by decide)) (hn 0 (by decide)),
      scanFrom_slot (by decide) (hf 1) (hx 1 (by decide)) (hn 1 (by decide)),
      scanFrom_stop (by decide) (hf 2) (hx 2 (by decide)) hs]
    rfl

/-- A scan that has passed slot 7 finds no stop. -/
theorem scanFrom_past {fuel i t : Nat} {l : List RawSlot} (hi : 8 ≤ i) : scanFrom fetch fuel i t l = .ok (.bad 3 t 0) := by
  cases fuel with
  | zero => rfl
  | succ n => simp only [scanFrom, ge_iff_le, hi, ↓reduceIte]

/-- An extension has no room behind slot 7. -/
theorem scanFrom_extended_last {fuel t v : Nat} {l : List RawSlot} (hw : fetch 7 = .ok v) (hx : bitAt v 30 = true)
    (hs : bitAt v 31 = false) : scanFrom fetch (fuel + 1) 7 t l = .ok (.bad 3 t 0) := by
  simp [scanFrom, hw, ok_bind, hx, hs]

/-- Words with S = 0 hold no stop slot, with whatever extensions. -/
theorem scanFrom_unstopped (hf : ∀ j, fetch j = .ok (w j)) (hs : ∀ j, j < 8 → bitAt (w j) 31 = false) (fuel i t : Nat)
    (l : List RawSlot) : ∃ t', scanFrom fetch fuel i t l = .ok (.bad 3 t' 0) := by
  induction fuel generalizing i t l with
  | zero => exact ⟨t, rfl⟩
  | succ n ih =>
    rcases Nat.lt_or_ge i 8 with hi | hi
    · cases hx : bitAt (w i) 30 with
      | false => exact scanFrom_slot hi (hf i) hx (hs i hi) ▸ ih ..
      | true =>
        rcases Nat.lt_or_ge (i + 1) 8 with he | he
        · exact scanFrom_extended he (hf i) hx (hs i hi) (hf (i + 1)) (hs (i + 1) he) ▸ ih ..
        · obtain rfl : i = 7 := by omega
          exact ⟨t, scanFrom_extended_last (hf 7) hx (hs 7 hi)⟩
    · exact ⟨t, scanFrom_past hi⟩

end

/-! ## Illegal slots (R57) -/

theorem decodeSlot_of_extract_error {w n : Nat} {x : Option Nat} (h : extract w x = .error n) : decodeSlot w x = .error n := by
  rw [decodeSlot, h]
  rfl

theorem extract_illegal {w : Nat} (x : Option Nat) (h : bitField w 24 6 = 0x3F) : extract w x = .error 1 := by
  rw [extract]
  generalize bitField w 24 6 = m at h ⊢
  simp (disch := omega) only [if_neg, if_pos]

/-- The majors that no class of slots holds, beside major 0 and 0x3F (R51). -/
def isReservedMajor (m : Nat) : Bool :=
  m == 11 || (18 ≤ m && m ≤ 19) || (35 ≤ m && m ≤ 39) || (42 ≤ m && m ≤ 47) || (50 ≤ m && m ≤ 55) || m == 61

theorem isReservedMajor_of_slotClass {w : Nat} (hc : slotClass w = none) (h1 : bitField w 24 6 ≠ 0x3F)
    (h0 : bitField w 24 6 ≠ 0) : isReservedMajor (bitField w 24 6) = true := by
  have hlt : bitField w 24 6 < 64 := Nat.mod_lt _ (by decide)
  rw [slotClass] at hc
  generalize bitField w 24 6 = m at hc h0 h1 hlt ⊢
  generalize bitField w 0 6 = n at hc
  simp only [isReservedMajor, Bool.or_eq_true, Bool.and_eq_true, beq_iff_eq, decide_eq_true_eq]
  simp only [ite_eq_iff', reduceCtorEq, imp_false, implies_true, true_and] at hc
  omega

theorem extract_reserved {w : Nat} (x : Option Nat) (h : isReservedMajor (bitField w 24 6) = true) : extract w x = .error 2 := by
  simp only [isReservedMajor, Bool.or_eq_true, Bool.and_eq_true, beq_iff_eq, decide_eq_true_eq] at h
  rw [extract]
  generalize bitField w 24 6 = m at h ⊢
  simp (disch := omega) only [if_neg]

theorem decodeSlot_illegal {w : Nat} (x : Option Nat) (h : bitField w 24 6 = 0x3F) : decodeSlot w x = .error 1 :=
  decodeSlot_of_extract_error (extract_illegal x h)

theorem decodeSlot_reserved {w : Nat} (x : Option Nat) (hc : slotClass w = none) (h1 : bitField w 24 6 ≠ 0x3F)
    (h0 : bitField w 24 6 ≠ 0) : decodeSlot w x = .error 2 :=
  decodeSlot_of_extract_error (extract_reserved x (isReservedMajor_of_slotClass hc h1 h0))

theorem decodeSlot_unaccepted_ext {i : Instr} (x : Nat) (hs : isSlot i = true) (hx : takesExt i = false) (hwf : i.wf = true) :
    decodeSlot (slotWord i) (some x) = .error 5 := by
  have hno : ¬ takesExt i = true := Bool.eq_false_iff.mp hx
  rw [decodeSlot_slotWord hs hwf (Nat.mod_eq_of_lt (decodes hs hwf).word_lt) fun h => absurd h hno, if_pos ⟨rfl, hno⟩]

/-! ## The event of such a bundle (R56) -/

namespace Machine

/-! What is fetched is that of any state of the launches: no translation reads them. -/

section
variable (d : Device) (l : Nat) (x : Launch)

theorem Device.tableWord_setLaunch (pa : Nat) : (d.setLaunch l x).tableWord pa = d.tableWord pa := rfl

theorem Device.walkFrom_setLaunch (va base n : Nat) : (d.setLaunch l x).walkFrom va base n = d.walkFrom va base n := by
  induction n generalizing base with
  | zero => rfl
  | succ n ih =>
    simp only [Device.walkFrom, Device.tableWord_setLaunch, ih]
    rfl

theorem Device.walk_setLaunch (asid va : Nat) : (d.setLaunch l x).walk asid va = d.walk asid va := by
  simp only [Device.walk, Device.walkFrom_setLaunch]
  rfl

theorem Device.translate_setLaunch (core asid va : Nat) (r : Rights) :
    (d.setLaunch l x).translate core asid va r = d.translate core asid va r := by
  simp only [Device.translate, Device.walk_setLaunch]
  rfl

theorem Device.fetchWord_setLaunch (core asid va : Nat) :
    (d.setLaunch l x).fetchWord core asid va = d.fetchWord core asid va := by
  simp only [Device.fetchWord, Device.translate_setLaunch]
  rfl

theorem Device.bundleAt_setLaunch (core asid pc : Nat) : (d.setLaunch l x).bundleAt core asid pc = d.bundleAt core asid pc := by
  simp only [Device.bundleAt, Device.fetchBundle, Device.formatEv, Device.recordedWord, Device.fetchWord_setLaunch]

end

section
variable {d : Device} {l core : Nat} {e : Ev}

theorem Device.bundleAt_beginTick (now : Bool) (asid pc : Nat) :
    (beginTick l now d).bundleAt core asid pc = d.bundleAt core asid pc := Device.bundleAt_setLaunch ..

theorem Device.ctx_beginTick (now : Bool) : (beginTick l now d).ctx l core = d.ctx l core := rfl

/-- The bundle of a core due at the sheet's tick is the one at its program counter. -/
theorem Device.bundleAt_of_tickBundles {r : Except Ev Bundle} (h : (core, some r) ∈ d.tickBundles l) :
    d.bundleAt core (d.launch l).asid (d.ctx l core).live.pc = r := by
  obtain ⟨k, -, hk⟩ := List.mem_map.mp h
  obtain ⟨rfl, hr⟩ := Prod.mk.inj hk
  split at hr
  · exact Option.some.inj hr
  · cases hr

/-- A core with a bundle that stops before it executes leaves the sheet's tick broken. -/
theorem Device.sheetCheck_broken (h : (core, some (.error e)) ∈ d.tickBundles l) : d.sheetCheck l = .broken := by
  rw [Device.sheetCheck, if_pos (List.any_eq_true.mpr ⟨_, h, rfl⟩)]

theorem Device.atWait_of_error (now : Bool) (h : d.bundleAt core (d.launch l).asid (d.ctx l core).live.pc = .error e) :
    (beginTick l now d).atWait l core = false := by
  rw [Device.atWait, asid_beginTick, Device.ctx_beginTick, Device.bundleAt_beginTick, h]

/-- In a tick that is broken with every bundle fetched, a core whose own bundle is broken issues it. -/
theorem issueBundle_of_broken (ha : (d.sheaf (core / 4)).active = some l) (hm : d.mayIssue l core = true)
    (hc : (d.launch l).checked ≠ (d.launch l).tick + 1) (hf : ∀ p ∈ d.tickBundles l, fetchFails p.2 = none)
    (h : (core, some (.error e)) ∈ d.tickBundles l) : issueBundle core d = issueCore l core (beginTick l false d) := by
  have hnone : (d.tickBundles l).findSome? (fun p => (fetchFails p.2).map (fun e => (p.1, e))) = none :=
    List.findSome?_eq_none_iff.mpr fun p hp => by rw [hf p hp]; rfl
  rw [issueBundle, ha]
  dsimp only
  rw [if_neg (by simp [hm]), if_neg hc, Device.sheetCheck_broken h]
  dsimp only
  rw [hnone]
  dsimp only
  rw [if_neg (by simp [Device.atWait_of_error false (Device.bundleAt_of_tickBundles h)])]

/-- Only a fault of a translation is noted. -/
theorem noteEvent_of_code {asid : Nat} (h : e.code = 1 ∨ e.code = 2) : noteEvent core asid e d = d := by
  rw [noteEvent, if_neg]
  rintro ⟨hcode, -⟩
  omega

/-- A device whose issue has ended without effect: what a bundle that stops before it executes leaves. -/
def Device.withdrawn (u : Device) (l core t : Nat) : Device := { cancelReps l core t u with issue := Issue.idle }

theorem refuseIssue_beginIssue {u : Device} (h : e.code = 1 ∨ e.code = 2) (n t : Nat) :
    refuseIssue e (beginIssue l core n t u) =
      takeEvent l core (u.ctx l core).live.pc e (u.withdrawn l core (u.launch l).tick) := by
  rw [refuseIssue, noteEvent_of_code h]
  rfl

/-- The issue of a broken bundle is withdrawn, with its event. -/
theorem issueBundle_withdraws {u : Device} (ha : (d.sheaf (core / 4)).active = some l) (hm : d.mayIssue l core = true)
    (hc : (d.launch l).checked ≠ (d.launch l).tick + 1) (hf : ∀ p ∈ d.tickBundles l, fetchFails p.2 = none)
    (h : (core, some (.error e)) ∈ d.tickBundles l) (hcode : e.code = 1 ∨ e.code = 2)
    (hu : readWords core (d.launch l).asid (d.ctx l core).live.pc (beginTick l false d) = u)
    (hb : u.bundleAt core (d.launch l).asid (d.ctx l core).live.pc = .error e) :
    issueBundle core d = takeEvent l core (u.ctx l core).live.pc e (u.withdrawn l core (d.launch l).tick) := by
  have hissue := issueCore_error (pc := (d.ctx l core).live.pc) (asid_beginTick false) rfl (hu.symm ▸ hb)
  have htick := (samePrograms_readWords core (d.launch l).asid (d.ctx l core).live.pc (beginTick l false d)).launch_eq l
  rw [hu] at hissue htick
  rw [issueBundle_of_broken ha hm hc hf h, hissue, refuseIssue_beginIssue hcode, htick, tick_beginTick]

end

end Machine

/-- Settles O59: a bundle with a format fault or an illegal slot is withdrawn, and the scan and the decoder find these. -/
theorem fetchedBundlesStopBeforeTheyExecute : Obligations.FetchedBundlesStopBeforeTheyExecute := by
  unfold Obligations.FetchedBundlesStopBeforeTheyExecute
  refine ⟨?event, fun w k hk hs hn hx => scanBundle_early (fun _ => rfl) hk hs hn hx,
    fun w hs => scanFrom_unstopped (fun _ => rfl) hs 8 0 0 [], fun w hs hx => scanFrom_stop_extended (by decide) rfl hx hs,
    fun w x h => ⟨decodeSlot_illegal none h, decodeSlot_illegal (some x) h⟩,
    fun w x hc h1 h0 => decodeSlot_reserved x hc h1 h0, fun i x hs hx hwf => decodeSlot_unaccepted_ext x hs hx hwf⟩
  intro s core l e d x u hactive hmay hchecked hfetched hmem hbundle hcode c v
  rw [exec_issueBundle, issueBundle_withdraws hactive hmay hchecked hfetched hmem hcode rfl hbundle]
  rfl

end Sys2Proof
end

section
/-! PROOFS. The codes of the floating-point formats as numbers (R66): a code is a sign over a magnitude, and the magnitudes
count the values of a format from zero up, in units of its smallest subnormal. -/

open Sys2Proof.Machine

namespace Sys2Proof.Machine

/-! ## A sign over a magnitude -/

theorem fieldsOf_eq (f : FloatFmt) : fieldsOf f = ((fmtInfo f).e, (fmtInfo f).m, (fmtInfo f).bias) := by cases f <;> rfl

theorem FmtInfo.w_sub_one (i : FmtInfo) : i.w - 1 = i.e + i.m := by rw [FmtInfo.w]; omega

section
variable {i : FmtInfo} {s : Bool} {mag : Nat}

theorem bitField_withSign {lo n : Nat} (h : lo + n ≤ i.w - 1) : bitField (withSign i s mag) lo n = bitField mag lo n := by
  rw [withSign, Nat.add_comm, bitField_add_of_le h]

theorem bitAt_withSign (h : mag < 2 ^ (i.w - 1)) : bitAt (withSign i s mag) (i.w - 1) = s := by
  cases s with
  | false => simpa [withSign, bitOf] using bitAt_of_lt h
  | true => simpa [withSign, bitOf] using bitAt_add_two_pow h

theorem withSign_lt (h : mag < 2 ^ (i.w - 1)) : withSign i s mag < 2 ^ i.w := by
  have hs : bitOf s ≤ 1 := Nat.le_of_lt_succ (bitOf_lt s)
  have hw : i.w = i.w - 1 + 1 := by rw [FmtInfo.w]; omega
  rw [withSign, hw, Nat.add_sub_cancel, pow_succ]
  nlinarith

end

/-! ## Magnitudes as multiples of the smallest subnormal -/

section
variable {m : Nat}

theorem decodeMag_fields {e r : Nat} (hr : r < 2 ^ m) :
    decodeMag m (e * 2 ^ m + r) = if e = 0 then r else (2 ^ m + r) * 2 ^ (e - 1) := by
  have hdiv : (e * 2 ^ m + r) / 2 ^ m = e := by
    rw [Nat.add_comm, Nat.add_mul_div_right _ _ (Nat.two_pow_pos m), Nat.div_eq_of_lt hr, Nat.zero_add]
  have hmod : (e * 2 ^ m + r) % 2 ^ m = r := by rw [Nat.mul_add_mod_self_right, Nat.mod_eq_of_lt hr]
  rw [decodeMag, hdiv, hmod]
  split
  · simp_all
  · rfl

/-- A greater magnitude stands for a greater value. -/
theorem decodeMag_strictMono : StrictMono (decodeMag m) := by
  refine strictMono_nat_of_lt_succ fun c => ?_
  have hr := Nat.mod_lt c (Nat.two_pow_pos m)
  have hc : c / 2 ^ m * 2 ^ m + c % 2 ^ m = c := Nat.div_add_mod' c (2 ^ m)
  generalize c / 2 ^ m = e at hc
  generalize c % 2 ^ m = r at hc hr
  subst hc
  rw [decodeMag_fields hr]
  rcases Nat.lt_or_ge (r + 1) (2 ^ m) with hlt | hge
  · rw [Nat.add_assoc, decodeMag_fields hlt]
    split
    · omega
    · exact Nat.mul_lt_mul_of_pos_right (by omega) (Nat.two_pow_pos _)
  · have hnext : e * 2 ^ m + r + 1 = (e + 1) * 2 ^ m + 0 := by rw [Nat.succ_mul]; omega
    rw [hnext, decodeMag_fields (Nat.two_pow_pos m), if_neg e.succ_ne_zero, Nat.add_zero, Nat.add_sub_cancel]
    split
    next he => rw [he, pow_zero]; omega
    next he =>
      obtain ⟨k, rfl⟩ := Nat.exists_eq_succ_of_ne_zero he
      have := Nat.two_pow_pos k
      rw [Nat.succ_sub_one, pow_succ 2 k]
      nlinarith

/-- A value that the format can hold is that of its code. -/
theorem decodeMag_encodeMag {y : Nat} (h : 2 ^ (Nat.log2 y - m) ∣ y) : decodeMag m (encodeMag m y) = y := by
  rw [encodeMag]
  split
  next hy => rw [← Nat.zero_add y, ← Nat.zero_mul (2 ^ m), decodeMag_fields (by simpa using hy)]; simp
  next hy =>
    have hy0 : y ≠ 0 := by have := Nat.two_pow_pos m; omega
    have hm : m ≤ Nat.log2 y := (Nat.le_log2 hy0).2 (by omega)
    obtain ⟨k, hk⟩ := Nat.exists_eq_add_of_le hm
    dsimp only
    rw [hk, Nat.add_sub_cancel_left] at h ⊢
    obtain ⟨z, rfl⟩ := h
    have hlow := Nat.log2_self_le hy0
    have hhigh := Nat.lt_log2_self (n := 2 ^ k * z)
    rw [hk, Nat.add_comm m k, pow_add] at hlow
    rw [hk, Nat.add_comm m k, Nat.add_assoc, pow_add] at hhigh
    have hz := Nat.le_of_mul_le_mul_left hlow (Nat.two_pow_pos k)
    have hz' := Nat.lt_of_mul_lt_mul_left hhigh
    rw [pow_succ] at hz'
    have hcode : k * 2 ^ m + 2 ^ k * z / 2 ^ k = (k + 1) * 2 ^ m + (z - 2 ^ m) := by
      rw [Nat.mul_div_cancel_left _ (Nat.two_pow_pos k), Nat.succ_mul]
      omega
    rw [hcode, decodeMag_fields (by omega), if_neg k.succ_ne_zero, Nat.add_sub_cancel' hz, Nat.add_sub_cancel, Nat.mul_comm]

/-- A format holds `q` units of any binary place, where `q` has no more bits than a significand or is the least number that has. -/
theorem two_pow_log2_dvd {q : Nat} (k : Nat) (hq : q ≤ 2 ^ (m + 1)) : 2 ^ (Nat.log2 (q * 2 ^ k) - m) ∣ q * 2 ^ k := by
  rcases Nat.eq_zero_or_pos q with rfl | hpos
  · simp
  have hne : q * 2 ^ k ≠ 0 := (Nat.mul_pos hpos (Nat.two_pow_pos k)).ne'
  rcases hq.eq_or_lt with rfl | hlt
  · rw [← pow_add, Nat.log2_two_pow]
    exact pow_dvd_pow 2 (Nat.sub_le _ _)
  · have hlog : Nat.log2 (q * 2 ^ k) < m + 1 + k :=
      (Nat.log2_lt hne).2 (by rw [pow_add]; exact Nat.mul_lt_mul_of_pos_right hlt (Nat.two_pow_pos k))
    exact (pow_dvd_pow 2 (by omega)).mul_left q

end

/-! ## The value of a code -/

/-- The smallest subnormal of a format. -/
def quantum (f : FloatFmt) : ℚ := 2 ^ (1 - ((fmtInfo f).bias : ℤ) - (fmtInfo f).m)

theorem quantum_pos (f : FloatFmt) : 0 < quantum f := zpow_pos two_pos _

/-- The value of a magnitude by its exponent and significand. -/
theorem decodeMag_mul_quantum {f : FloatFmt} {e r : Nat} (hr : r < 2 ^ (fmtInfo f).m) :
    (decodeMag (fmtInfo f).m (e * 2 ^ (fmtInfo f).m + r) : ℚ) * quantum f =
      if e = 0 then (r : ℚ) * 2 ^ (1 - ((fmtInfo f).bias : ℤ) - (fmtInfo f).m)
      else (2 ^ (fmtInfo f).m + (r : ℚ)) * 2 ^ ((e : ℤ) - (fmtInfo f).bias - (fmtInfo f).m) := by
  rw [decodeMag_fields hr, quantum]
  split
  next => rfl
  next he =>
    obtain ⟨k, rfl⟩ := Nat.exists_eq_succ_of_ne_zero he
    have hexp : ((k.succ : Nat) : ℤ) - (fmtInfo f).bias - (fmtInfo f).m = k + (1 - ((fmtInfo f).bias : ℤ) - (fmtInfo f).m) := by
      push_cast
      ring
    rw [hexp, zpow_add₀ two_ne_zero, zpow_natCast, Nat.succ_sub_one]
    push_cast
    ring

theorem maxFinite_eq (f : FloatFmt) : maxFinite f = decodeMag (fmtInfo f).m (fmtInfo f).maxCode * quantum f := by
  cases f <;> norm_num [maxFinite, decodeMag, fmtInfo, quantum, zpow_neg]

theorem maxCode_lt (f : FloatFmt) : (fmtInfo f).maxCode < 2 ^ ((fmtInfo f).w - 1) := by cases f <;> decide

theorem infCode_eq {f : FloatFmt} {c : Nat} (h : (fmtInfo f).infCode = some c) :
    c = (fmtInfo f).maxCode + 1 ∧ c < 2 ^ ((fmtInfo f).w - 1) := by
  cases f <;> cases h <;> decide

section
variable {f : FloatFmt} {s : Bool} {mag : Nat}

theorem decodeFloat_withSign (h : mag < 2 ^ ((fmtInfo f).w - 1)) : decodeFloat f (withSign (fmtInfo f) s mag) =
    if (fmtInfo f).infCode = some mag then .inf s
    else if mag > (fmtInfo f).maxCode then .nan
    else if mag = 0 then .zero s
    else if mag / 2 ^ (fmtInfo f).m = 0 then .fin s (mag % 2 ^ (fmtInfo f).m) (1 - ((fmtInfo f).bias : Int) - (fmtInfo f).m) false
    else .fin s (2 ^ (fmtInfo f).m + mag % 2 ^ (fmtInfo f).m)
      (((mag / 2 ^ (fmtInfo f).m : Nat) : Int) - (fmtInfo f).bias - (fmtInfo f).m) false := by
  have hw := (fmtInfo f).w_sub_one
  have hmag : bitField mag 0 ((fmtInfo f).w - 1) = mag := by rw [bitField, pow_zero, Nat.div_one, Nat.mod_eq_of_lt h]
  have hexp : bitField mag (fmtInfo f).m (fmtInfo f).e = mag / 2 ^ (fmtInfo f).m := by
    rw [bitField, Nat.mod_eq_of_lt]
    rw [Nat.div_lt_iff_lt_mul (Nat.two_pow_pos _), ← pow_add, ← hw]
    exact h
  have hsig : bitField mag 0 (fmtInfo f).m = mag % 2 ^ (fmtInfo f).m := by rw [bitField, pow_zero, Nat.div_one]
  rw [decodeFloat, bitAt_withSign h, bitField_withSign (by omega), bitField_withSign (by omega), bitField_withSign (by omega),
    hmag, hexp, hsig]

/-- A code beyond the largest finite value is an infinity or a NaN. -/
theorem decodeFloat_above (h : mag < 2 ^ ((fmtInfo f).w - 1)) (hmax : (fmtInfo f).maxCode < mag) :
    decodeFloat f (withSign (fmtInfo f) s mag) = if (fmtInfo f).infCode = some mag then .inf s else .nan := by
  rw [decodeFloat_withSign h, if_pos hmax]

/-- The other codes show their sign and the value of their magnitude. -/
theorem real_decodeFloat (h : mag ≤ (fmtInfo f).maxCode) : (decodeFloat f (withSign (fmtInfo f) s mag)).real =
    some ((if s then -1 else 1) * (decodeMag (fmtInfo f).m mag * quantum f)) := by
  have hinf : (fmtInfo f).infCode ≠ some mag := fun hc => by have := (infCode_eq hc).1; omega
  rw [decodeFloat_withSign (h.trans_lt (maxCode_lt f)), if_neg hinf, if_neg (by omega)]
  have hr := Nat.mod_lt mag (Nat.two_pow_pos (fmtInfo f).m)
  have hmag := Nat.div_add_mod' mag (2 ^ (fmtInfo f).m)
  generalize mag / 2 ^ (fmtInfo f).m = e at hmag ⊢
  generalize mag % 2 ^ (fmtInfo f).m = r at hmag hr ⊢
  rw [← hmag, decodeMag_mul_quantum hr]
  split
  next hzero =>
    obtain ⟨he, rfl⟩ : e = 0 ∧ r = 0 := by simpa using hzero
    simp [Exact.real, he]
  next =>
    split
    next => rfl
    next => simp [Exact.real]

/-! ## What the codes of a delivery show -/

theorem shows_magnitude (h : mag ≤ (fmtInfo f).maxCode) :
    shows f s (withSign (fmtInfo f) s mag) (.finite (decodeMag (fmtInfo f).m mag * quantum f)) := by
  have hlt := h.trans_lt (maxCode_lt f)
  refine ⟨?_, bitAt_withSign hlt, withSign_lt hlt⟩
  rw [real_decodeFloat h]
  cases s <;> simp

/-- A value that the format can hold is shown by its code. -/
theorem shows_value {y : Nat} (h : 2 ^ (Nat.log2 y - (fmtInfo f).m) ∣ y)
    (hy : y ≤ decodeMag (fmtInfo f).m (fmtInfo f).maxCode) :
    shows f s (withSign (fmtInfo f) s (encodeMag (fmtInfo f).m y)) (.finite (y * quantum f)) := by
  have hcode := decodeMag_encodeMag h
  have hmax : encodeMag (fmtInfo f).m y ≤ (fmtInfo f).maxCode := decodeMag_strictMono.le_iff_le.1 (hcode.trans_le hy)
  simpa only [hcode] using shows_magnitude (s := s) hmax

theorem shows_zero : shows f s (withSign (fmtInfo f) s 0) (.finite 0) := by
  simpa [decodeMag] using shows_magnitude (f := f) (s := s) (Nat.zero_le _)

theorem shows_maxFinite : shows f s (withSign (fmtInfo f) s (fmtInfo f).maxCode) (.finite (maxFinite f)) :=
  maxFinite_eq f ▸ shows_magnitude le_rfl

theorem shows_infinite {c : Nat} (h : (fmtInfo f).infCode = some c) : shows f s (withSign (fmtInfo f) s c) .infinite := by
  obtain ⟨hmax, hlt⟩ := infCode_eq h
  rw [shows, decodeFloat_above hlt (by omega), if_pos h]

end

/-! ## The fields of a code -/

section
variable {f : FloatFmt} {e m : Nat}

theorem fields_lt (he : e < 2 ^ (fmtInfo f).e) (hm : m < 2 ^ (fmtInfo f).m) :
    m + e * 2 ^ (fmtInfo f).m < 2 ^ ((fmtInfo f).w - 1) := by
  rw [FmtInfo.w_sub_one, pow_add]
  nlinarith

/-- The fields of an infinity or a NaN are those above the largest finite value. -/
theorem isSpecial_iff (he : e < 2 ^ (fmtInfo f).e) (hm : m < 2 ^ (fmtInfo f).m) :
    isSpecial f e m = true ↔ (fmtInfo f).maxCode < m + e * 2 ^ (fmtInfo f).m := by
  cases f <;> simp [isSpecial, fmtInfo] at he hm ⊢ <;> omega

theorem infCode_iff (he : e < 2 ^ (fmtInfo f).e) (hm : m < 2 ^ (fmtInfo f).m) (h : isSpecial f e m = true) :
    (fmtInfo f).infCode = some (m + e * 2 ^ (fmtInfo f).m) ↔ ¬(f = .e4m3 ∨ m ≠ 0) := by
  cases f <;> simp [isSpecial, fmtInfo] at he hm h ⊢ <;> omega

end

end Sys2Proof.Machine
end

section
/-! PROOFS. The rounding of a magnitude (R95, R101): the integer quotient and its remainder round as the rational number does. -/

open Sys2Proof.Machine

namespace Sys2Proof.Machine

/-! ## The draw of a stochastic rounding -/

theorem rotl32_lt {x n : Nat} (hx : x < 2 ^ 32) (hn : n ≤ 32) : rotl32 x n < 2 ^ 32 := by
  obtain ⟨k, hk⟩ := Nat.exists_eq_add_of_le hn
  have hhigh : x * 2 ^ n % 2 ^ 32 = 2 ^ n * (x % 2 ^ k) := by
    rw [hk, pow_add, Nat.mul_comm x, Nat.mul_mod_mul_left]
  have hlow : x / 2 ^ k < 2 ^ n := by
    rw [Nat.div_lt_iff_lt_mul (Nat.two_pow_pos k), ← pow_add, ← hk]
    exact hx
  rw [rotl32, hhigh, hk, Nat.add_sub_cancel_left, pow_add]
  have := Nat.mul_le_mul_left (2 ^ n) (Nat.mod_lt x (Nat.two_pow_pos k))
  rw [Nat.mul_succ] at this
  omega

/-- One round of Husk (R103). `delta` keeps the kernel from counting up to the round's constant in unary. -/
theorem huskRounds_succ (n i x0 x1 x2 x3 : Nat) : huskRounds (n + 1) i x0 x1 x2 x3 =
    huskRounds n (i + 1) x1 x2 (x3 ^^^ rotl32 ((x0 + x1 + (i + 1) * 0x9E3779B9) % 2 ^ 32) (if i % 2 = 0 then 8 else 12))
      ((x0 + x1 + (i + 1) * 0x9E3779B9) % 2 ^ 32) := by
  delta huskRounds
  rfl

theorem huskRounds_lt (n i x0 x1 : Nat) {x2 x3 : Nat} (h2 : x2 < 2 ^ 32) (h3 : x3 < 2 ^ 32) :
    huskRounds n i x0 x1 x2 x3 < 2 ^ 32 := by
  induction n generalizing i x0 x1 x2 x3 with
  | zero => exact Nat.xor_lt_two_pow h2 h3
  | succ n ih =>
    rw [huskRounds_succ]
    have ht := Nat.mod_lt (x0 + x1 + (i + 1) * 0x9E3779B9) (Nat.two_pow_pos 32)
    exact ih _ _ _ (Nat.xor_lt_two_pow h3 (rotl32_lt ht (by split <;> decide))) ht

theorem husk_lt (key ctr : Nat) : husk key ctr < 2 ^ 32 :=
  huskRounds_lt _ _ _ _ (Nat.mod_lt _ (Nat.two_pow_pos 32)) (Nat.mod_lt _ (Nat.two_pow_pos 32))

/-- The random bits alone do not round up. -/
theorem draw_lt (key ctr srb : Nat) : husk key ctr / 2 ^ (32 - srbWidth srb) < 2 ^ srbWidth srb := by
  have hr : srbWidth srb ≤ 32 := by rw [srbWidth]; omega
  rw [Nat.div_lt_iff_lt_mul (Nat.two_pow_pos _), ← pow_add, Nat.add_sub_cancel' hr]
  exact husk_lt key ctr

/-! ## Binary places of a positive real `n * 2^e` -/

section
variable {n : Nat} (e : Int)

theorem log_mul_two_zpow (hn : 0 < n) : Int.log 2 ((n : ℚ) * 2 ^ e) = (Nat.log2 n : Int) + e := by
  have hpos : (0 : ℚ) < n * 2 ^ e := by positivity
  have hlow : (2 : ℚ) ^ Nat.log2 n ≤ n := by exact_mod_cast Nat.log2_self_le hn.ne'
  have hhigh : (n : ℚ) < 2 ^ (Nat.log2 n + 1) := by exact_mod_cast Nat.lt_log2_self
  have h2 : (0 : ℚ) < 2 ^ e := by positivity
  refine le_antisymm ?_ ?_
  · rw [← Int.lt_add_one_iff, ← Int.lt_zpow_iff_log_lt one_lt_two hpos]
    have := mul_lt_mul_of_pos_right hhigh h2
    rwa [← zpow_natCast, ← zpow_add₀ two_ne_zero, Nat.cast_succ, add_right_comm] at this
  · rw [← Int.zpow_le_iff_le_log one_lt_two hpos]
    have := mul_le_mul_of_nonneg_right hlow h2.le
    rwa [← zpow_natCast, ← zpow_add₀ two_ne_zero] at this

theorem lt_two_zpow_iff (hn : 0 < n) (k : Int) : (n : ℚ) * 2 ^ e < 2 ^ k ↔ (Nat.log2 n : Int) + e < k := by
  rw [← log_mul_two_zpow e hn]
  exact_mod_cast Int.lt_zpow_iff_log_lt (R := ℚ) one_lt_two (by positivity)

end

theorem scaled_ratio_eq (n : Nat) (e u : Int) :
    ((n * 2 ^ (e - u).toNat : Nat) : ℚ) / (2 ^ (u - e).toNat : Nat) = (n * 2 ^ e) / 2 ^ u := by
  rw [mul_div_assoc, ← zpow_sub₀ two_ne_zero]
  push_cast
  rcases le_total u e with h | h
  · rw [Int.toNat_of_nonpos (sub_nonpos.2 h), pow_zero, div_one, ← zpow_natCast, Int.toNat_of_nonneg (sub_nonneg.2 h)]
  · rw [Int.toNat_of_nonpos (sub_nonpos.2 h), pow_zero, mul_one, ← zpow_natCast, Int.toNat_of_nonneg (sub_nonneg.2 h),
      div_eq_mul_inv, ← zpow_neg, neg_sub]

/-! ## A quotient rounded -/

/-- The quotient of two numbers, rounded. -/
def roundQuot (md : Modes) (ctr num den : Nat) : Nat :=
  if roundsUp md ctr (num % den) den false (bitAt (num / den) 0) then num / den + 1 else num / den

/-- The multiple of `2^u` to which `n * 2^e` is rounded is a rounded quotient. -/
theorem roundAt_eq (md : Modes) (ctr n : Nat) (e u : Int) : roundAt md ctr n e false u =
    (roundQuot md ctr (n * 2 ^ (e - u).toNat) (2 ^ (u - e).toNat), decide (0 < n * 2 ^ (e - u).toNat % 2 ^ (u - e).toNat)) := by
  rw [roundAt]
  split
  next h => simp [roundQuot, Int.toNat_of_nonpos (sub_nonpos.2 h), Nat.mod_one]
  next h => simp [roundQuot, Int.toNat_of_nonpos (sub_nonpos.2 (not_le.1 h).le)]

section
variable {md : Modes} {ctr num den : Nat} {u a : ℚ}

theorem roundQuot_le {k : Nat} (hden : 0 < den) (h : num < k * den) : roundQuot md ctr num den ≤ k := by
  have := (Nat.div_lt_iff_lt_mul hden).2 h
  rw [roundQuot]
  split <;> omega

theorem le_roundQuot : num / den ≤ roundQuot md ctr num den := by
  rw [roundQuot]
  split <;> omega

theorem bitAt_zero_iff (q : Nat) : bitAt q 0 = true ↔ (q : ℤ) % 2 = 1 := by
  simp [bitAt, bitField]
  omega

theorem floor_quot : ⌊(num : ℚ) / den⌋ = ((num / den : Nat) : ℤ) := by
  rw [Rat.floor_natCast_div_natCast]
  rfl

theorem frac_eq : (num : ℚ) / den - (num / den : Nat) = (num % den : Nat) / den := by
  rw [← Int.fract_div_natCast_eq_div_natCast_mod, Int.fract, floor_quot, Int.cast_natCast]

/-- Whether a quotient is rounded up is told by its fraction (R95, R101). -/
theorem roundsUp_iff {rem q : Nat} (hden : 0 < den) : roundsUp md ctr rem den false (bitAt q 0) = true ↔
    if md.rnd = 0 then 1 / 2 < (rem : ℚ) / den ∨ ((rem : ℚ) / den = 1 / 2 ∧ (q : ℤ) % 2 = 1)
    else md.rnd = 2 ∧ (2 : ℤ) ^ srbWidth md.srb ≤ ⌊(rem : ℚ) / den * 2 ^ srbWidth md.srb⌋ +
        (husk md.key.toNat ctr / 2 ^ (32 - srbWidth md.srb) : Nat) := by
  have hd : (0 : ℚ) < den := by exact_mod_cast hden
  rw [roundsUp, ← bitAt_zero_iff]
  split
  next =>
    rw [div_lt_div_iff₀ two_pos hd, div_eq_div_iff hd.ne' two_ne_zero]
    simp only [Bool.or_eq_true, Bool.and_eq_true, decide_eq_true_eq, Bool.false_eq_true, false_or]
    norm_cast
    grind
  next =>
    split
    next hst =>
      have hfloor : ⌊(rem : ℚ) / den * 2 ^ srbWidth md.srb⌋ = ((rem * 2 ^ srbWidth md.srb / den : Nat) : ℤ) := by
        rw [← floor_quot, div_mul_eq_mul_div]
        norm_cast
      have hdraw := draw_lt md.key.toNat ctr md.srb
      have hrem : 2 ^ srbWidth md.srb ≤ rem * 2 ^ srbWidth md.srb / den + husk md.key.toNat ctr / 2 ^ (32 - srbWidth md.srb) →
          0 < rem := by
        intro hup
        by_contra hzero
        rw [Nat.eq_zero_of_not_pos hzero, Nat.zero_mul, Nat.zero_div, Nat.zero_add] at hup
        exact hdraw.not_ge hup
      rw [hfloor]
      simp only [stochasticUp, Bool.or_false, Bool.and_eq_true, decide_eq_true_eq]
      norm_cast
      exact ⟨fun h => ⟨hst, h.2⟩, fun h => ⟨hrem h.2, h.2⟩⟩
    next hst => simp [hst]

/-- A rational number rounded to a multiple of a unit is the quotient rounded. -/
theorem roundTo_eq (hden : 0 < den) (h : (num : ℚ) / den = a / u) :
    roundTo md ctr u a = roundQuot md ctr num den * u := by
  rw [roundTo, ← h, floor_quot, Int.cast_natCast, frac_eq]
  simp only [← roundsUp_iff hden]
  rw [roundQuot]
  split <;> simp only [Int.cast_add, Int.cast_natCast, Int.cast_one, Nat.cast_add, Nat.cast_one]

theorem eq_floor_iff (hden : 0 < den) (h : (num : ℚ) / den = a / u) : a / u = ⌊a / u⌋ ↔ num % den = 0 := by
  have hd : (den : ℚ) ≠ 0 := by positivity
  rw [← h, floor_quot, Int.cast_natCast, ← sub_eq_zero, frac_eq, div_eq_zero_iff]
  simp [hd]

end

/-! ## A magnitude rounded -/

section
variable {md : Modes} {ctr n : Nat} {e u : Int}

theorem roundTo_two_zpow : roundTo md ctr (2 ^ u) (n * 2 ^ e) = (roundAt md ctr n e false u).1 * 2 ^ u := by
  rw [roundAt_eq, roundTo_eq (Nat.two_pow_pos _) (scaled_ratio_eq n e u)]

theorem roundAt_exact_iff : (roundAt md ctr n e false u).2 = false ↔
    (n : ℚ) * 2 ^ e / 2 ^ u = ⌊(n : ℚ) * 2 ^ e / 2 ^ u⌋ := by
  rw [roundAt_eq, eq_floor_iff (Nat.two_pow_pos _) (scaled_ratio_eq n e u)]
  simp

theorem roundAt_le {k : Nat} (h : (n : ℚ) * 2 ^ e < 2 ^ (k + u)) : (roundAt md ctr n e false u).1 ≤ 2 ^ k := by
  rw [roundAt_eq]
  refine roundQuot_le (Nat.two_pow_pos _) ?_
  rw [zpow_add₀ two_ne_zero, zpow_natCast, ← div_lt_iff₀ (by positivity), ← scaled_ratio_eq, div_lt_iff₀ (by positivity)] at h
  exact_mod_cast h

theorem le_roundAt {k : Nat} (h : (2 : ℚ) ^ (k + u) ≤ n * 2 ^ e) : 2 ^ k ≤ (roundAt md ctr n e false u).1 := by
  rw [roundAt_eq]
  refine le_trans ?_ le_roundQuot
  rw [zpow_add₀ two_ne_zero, zpow_natCast, ← le_div_iff₀ (by positivity), ← scaled_ratio_eq, le_div_iff₀ (by positivity)] at h
  rw [Nat.le_div_iff_mul_le (Nat.two_pow_pos _)]
  exact_mod_cast h

end

end Sys2Proof.Machine
end

section
/-! PROOFS. The delivery of exact values to the floating-point and the integer formats (R95 to R98,
R100). -/

open Sys2Proof.Machine

namespace Sys2Proof.Machine

/-! ## Special values and overflow (R96, R97) -/

/-- A delivery shows an outcome of its sign and raises its flags. -/
def Delivers (f : FloatFmt) (s : Bool) (r : Nat × Flags) (x : Rounded × Flags) : Prop := shows f s r.1 x.1 ∧ r.2 = x.2

theorem delivers_overflow (md : Modes) (f : FloatFmt) (s : Bool) :
    Delivers f s (deliverOverflow (.fl f) md.rnd md.sat s) (beyond f md) := by
  cases f with
  | e2m3 | e3m2 | e2m1 => exact ⟨shows_maxFinite, rfl⟩
  | fp32 | bf16 | fp16 | e5m2 =>
    simp only [deliverOverflow, beyond, fmtInfo, reduceCtorEq, if_false]
    split
    · exact ⟨shows_maxFinite, rfl⟩
    · split
      · exact ⟨shows_maxFinite, rfl⟩
      · exact ⟨shows_infinite rfl, rfl⟩
  | e4m3 =>
    simp only [deliverOverflow, beyond, fmtInfo, if_true]
    split
    · exact ⟨shows_maxFinite, rfl⟩
    · split
      · exact ⟨shows_maxFinite, rfl⟩
      · exact ⟨rfl, rfl⟩

theorem delivers_infinity (f : FloatFmt) (sat s : Bool) :
    Delivers f s (deliverSpecial (.fl f) sat (.inf s)) (infinityTo f sat) := by
  cases f with
  | e2m3 | e3m2 | e2m1 => exact ⟨shows_maxFinite, rfl⟩
  | fp32 | bf16 | fp16 | e5m2 =>
    cases sat with
    | true => exact ⟨shows_maxFinite, rfl⟩
    | false => exact ⟨shows_infinite rfl, rfl⟩
  | e4m3 =>
    cases sat with
    | true => exact ⟨shows_maxFinite, rfl⟩
    | false => exact ⟨rfl, rfl⟩

theorem delivers_nan (f : FloatFmt) (sat : Bool) : Delivers f false (deliverSpecial (.fl f) sat .nan) (nanTo f) := by
  cases f with
  | e2m3 | e3m2 | e2m1 => exact ⟨shows_zero, rfl⟩
  | fp32 | bf16 | fp16 | e5m2 | e4m3 => exact ⟨rfl, rfl⟩

/-- Every overflow is inexact. -/
theorem inexact_or_beyond (f : FloatFmt) (md : Modes) : fNX ||| (beyond f md).2 = (beyond f md).2 := by
  cases f with
  | e2m3 | e3m2 | e2m1 => simp only [beyond]; rfl
  | fp32 | bf16 | fp16 | e5m2 | e4m3 =>
    simp only [beyond]
    split_ifs <;> rfl

/-! ## Finite values to a floating-point format (R95, R100) -/

/-- The exponent of the unit in the last place of `n * 2^e` in a format. -/
def lastPlace (f : FloatFmt) (n : Nat) (e : Int) : Int :=
  (if (Nat.log2 n : Int) + e < 1 - ((fmtInfo f).bias : Int) then 1 - ((fmtInfo f).bias : Int) else (Nat.log2 n : Int) + e) -
    (fmtInfo f).m

/-- A number of units in the last place as one of smallest subnormals. -/
def inQuanta (f : FloatFmt) (n : Nat) (e : Int) (q : Nat) : Nat :=
  q * 2 ^ (lastPlace f n e - (1 - ((fmtInfo f).bias : Int) - (fmtInfo f).m)).toNat

/-- The flags of a rounding to a format that discards something or does not. -/
def roundingFlags (f : FloatFmt) (n : Nat) (e : Int) (inexact : Bool) : Flags :=
  if inexact then (if (Nat.log2 n : Int) + e < 1 - ((fmtInfo f).bias : Int) then fNX ||| fUF else fNX) else 0

section
variable {md : Modes} {ctr n : Nat} {f : FloatFmt} {s : Bool} {e : Int}

theorem lastPlace_eq_max : lastPlace f n e = max ((Nat.log2 n : Int) + e) (1 - ((fmtInfo f).bias : Int)) - (fmtInfo f).m := by
  rw [lastPlace]
  split <;> omega

theorem units_eq_quanta (q : Nat) : (q : ℚ) * 2 ^ lastPlace f n e = (inQuanta f n e q : Nat) * quantum f := by
  have hle : 1 - ((fmtInfo f).bias : Int) - (fmtInfo f).m ≤ lastPlace f n e := by rw [lastPlace_eq_max]; omega
  rw [inQuanta, quantum]
  push_cast
  rw [mul_assoc, ← zpow_natCast, Int.toNat_of_nonneg (sub_nonneg.2 hle), ← zpow_add₀ two_ne_zero, sub_add_cancel]

theorem beyond_max_iff (q : Nat) :
    maxFinite f < q * 2 ^ lastPlace f n e ↔ decodeMag (fmtInfo f).m (fmtInfo f).maxCode < inQuanta f n e q := by
  rw [units_eq_quanta, maxFinite_eq, mul_lt_mul_iff_left₀ (quantum_pos f), Nat.cast_lt]

theorem deliverFloat_eq (h : (Nat.log2 n : Int) + e ≤ 300) : deliverFloat md ctr f s n e false =
    let r := roundAt md ctr n e false (lastPlace f n e)
    let o := deliverOverflow (.fl f) md.rnd md.sat s
    let y := inQuanta f n e r.1
    if decodeMag (fmtInfo f).m (fmtInfo f).maxCode < y then (o.1, roundingFlags f n e r.2 ||| o.2)
    else (withSign (fmtInfo f) s (encodeMag (fmtInfo f).m y), roundingFlags f n e r.2) := by
  rw [deliverFloat]
  dsimp only
  rw [if_neg (by omega)]
  rfl

theorem asked_eq (hn : 0 < n) : asked md ctr f (n * 2 ^ e) =
    let r := roundAt md ctr n e false (lastPlace f n e)
    let y : ℚ := r.1 * 2 ^ lastPlace f n e
    if maxFinite f < y then ((beyond f md).1, roundingFlags f n e r.2 ||| (beyond f md).2)
    else (.finite y, roundingFlags f n e r.2) := by
  have hflags : (if (n : ℚ) * 2 ^ e / 2 ^ lastPlace f n e = ⌊(n : ℚ) * 2 ^ e / 2 ^ lastPlace f n e⌋ then 0
      else if (n : ℚ) * 2 ^ e < 2 ^ (1 - ((fmtInfo f).bias : Int)) then fNX ||| fUF else fNX) =
      roundingFlags f n e (roundAt md ctr n e false (lastPlace f n e)).2 := by
    simp only [← roundAt_exact_iff (md := md) (ctr := ctr), lt_two_zpow_iff e hn, roundingFlags]
    cases (roundAt md ctr n e false (lastPlace f n e)).2 <;> rfl
  rw [asked, fieldsOf_eq]
  dsimp only
  rw [log_mul_two_zpow e hn, ← lastPlace_eq_max, roundTo_two_zpow, hflags]

/-- A finite value has at most as many units in the last place as a significand and its leading bit can count. -/
theorem units_le (hn : 0 < n) : (roundAt md ctr n e false (lastPlace f n e)).1 ≤ 2 ^ ((fmtInfo f).m + 1) := by
  refine roundAt_le ((lt_two_zpow_iff e hn _).2 ?_)
  rw [lastPlace_eq_max]
  push_cast
  omega

/-- Values far beyond every format overflow. -/
theorem maxFinite_lt_of_large (hn : 0 < n) (h : 300 < (Nat.log2 n : Int) + e) :
    maxFinite f < (roundAt md ctr n e false (lastPlace f n e)).1 * 2 ^ lastPlace f n e := by
  have hplace : lastPlace f n e = (Nat.log2 n : Int) + e - (fmtInfo f).m := by rw [lastPlace, if_neg (by omega)]
  have hunits : 2 ^ (fmtInfo f).m ≤ (roundAt md ctr n e false (lastPlace f n e)).1 := by
    refine le_roundAt (not_lt.1 fun hlt => ?_)
    have := (lt_two_zpow_iff e hn _).1 hlt
    omega
  have hmax : maxFinite f < 2 ^ (128 : Int) := by cases f <;> norm_num [maxFinite]
  calc maxFinite f < 2 ^ (128 : Int) := hmax
    _ ≤ 2 ^ ((fmtInfo f).m + lastPlace f n e) := zpow_le_zpow_right₀ one_le_two (by omega)
    _ = 2 ^ (fmtInfo f).m * 2 ^ lastPlace f n e := by rw [zpow_add₀ two_ne_zero, zpow_natCast]
    _ ≤ _ := mul_le_mul_of_nonneg_right (by exact_mod_cast hunits) (by positivity)

theorem delivers_finite (hn : 0 < n) : Delivers f s (deliverFloat md ctr f s n e false) (asked md ctr f (n * 2 ^ e)) := by
  obtain ⟨hshow, hflags⟩ := delivers_overflow md f s
  rw [asked_eq hn]
  rcases le_or_gt ((Nat.log2 n : Int) + e) 300 with hsmall | hlarge
  · rw [deliverFloat_eq hsmall]
    dsimp only
    have hunits := units_le (md := md) (ctr := ctr) (f := f) (e := e) hn
    generalize roundAt md ctr n e false (lastPlace f n e) = r at hunits ⊢
    simp only [beyond_max_iff]
    split
    next => exact ⟨hshow, by rw [hflags]⟩
    next hle =>
      rw [units_eq_quanta]
      exact ⟨shows_value (two_pow_log2_dvd _ hunits) (not_lt.1 hle), rfl⟩
  · rw [deliverFloat, if_pos hlarge]
    dsimp only
    rw [if_pos (maxFinite_lt_of_large hn hlarge)]
    refine ⟨hshow, ?_⟩
    have hnot : ¬(Nat.log2 n : Int) + e < 1 - ((fmtInfo f).bias : Int) := by omega
    rw [hflags, roundingFlags, if_neg hnot]
    split
    · exact (inexact_or_beyond f md).symm
    · exact (BitVec.zero_or).symm

/-- With FZ a value below the smallest normal is a zero (R100). -/
theorem deliverFz_finite (hn : 0 < n) : deliverFz md ctr f (.fin s n e false) =
    if md.fz = true ∧ (n : ℚ) * 2 ^ e < 2 ^ (1 - ((fieldsOf f).2.2 : ℤ)) then (withSign (fmtInfo f) s 0, fUF ||| fNX)
    else deliver md ctr (.fl f) (.fin s n e false) := by
  simp only [deliverFz, fieldsOf_eq, lt_two_zpow_iff e hn, Bool.and_eq_true, decide_eq_true_eq]

end

/-! ## Delivery to an integer format (R76, R95 to R97) -/

section
variable {md : Modes} {ctr n w : Nat} {sg s : Bool} {e : Int}

theorem codeOfInt_natCast {x : Nat} (h : x < 2 ^ w) : codeOfInt w x = x := by
  rw [codeOfInt, ← Int.natCast_mod, Int.toNat_natCast, Nat.mod_eq_of_lt h]

theorem codeOfInt_neg_two_pow (k : Nat) : codeOfInt (k + 1) (-((2 ^ k : Nat) : ℤ)) = 2 ^ k := by
  have hsplit : -((2 ^ k : Nat) : ℤ) = ((2 ^ k : Nat) : ℤ) + ((2 ^ (k + 1) : Nat) : ℤ) * -1 := by
    push_cast
    ring
  rw [codeOfInt, hsplit, Int.add_mul_emod_self_left]
  exact codeOfInt_natCast (Nat.pow_lt_pow_succ one_lt_two)

theorem intLimit_lt (hw : 0 < w) : intLimit w sg s < 2 ^ w := by
  have hpow : 2 ^ w = 2 * 2 ^ (w - 1) := by rw [← pow_succ', Nat.sub_add_cancel hw]
  have hpos := Nat.two_pow_pos (w - 1)
  rw [intLimit]
  split_ifs <;> omega

/-- The limits of an integer format, by their magnitudes (R76). -/
theorem intRange_eq : intRange w sg = (signInt true (intLimit w sg true), signInt false (intLimit w sg false)) := by
  have hpred : ∀ k, ((2 ^ k - 1 : Nat) : ℤ) = 2 ^ k - 1 := fun k => by
    rw [Nat.cast_pred (Nat.two_pow_pos k)]
    norm_cast
  cases sg <;> simp [intRange, intLimit, signInt, hpred]

theorem codeOfInt_intLimit (hw : 0 < w) : codeOfInt w (signInt s (intLimit w sg s)) = intLimit w sg s := by
  cases s with
  | false => exact codeOfInt_natCast (intLimit_lt hw)
  | true =>
    cases sg with
    | false => exact codeOfInt_natCast (Nat.two_pow_pos w)
    | true =>
      obtain ⟨k, rfl⟩ := Nat.exists_eq_succ_of_ne_zero hw.ne'
      exact codeOfInt_neg_two_pow k

theorem deliverInt_eq (h : (Nat.log2 n : Int) + e ≤ 300) : deliverInt md ctr w sg s n e false =
    let r := roundAt md ctr n e false 0
    let fl : Flags := if r.2 then fNX else 0
    if intLimit w sg s < r.1 then (intLimit w sg s, fl ||| (fST ||| fNX)) else (codeOfInt w (signInt s r.1), fl) := by
  rw [deliverInt, if_neg (by omega)]
  rfl

theorem askedInt_eq : askedInt md ctr w sg s (n * 2 ^ e) =
    let r := roundAt md ctr n e false 0
    let fl : Flags := if r.2 then fNX else 0
    if intLimit w sg s < r.1 then (signInt s (intLimit w sg s), fl ||| fST ||| fNX) else (signInt s r.1, fl) := by
  have hround : roundTo md ctr 1 (n * 2 ^ e) = (roundAt md ctr n e false 0).1 := by
    have h := roundTo_two_zpow (md := md) (ctr := ctr) (n := n) (e := e) (u := 0)
    rwa [zpow_zero, mul_one] at h
  have hexact : (n : ℚ) * 2 ^ e = ⌊(n : ℚ) * 2 ^ e⌋ ↔ (roundAt md ctr n e false 0).2 = false := by
    have h := roundAt_exact_iff (md := md) (ctr := ctr) (n := n) (e := e) (u := 0)
    rw [zpow_zero, div_one] at h
    exact h.symm
  rw [askedInt, intRange_eq]
  simp only [hround, hexact, Int.floor_natCast]
  generalize roundAt md ctr n e false 0 = r
  obtain ⟨q, inexact⟩ := r
  have hflags : (if inexact = false then (0 : Flags) else fNX) = if inexact then fNX else 0 := by cases inexact <;> rfl
  rw [hflags]
  cases s with
  | false =>
    have hlow : ¬(q : ℤ) < -(intLimit w sg true : ℤ) := by omega
    simp only [signInt, Bool.false_eq_true, if_false, if_true, hlow, Nat.cast_lt]
  | true =>
    have hhigh : ¬(intLimit w sg false : ℤ) < -q := by omega
    simp only [signInt, if_true, Bool.false_eq_true, if_false, hhigh, neg_lt_neg_iff, Nat.cast_lt]

theorem deliverInt_asked (hn : 0 < n) (hw : 0 < w) (hw' : w ≤ 300) :
    let x := askedInt md ctr w sg s (n * 2 ^ e)
    deliverInt md ctr w sg s n e false = (codeOfInt w x.1, x.2) := by
  rw [askedInt_eq]
  dsimp only
  rcases le_or_gt ((Nat.log2 n : Int) + e) 300 with hsmall | hlarge
  · rw [deliverInt_eq hsmall]
    dsimp only
    split
    next => rw [codeOfInt_intLimit hw, BitVec.or_assoc]
    next => rfl
  · have hunits : 2 ^ w ≤ (roundAt md ctr n e false 0).1 := by
      refine le_roundAt (not_lt.1 fun hlt => ?_)
      have := (lt_two_zpow_iff e hn _).1 hlt
      omega
    rw [deliverInt, if_pos hlarge, if_pos ((intLimit_lt hw).trans_le hunits), codeOfInt_intLimit hw]
    split <;> rfl

end

end Sys2Proof.Machine
end

section
/-! PROOFS. Exact sums and products (R95, R126, R129), what the fields of a code stand
for (R66), and the rules of delivery together. -/

open Sys2Proof.Machine

namespace Sys2Proof.Machine

/-! ## Sums and products of finite values -/

theorem signInt_cast (s : Bool) (n : Nat) : (signInt s n : ℚ) = (if s then -1 else 1) * n := by cases s <;> simp [signInt]

theorem Exact.real_exactOfScaled (z : Bool) (x e : Int) : (exactOfScaled z x e).real = some ((x : ℚ) * 2 ^ e) := by
  rw [exactOfScaled]
  split
  next h => simp [Exact.real, h]
  next =>
    have habs : (x : ℚ) = (if decide (x < 0) then -1 else 1) * (x.natAbs : ℚ) := by
      rw [← signInt_cast, signInt]
      simp only [decide_eq_true_eq]
      congr 1
      split <;> omega
    rw [Exact.real, ← mul_assoc, ← habs]

/-- The finite values are the zeros and the reals that are given exactly. -/
theorem Exact.real_cases {x : Exact} {p : ℚ} (h : x.real = some p) :
    (∃ s, x = .zero s ∧ p = 0) ∨ ∃ s n e, x = .fin s n e false ∧ p = signInt s n * 2 ^ e := by
  cases x with
  | nan => cases h
  | inf s => cases h
  | zero s => exact .inl ⟨s, rfl, (Option.some.inj h).symm⟩
  | fin s n e k =>
    cases k with
    | true => cases h
    | false => exact .inr ⟨s, n, e, rfl, by rw [signInt_cast, mul_assoc]; exact (Option.some.inj h).symm⟩

/-- A multiple of a power of two is one of any lesser power. -/
theorem signInt_at_lesser {e g : Int} (h : g ≤ e) (s : Bool) (n : Nat) :
    (signInt s (n * 2 ^ (e - g).toNat) : ℚ) * 2 ^ g = signInt s n * 2 ^ e := by
  have hpow : (2 : ℚ) ^ (e - g).toNat * 2 ^ g = 2 ^ e := by
    rw [← zpow_natCast, Int.toNat_of_nonneg (sub_nonneg.2 h), ← zpow_add₀ two_ne_zero, sub_add_cancel]
  rw [signInt_cast, signInt_cast, ← hpow]
  push_cast
  ring

theorem Exact.real_add {x y : Exact} {p q : ℚ} (hx : x.real = some p) (hy : y.real = some q) :
    (x.add y).real = some (p + q) := by
  obtain ⟨s, rfl, rfl⟩ | ⟨s, n, e, rfl, rfl⟩ := real_cases hx
  · obtain ⟨t, rfl, rfl⟩ | ⟨t, m, f, rfl, rfl⟩ := real_cases hy
    · simp [Exact.add, Exact.real]
    · rw [zero_add, ← hy]
      rfl
  · obtain ⟨t, rfl, rfl⟩ | ⟨t, m, f, rfl, rfl⟩ := real_cases hy
    · rw [add_zero, ← hx]
      rfl
    · rw [Exact.add, Exact.real_exactOfScaled, Int.cast_add, add_mul, signInt_at_lesser (by split <;> omega),
        signInt_at_lesser (by split <;> omega)]

theorem Exact.real_mul {x y : Exact} {p q : ℚ} (hx : x.real = some p) (hy : y.real = some q) :
    (x.mul y).real = some (p * q) := by
  obtain ⟨s, rfl, rfl⟩ | ⟨s, n, e, rfl, rfl⟩ := real_cases hx
  · rw [zero_mul]
    obtain ⟨t, rfl, -⟩ | ⟨t, m, f, rfl, -⟩ := real_cases hy <;> rfl
  · obtain ⟨t, rfl, rfl⟩ | ⟨t, m, f, rfl, rfl⟩ := real_cases hy
    · rw [mul_zero]
      rfl
    · have hsign : (if (s != t) = true then -1 else 1 : ℚ) = (if s then -1 else 1) * (if t then -1 else 1) := by
        cases s <;> cases t <;> norm_num
      rw [Exact.mul, Exact.real, zpow_add₀ two_ne_zero, signInt_cast, signInt_cast, hsign]
      push_cast
      ring_nf

theorem Exact.inf_add_finite {y : Exact} {q : ℚ} (h : y.real = some q) (s : Bool) :
    (Exact.inf s).add y = .inf s ∧ y.add (.inf s) = .inf s := by
  obtain ⟨t, rfl, -⟩ | ⟨t, m, f, rfl, -⟩ := real_cases h <;> exact ⟨rfl, rfl⟩

theorem Exact.nan_absorbs (x : Exact) :
    x.add .nan = .nan ∧ Exact.add .nan x = .nan ∧ x.mul .nan = .nan ∧ Exact.mul .nan x = .nan := by
  cases x <;> exact ⟨rfl, rfl, rfl, rfl⟩

/-! ## The sum of a reduction (R129) -/

theorem exactOfScaled_finite (z : Bool) (x e : Int) :
    exactOfScaled z x e ≠ .nan ∧ ∀ s, exactOfScaled z x e ≠ .inf s := by
  rw [exactOfScaled]
  split <;> simp

/-- Of two values that are not NaN, opposite infinities alone give NaN, and the sum is otherwise infinite where one of them is. -/
theorem Exact.add_infinite {a x : Exact} (ha : a ≠ .nan) (hx : x ≠ .nan) :
    (a.add x = .nan ∧ ∀ s, .inf s = a ∨ .inf s = x) ∨
      (a.add x ≠ .nan ∧ ∀ s, .inf s = a.add x ↔ .inf s = a ∨ .inf s = x) := by
  cases a with
  | nan => exact absurd rfl ha
  | inf s =>
    cases x with
    | nan => exact absurd rfl hx
    | inf t => cases s <;> cases t <;> simp [Exact.add]
    | zero t => exact .inr (by simp [Exact.add])
    | fin t m f k => exact .inr (by simp [Exact.add])
  | zero s => cases x <;> simp_all [Exact.add]
  | fin s n e j =>
    cases x with
    | nan => exact absurd rfl hx
    | inf t => exact .inr (by simp [Exact.add])
    | zero t => exact .inr (by simp [Exact.add])
    | fin t m f k =>
      right
      rw [Exact.add]
      obtain ⟨hnan, hinf⟩ := exactOfScaled_finite false _ _
      exact ⟨hnan, fun s => by simp [(hinf s).symm]⟩

theorem foldl_add_nan (l : List Exact) : l.foldl Exact.add .nan = .nan := by
  induction l with
  | nil => rfl
  | cons x t ih => exact ih

section
variable {a : Exact} {l : List Exact}

theorem foldl_add_opposite (hnan : .nan ∉ a :: l) (h : ∀ s, .inf s ∈ a :: l) : l.foldl Exact.add a = .nan := by
  induction l generalizing a with
  | nil => simpa using (List.mem_singleton.1 (h true)).trans (List.mem_singleton.1 (h false)).symm
  | cons x t ih =>
    simp only [List.mem_cons, not_or] at hnan h
    obtain ⟨ha, hx, ht⟩ := hnan
    obtain ⟨hsum, -⟩ | ⟨hsum, hinf⟩ := Exact.add_infinite (Ne.symm ha) (Ne.symm hx)
    · rw [List.foldl_cons, hsum, foldl_add_nan]
    · refine ih (by simp [hsum.symm, ht]) fun s => ?_
      rw [List.mem_cons, hinf, or_assoc]
      exact h s

theorem foldl_add_infinite {s : Bool} (hnan : .nan ∉ a :: l) (h : .inf s ∈ a :: l) (hno : .inf (!s) ∉ a :: l) :
    l.foldl Exact.add a = .inf s := by
  induction l generalizing a with
  | nil => exact (List.mem_singleton.1 h).symm
  | cons x t ih =>
    simp only [List.mem_cons, not_or] at hnan h hno
    obtain ⟨ha, hx, ht⟩ := hnan
    obtain ⟨hna, hnx, hnt⟩ := hno
    obtain ⟨-, hboth⟩ | ⟨hsum, hinf⟩ := Exact.add_infinite (Ne.symm ha) (Ne.symm hx)
    · exact absurd (hboth (!s)) (by simp [hna, hnx])
    · refine ih (by simp [hsum.symm, ht]) ?_ ?_
      · rw [List.mem_cons, hinf, or_assoc]
        exact h
      · rw [List.mem_cons, hinf]
        simp [hna, hnx, hnt]

end

theorem sumAll_some (a : Exact) (l : List Exact) : sumAll (some a) l = some (l.foldl Exact.add a) := by
  induction l generalizing a with
  | nil => rfl
  | cons x t ih => exact ih _

theorem reduceSum_of_nan {l : List Exact} (h : .nan ∈ l) : reduceSum l = (.nan, 0) := by
  rw [reduceSum, if_pos (List.contains_iff_mem.2 h)]

theorem reduceSum_cons {a : Exact} {l : List Exact} (h : .nan ∉ a :: l) : reduceSum (a :: l) =
    (l.foldl Exact.add a, if l.foldl Exact.add a = .nan then fNV else 0) := by
  rw [reduceSum, if_neg (mt List.contains_iff_mem.1 h), sumAll, sumAll_some]

theorem reduceSum_opposite {l : List Exact} (hnan : .nan ∉ l) (hpos : .inf false ∈ l) (hneg : .inf true ∈ l) :
    reduceSum l = (.nan, fNV) := by
  cases l with
  | nil => cases hpos
  | cons a t => rw [reduceSum_cons hnan, foldl_add_opposite hnan (Bool.forall_bool.2 ⟨hpos, hneg⟩), if_pos rfl]

theorem reduceSum_infinite {l : List Exact} {s : Bool} (hnan : .nan ∉ l) (h : .inf s ∈ l) (hno : .inf (!s) ∉ l) :
    reduceSum l = (.inf s, 0) := by
  cases l with
  | nil => cases h
  | cons a t =>
    rw [reduceSum_cons hnan, foldl_add_infinite hnan h hno]
    rfl

/-! ## The fields of a code (R66) -/

section
variable {f : FloatFmt} {s : Bool} {e m : Nat}

theorem code_eq_withSign : m + e * 2 ^ (fmtInfo f).m + bitOf s * 2 ^ ((fmtInfo f).e + (fmtInfo f).m) =
    withSign (fmtInfo f) s (m + e * 2 ^ (fmtInfo f).m) := by
  rw [withSign, FmtInfo.w_sub_one]

theorem real_of_fields (he : e < 2 ^ (fmtInfo f).e) (hm : m < 2 ^ (fmtInfo f).m) :
    (decodeFloat f (withSign (fmtInfo f) s (m + e * 2 ^ (fmtInfo f).m))).real =
      if isSpecial f e m then none
      else some ((if s then -1 else 1) * (if e = 0 then (m : ℚ) * 2 ^ (1 - ((fmtInfo f).bias : ℤ) - (fmtInfo f).m)
        else (2 ^ (fmtInfo f).m + (m : ℚ)) * 2 ^ ((e : ℤ) - (fmtInfo f).bias - (fmtInfo f).m))) := by
  rw [← decodeMag_mul_quantum hm, Nat.add_comm (e * _)]
  split
  next h =>
    rw [decodeFloat_above (fields_lt he hm) ((isSpecial_iff he hm).1 h)]
    split <;> rfl
  next h => exact real_decodeFloat (not_lt.1 (mt (isSpecial_iff he hm).2 h))

theorem special_of_fields (he : e < 2 ^ (fmtInfo f).e) (hm : m < 2 ^ (fmtInfo f).m) (h : isSpecial f e m = true) :
    decodeFloat f (withSign (fmtInfo f) s (m + e * 2 ^ (fmtInfo f).m)) = if f = .e4m3 ∨ m ≠ 0 then .nan else .inf s := by
  rw [decodeFloat_above (fields_lt he hm) ((isSpecial_iff he hm).1 h)]
  simp only [infCode_iff he hm h, ite_not]

end

theorem intFmt_bits_pos (i : IntFmt) : 0 < i.bits := by cases i <;> decide

theorem intFmt_bits_le (i : IntFmt) : i.bits ≤ 300 := by cases i <;> decide

/-- An integer destination has its limit for an infinity, and zero for a NaN (R96). -/
theorem deliver_int_infinite (md : Modes) (ctr : Nat) (i : IntFmt) (s : Bool) : deliver md ctr (intDest i) (.inf s) =
    (codeOfInt i.bits (if s then (intRange i.bits i.signed).1 else (intRange i.bits i.signed).2), fNV ||| fST) := by
  have hlimit : codeOfInt i.bits (if s then (intRange i.bits i.signed).1 else (intRange i.bits i.signed).2) =
      intLimit i.bits i.signed s := by
    rw [← codeOfInt_intLimit (intFmt_bits_pos i), intRange_eq]
    cases s <;> rfl
  rw [hlimit]
  rfl

theorem arithElem_eq (md : Modes) (f : FloatFmt) (ctr : Nat) (ops : List Exact) (x : Exact) : arithElem md f ctr ops x =
    ((deliverFz md ctr f x).1, (deliverFz md ctr f x).2 ||| (if x = .nan ∧ .nan ∉ ops then fNV else 0)) := by
  simp only [arithElem, invalidOf, List.contains_iff_mem]

/-- Settles O60: each delivery rounds the quotient as its rational number is rounded, and the codes of a format count its values. -/
theorem resultsAreRoundedFromExactValues : Obligations.ResultsAreRoundedFromExactValues := by
  unfold Obligations.ResultsAreRoundedFromExactValues
  refine ⟨fun md ctr f s n e _ hn => delivers_finite hn,
    fun md ctr i s n e _ hn => deliverInt_asked hn (intFmt_bits_pos i) (intFmt_bits_le i),
    fun md ctr f s => ⟨shows_zero, rfl⟩, ?flushed,
    fun x y p q hx hy => ⟨Exact.real_add hx hy, Exact.real_mul hx hy⟩, ?fields, ?special,
    fun md ctr f => ⟨(delivers_nan f md.sat).1, (delivers_nan f md.sat).2, delivers_infinity f md.sat⟩,
    fun md ctr i => ⟨rfl, deliver_int_infinite md ctr i⟩, Exact.nan_absorbs,
    fun s t => ⟨rfl, rfl, rfl, rfl⟩, fun s t n e k => ⟨rfl, rfl⟩, fun s y q h => Exact.inf_add_finite h s,
    ?elements, fun md f ctr s => ⟨rfl, rfl⟩,
    fun l => ⟨reduceSum_of_nan, reduceSum_opposite, fun s => reduceSum_infinite⟩⟩
  case flushed =>
    intro md ctr f s n e hn small
    rw [deliverFz_finite hn]
    refine ⟨fun hfz hsmall => ?_, fun hno => if_neg fun ⟨hfz, hsmall⟩ => ?_⟩
    · rw [if_pos ⟨hfz, hsmall⟩]
      exact ⟨shows_zero, rfl⟩
    · exact hno.elim (fun h => by simp [hfz] at h) (fun h => h hsmall)
  case fields =>
    intro f s e m
    rw [fieldsOf_eq]
    intro p he hm
    rw [code_eq_withSign]
    exact real_of_fields he hm
  case special =>
    intro f s e m
    rw [fieldsOf_eq]
    intro p he hm h
    rw [code_eq_withSign]
    exact special_of_fields he hm h
  case elements =>
    intro md f ctr ops x
    rw [arithElem_eq]
    exact ⟨rfl, rfl⟩

end Sys2Proof.Machine
end

section
/-! PROOFS. The landing of a core's results only adds to FSTAT (R94, R112). -/

open Sys2Proof.Machine

namespace Sys2Proof.Machine

/-! ## Contexts that hold a value of FSTAT and have no write of it in flight -/

/-- Whether an action in flight is no MTSR of FSTAT: no register write of it names FSTAT. -/
def FlyOp.sparesFstat (op : FlyOp) : Prop := ∀ ws fl vd, op = .regs ws fl vd → ∀ v, .fstat v ∉ ws

/-- FSTAT holds `x`, and no action in flight writes it. -/
structure Ctx.HoldsFstat (c : Ctx) (x : Word) : Prop where
  fstat : c.live.regs.fstat = x
  spared : ∀ f ∈ c.live.flights, f.op.sparesFstat

section
variable {c : Ctx} {x : Word}

theorem Ctx.HoldsFstat.write (h : c.HoldsFstat x) {w : RegWrite} (hw : ∀ v, w ≠ .fstat v) : (c.write w).HoldsFstat x := by
  cases w with
  | fstat v => exact absurd rfl (hw v)
  | ttype d w tag => cases tag <;> exact ⟨h.fstat, h.spared⟩
  | _ => exact ⟨h.fstat, h.spared⟩

theorem Ctx.HoldsFstat.writes {ws : List RegWrite} (hws : ∀ v, .fstat v ∉ ws) (h : c.HoldsFstat x) :
    (c.writes ws).HoldsFstat x := by
  induction ws generalizing c with
  | nil => exact h
  | cons w t ih =>
    exact ih (fun v hv => hws v (List.mem_cons_of_mem w hv)) (h.write (fun v e => hws v (e ▸ List.mem_cons_self)))

/-- Actions in flight filtered. -/
theorem Ctx.HoldsFstat.filterFlights (h : c.HoldsFstat x) (p : Flight → Bool) :
    (c.withFlights (c.live.flights.filter p)).HoldsFstat x :=
  ⟨h.fstat, fun f hf => h.spared f (List.mem_filter.mp hf).1⟩

/-- What an action in flight has captured changed. -/
theorem Ctx.HoldsFstat.mapFlights (h : c.HoldsFstat x) {g : Flight → Flight} (hg : ∀ f, (g f).op = f.op) :
    (c.withFlights (c.live.flights.map g)).HoldsFstat x := by
  refine ⟨h.fstat, fun f hf => ?_⟩
  obtain ⟨f', hf', rfl⟩ := List.mem_map.mp hf
  rw [hg]
  exact h.spared f' hf'

theorem Ctx.HoldsFstat.addFlight (h : c.HoldsFstat x) {f : Flight} (hf : f.op.sparesFstat) :
    (c.withFlights (c.live.flights ++ [f])).HoldsFstat x := by
  refine ⟨h.fstat, fun g hg => ?_⟩
  rcases List.mem_append.mp hg with hg | hg
  · exact h.spared g hg
  · rwa [List.mem_singleton.mp hg]

end

/-- The same of the context of a sheet on a core. -/
def Device.HoldsFstat (s : Device) (l core : Nat) (x : Word) : Prop := (s.ctx l core).HoldsFstat x

section
variable {s t : Device} {l core : Nat} {x : Word}

theorem Device.HoldsFstat.of_ctxs (h : s.HoldsFstat l core x) (ht : t.ctxs = s.ctxs) : t.HoldsFstat l core x := by
  rwa [Device.HoldsFstat, Device.ctx, ht]

theorem Device.HoldsFstat.of_ctx {c : Ctx} (h : c.HoldsFstat x) : (s.setCtx l core c).HoldsFstat l core x := by
  rwa [Device.HoldsFstat, Device.ctx_setCtx]

theorem Device.HoldsFstat.writeRegs (h : s.HoldsFstat l core x) {ws : List RegWrite} (hws : ∀ v, .fstat v ∉ ws) :
    (writeRegs l core ws s).HoldsFstat l core x := .of_ctx (h.writes hws)

theorem Device.HoldsFstat.dropFlight (h : s.HoldsFstat l core x) (seq : Nat) : (dropFlight l core seq s).HoldsFstat l core x :=
  .of_ctx (h.filterFlights _)

theorem Device.HoldsFstat.mapFlight (h : s.HoldsFstat l core x) (seq : Nat) {g : Flight → Flight} (hg : ∀ f, (g f).op = f.op) :
    (mapFlight l core seq g s).HoldsFstat l core x :=
  .of_ctx (h.mapFlights (fun f => by split <;> simp only [hg]))

theorem Device.HoldsFstat.follow (h : s.HoldsFstat l core x) (f : Flight) (due : Nat) {op : FlyOp} (hop : op.sparesFstat) :
    (follow l core f due op s).HoldsFstat l core x :=
  .of_ctx (Ctx.HoldsFstat.addFlight h hop)

theorem Device.HoldsFstat.followStores (h : s.HoldsFstat l core x) (f : Flight) (t : Nat) (ls : List (Nat × List Byte × Flags)) :
    (followStores l core f t ls s).HoldsFstat l core x := by
  induction ls generalizing s t with
  | nil => exact h
  | cons p rest ih => exact ih (h.follow f t (by rintro ws fl vd ⟨⟩)) (t + 1)

theorem Device.HoldsFstat.captureAll (h : s.HoldsFstat l core x) (target : Nat) (ranges : List (Nat × Nat)) :
    (captureAll l core target ranges s).HoldsFstat l core x := by
  induction ranges generalizing s with
  | nil => exact h
  | cons p rest ih => exact ih (h.mapFlight target (fun _ => rfl))

theorem Device.HoldsFstat.mapBuffered (h : s.HoldsFstat l core x) (seq : Nat) (g : Buffered → Buffered) :
    (mapBuffered l core seq g s).HoldsFstat l core x := .of_ctx ⟨h.fstat, h.spared⟩

theorem Device.HoldsFstat.dropTables (h : s.HoldsFstat l core x) (q : CbNum) : (dropTables l core q s).HoldsFstat l core x := by
  rw [dropTables_eq]
  exact .of_ctx ((h.of_ctxs (s.withoutTable_ctxs core q)).filterFlights _)

theorem setCount_ctxs (a n : Nat) (s : Device) : (setCount a n s).ctxs = s.ctxs := rfl

theorem writeAll_ctxs (ls : List (Nat × Nat)) (s : Device) : (writeAll ls s).ctxs = s.ctxs := by
  induction ls generalizing s with
  | nil => rfl
  | cons p rest ih => exact ih _

theorem accRowSet_ctxs (slot r n : Nat) (vs : List Nat) (s : Device) : (accRowSet slot r n vs s).ctxs = s.ctxs := by
  induction vs generalizing s n with
  | nil => rfl
  | cons v rest ih => exact ih _ _

theorem accFinal_ctxs (slot r : Nat) (z : Bool) (buf : PressBuf) (a : ARow) (cbA cbB : BitVec 256) (s : Device) :
    (accFinal slot r z buf a cbA cbB s).1.ctxs = s.ctxs := accRowSet_ctxs ..

theorem copyRowWrite_ctxs (id r : Nat) (s : Device) : (copyRowWrite id r s).1.ctxs = s.ctxs := by
  unfold copyRowWrite
  cases Assoc.get none s.copies id with
  | none => rfl
  | some c => dsimp only; split <;> rfl

theorem attestRequest_ctxs (key a m b : Nat) (s : Device) : (attestRequest key a m b s).ctxs = s.ctxs := by
  unfold attestRequest
  dsimp only
  split <;> rfl

theorem Device.HoldsFstat.convertEntry (h : s.HoldsFstat l core x) (f : Flight) (entry : Nat) :
    (convertEntry l core f entry s).1.HoldsFstat l core x := by
  unfold Machine.convertEntry
  split
  · split
    · exact h.mapBuffered ..
    · exact h
  · exact h

theorem Device.HoldsFstat.writeHeader (h : s.HoldsFstat l core x) (a : Nat) (typ : Dbl) (tick : Nat) :
    (writeHeader l core a typ tick s).HoldsFstat l core x := .of_ctx ⟨h.fstat, h.spared⟩

/-! ## One action -/

theorem fstat_notMem_advance (adv : Option LwNum) (w : BitVec 192) (n : Nat) (v : Word) : .fstat v ∉ advance adv w n := by
  cases adv <;> simp [advance]

/-- No load or command that completes writes FSTAT. -/
theorem Device.HoldsFstat.finish (h : s.HoldsFstat l core x) (f : Flight) (a : Finish) :
    (finish l core f a s).st.HoldsFstat l core x := by
  cases a with
  | scalar d a n =>
    simp only [Machine.finish]
    split
    · exact h
    · exact h.writeRegs (by simp)
  | codebook q a =>
    simp only [Machine.finish]
    split
    · exact h.writeRegs (by simp)
    · exact (h.dropTables q).writeRegs (by simp)
  | window q a =>
    simp only [Machine.finish]
    split
    · exact h
    · exact h.writeRegs (by simp)
  | laid d w w32 adv md mask old off => exact h.writeRegs (by simp [fstat_notMem_advance])
  | bufRegion b typ k n tag rows len scales slen => exact h.of_ctxs rfl
  | bufLaid b typ k n w adv sat => exact (h.of_ctxs rfl).writeRegs (fstat_notMem_advance adv w _)
  | laidFlags w k n0 c sat => exact h
  | copyWindow id =>
    simp only [Machine.finish]
    split
    · exact h.of_ctxs rfl
    · exact h
  | vector d lines => exact h.writeRegs (by simp)
  | gather d w addrs => exact h.writeRegs (by simp)
  | tile d pair rows len six pack => exact h.writeRegs (by simp)
  | scale q a => exact h.writeRegs (by simp)
  | segment d seg => exact h.writeRegs (by simp)

/-- No action but an MTSR of FSTAT writes FSTAT, and none puts such a write in flight. -/
theorem Device.HoldsFstat.perform (h : s.HoldsFstat l core x) {f : Flight} (hf : f.op.sparesFstat) :
    (perform l core f s).st.HoldsFstat l core x := by
  unfold Machine.perform
  cases hop : f.op with
  | regs ws fl vd => exact h.writeRegs (hf ws fl vd hop)
  | atomRet d v =>
    dsimp only
    split
    · exact h
    · exact h.writeRegs (by simp)
  | raise e => exact h
  | capture target ranges => exact h.captureAll target ranges
  | finish a => exact h.finish f a
  | satom target op a n v c =>
    exact (h.mapFlight target (g := fun g => g.capture a (Memory.readBytes s.spad a n)) (fun _ => rfl)).of_ctxs rfl
  | header a typ => exact h.writeHeader ..
  | take lane station target =>
    dsimp only
    split
    · exact h.mapFlight target (fun _ => rfl)
    · exact h.dropFlight target
  | takeSp lane station a =>
    dsimp only
    split
    · exact h.follow f _ (by rintro ws fl vd ⟨⟩)
    · exact h
  | beat op lines v => exact h.of_ctxs (writeAll_ctxs ..)
  | streamRow b acc r z src a at_ len sAt sLen cbA cbB => exact h.follow f _ (by rintro ws fl vd ⟨⟩)
  | accRow acc r z buf a cbA cbB => exact h.of_ctxs (accFinal_ctxs ..)
  | accMark acc typ kopen => cases typ <;> exact h.of_ctxs rfl
  | drain d acc n row m lines scales => exact h.followStores ..
  | lacq p =>
    dsimp only
    split
    · exact h
    · exact h.writeRegs (by simp)
  | copyRow id r => exact h.of_ctxs (copyRowWrite_ctxs ..)
  | copyEnd id =>
    dsimp only
    split
    · split
      · exact h.writeHeader ..
      · exact h
    · exact h
  | convert entry => exact h.convertEntry f entry
  | fredData entry a n => exact h.mapBuffered ..
  | nonce a m b => exact h.of_ctxs (attestRequest_ctxs ..)
  | nothing => exact h
  | signal a v => exact h.of_ctxs (setCount_ctxs ..)
  | consume a => exact h.of_ctxs (setCount_ctxs ..)
  | _ => exact h.of_ctxs rfl

/-! ## The actions of a tick -/

theorem Device.HoldsFstat.performAll (h : s.HoldsFstat l core x) (due : List Nat) (r : Raised) :
    (performAll l core due r s).2.HoldsFstat l core x := by
  induction due generalizing s r with
  | nil => exact h
  | cons q rest ih =>
    rw [Machine.performAll]
    split
    next => exact ih h r
    next f hf => exact ih ((h.dropFlight q).perform (h.spared f (List.mem_of_find?_eq_some hf))) _

end

theorem bitVec_or_and_self {n : Nat} (a b : BitVec n) : (a ||| b) &&& a = a := by
  ext i hi
  simp only [BitVec.getElem_and, BitVec.getElem_or]
  cases a[i] <;> simp

/-- The flags of a tick are added to FSTAT (R112). -/
theorem settleFlags_fstat (l core : Nat) (r : Raised) (s : Device) : ∃ y : Word,
    ((settleFlags l core r s).2.ctx l core).live.regs.fstat = (s.ctx l core).live.regs.fstat ||| y := by
  unfold settleFlags
  dsimp only
  split
  · exact ⟨0, by simp⟩
  · refine ⟨(orFlags (r.flags.map (fun p => p.1))).setWidth 32, ?_⟩
    split <;> simp [writeRegs, Ctx.writes, Ctx.write, Regs.write]

theorem landCore_regs (l core t : Nat) (d : Device) : ((landCore l core t d).ctx l core).live.regs =
    ((settleFlags l core (performAll l core (dueFlights (d.ctx l core) t) { flags := [], evs := [] } d).1
      (performAll l core (dueFlights (d.ctx l core) t) { flags := [], evs := [] } d).2).2.ctx l core).live.regs := by
  unfold landCore
  dsimp only
  split
  · rfl
  · rw [Device.ctx_setCtx]

/-- Settles O45: no action that lands changes FSTAT, and the flags raised are then added to it. -/
theorem landingOnlyAddsToTheFlags : Obligations.LandingOnlyAddsToTheFlags := by
  unfold Obligations.LandingOnlyAddsToTheFlags
  intro d l core t hspared old
  have hstart : d.HoldsFstat l core old := ⟨rfl, hspared⟩
  obtain ⟨y, hy⟩ := settleFlags_fstat l core
    (performAll l core (dueFlights (d.ctx l core) t) { flags := [], evs := [] } d).1
    (performAll l core (dueFlights (d.ctx l core) t) { flags := [], evs := [] } d).2
  rw [landCore_regs, hy, (hstart.performAll _ _).fstat]
  exact bitVec_or_and_self old y

end Sys2Proof.Machine
end

section
/-! PROOFS. The trial device of a press command while its slot runs (R56): what each shared operation of the slot adds to the
record of what was done, and what the operations read of it. -/

open Sys2Proof.Machine

namespace Sys2Proof.Machine

/-! ## What passes -/

theorem passed_eq_some {α : Type} {e : Except Shape α} {a : α} : passed e = some a ↔ e = .ok a := by
  cases e <;> simp [passed]

theorem granted_eq_some {α : Type} {e : Except Ev α} {a : α} : granted e = some a ↔ e = .ok a := by
  cases e <;> simp [granted]

theorem granted_bind {α β : Type} (e : Except Ev α) (f : α → Except Ev β) :
    granted (e >>= f) = (granted e).bind (fun a => granted (f a)) := by
  cases e <;> rfl

theorem granted_typed {α : Type} (s : Device) (mm : Nat) (e : Except Shape α) : granted (s.typed mm e) = passed e := by
  cases e <;> rfl

theorem typed_of_passed {α : Type} {e : Except Shape α} {a : α} (h : passed e = some a) (s : Device) (mm : Nat) :
    s.typed mm e = .ok a := by
  rw [passed_eq_some.mp h, Device.typed]

/-! ## The device but for a lease -/

/-- `now` is `d` but for the sheaves, and its issuing core's sheaf has the tensor scale and the product table of `d`. -/
structure Device.ButLease (d now : Device) : Prop where
  rest : now = { d with sheaves := now.sheaves }
  scale : (now.sheaf (d.issue.core / 4)).scale = d.curSheaf.scale
  table : (now.sheaf (d.issue.core / 4)).table = d.curSheaf.table

theorem Device.ButLease.refl (d : Device) : d.ButLease d := ⟨rfl, rfl, rfl⟩

/-- The device with another lease of the issuing core's sheaf. -/
theorem Device.ButLease.setLease (d : Device) (x : Lease) : d.ButLease (d.setLease x) := by
  refine ⟨rfl, ?_, ?_⟩ <;> rw [Device.setLease, Device.sheaf_setSheaf]

/-- What a lease is after `n` commands counted, where the issuing core holds it so long and for so many (R162, R176). -/
theorem Device.spends_eq {d now : Device} {n m : Nat} (h : d.spends n m = some now) :
    d.curSheaf.lease.holder = some (Fin.ofNat 4 d.issue.core) ∧ d.now + m ≤ d.curSheaf.lease.limit ∧
      n ≤ d.curSheaf.lease.cmds ∧ now = d.setLease (d.curSheaf.lease.spend n (d.now + m)) := by
  unfold Device.spends at h
  dsimp only at h
  split at h
  next hc =>
    obtain ⟨hholder, hlimit, hcmds⟩ := hc
    exact ⟨hholder, hlimit, hcmds, (Option.some.inj h).symm⟩
  next => cases h

/-! ## Trial devices -/

/-- A trial device in the slot of `i`, of which the record `x` of what the instruction has done holds, with no type word
being installed, no exit, and with no part changed outside the issuing context but the lease of `now`. -/
structure Did.Trial (x : Did) (d : Device) (i : Instr) (now t : Device) : Prop where
  leaves : Did.Leaves x d i now t
  butLease : d.ButLease now
  types : t.issue.types = []
  skip : x.skip = 0
  more : x.more = 0
  stays : x.exits = false

/-- A step of the slot raises no event, and `x` is what has been done after it. -/
def Did.Passes (x : Did) (d : Device) (i : Instr) (now : Device) (e : Except Ev Device) : Prop :=
  ∃ t, e = .ok t ∧ x.Trial d i now t

section
variable {x y : Did} {d now now' t : Device} {i : Instr}

theorem Did.Passes.bind {e : Except Ev Device} {f : Device → Except Ev Device} (h : x.Passes d i now e)
    (k : ∀ t, x.Trial d i now t → y.Passes d i now' (f t)) : y.Passes d i now' (e >>= f) := by
  obtain ⟨t, rfl, ht⟩ := h
  exact k t ht

/-- A step that only reads. -/
theorem Did.Passes.read {α : Type} {e : Except Ev α} {a : α} {f : α → Except Ev Device} (h : e = .ok a)
    (k : y.Passes d i now' (f a)) : y.Passes d i now' (e >>= f) := by
  rwa [h]

theorem Did.Passes.runs {e : Except Ev Device} (h : x.Passes d i now e) : x.Runs d i now e := by
  obtain ⟨t, he, ht⟩ := h
  exact ⟨t, he, ht.leaves⟩

theorem Did.Trial.passes (h : x.Trial d i now t) : x.Passes d i now (.ok t) := ⟨t, rfl, h⟩

/-- A step of which the issue keeps its list of type words. -/
theorem Did.Trial.next (h : x.Trial d i now t) {e : Except Ev Device} (hr : y.Runs d i now e)
    (htypes : ∀ u, e = .ok u → u.issue.types = t.issue.types) (hs : y.skip = x.skip) (hm : y.more = x.more)
    (he : y.exits = x.exits := by rfl) :
    y.Passes d i now e := by
  obtain ⟨u, hok, hu⟩ := hr
  exact ⟨u, hok, hu, h.butLease, (htypes u hok).trans h.types, hs.trans h.skip, hm.trans h.more, he.trans h.stays⟩

theorem Did.Trial.start (d : Device) (i : Instr) (h : d.cur.present = true) : Did.Trial {} d i d (d.opened i) :=
  ⟨Did.Leaves.start d i h, .refl d, rfl, rfl, rfl, rfl⟩

/-! ## What is read of a trial device -/

section
variable (h : x.Trial d i now t)
include h

theorem Did.Trial.eq : t = { d with sheaves := now.sheaves, ctxs := t.ctxs, seq := t.seq, issue := t.issue } := by
  have hrest := h.leaves.rest
  rw [h.butLease.rest] at hrest
  exact hrest

theorem Did.Trial.core : t.issue.core = d.issue.core := h.leaves.own.core

theorem Did.Trial.curLaunch : t.curLaunch = d.curLaunch := by
  have hl : t.launches = d.launches := by rw [h.eq]
  rw [Device.curLaunch, Device.launch, hl, h.leaves.own.l, Device.curLaunch, Device.launch]

theorem Did.Trial.phys (a : Nat) : t.curLaunch.spPhys t.issue.core a = d.phys a := by
  rw [h.curLaunch, h.core, Device.phys]

theorem Did.Trial.spRead (a n : Nat) : t.spRead d.issue.core a n = d.spRead d.issue.core a n := by
  have hs : t.spad = d.spad := by rw [h.eq]
  rw [Device.spRead, hs, Device.spRead]

theorem Did.Trial.accTyp (a : Nat) : t.accTyp a = d.accTyp a := by
  have hs : t.accType = d.accType := by rw [h.eq]
  rw [Device.accTyp, hs, Device.accTyp]

theorem Did.Trial.accOpen : t.accOpen = d.accOpen := by rw [h.eq]

theorem Did.Trial.accRead (a r n : Nat) : t.accRead a r n = (Assoc.get 0 d.acc (a * 8192 + r * 256 + n)).toNat := by
  have hs : t.acc = d.acc := by rw [h.eq]
  rw [Device.accRead, hs]

theorem Did.Trial.sheaf : t.curSheaf = now.sheaf (d.issue.core / 4) := by
  have hs : t.sheaves = now.sheaves := by rw [h.eq]
  rw [Device.curSheaf, Device.sheaf, hs, h.core, Device.sheaf]

theorem Did.Trial.scale : t.curSheaf.scale = d.curSheaf.scale := by rw [h.sheaf, h.butLease.scale]

theorem Did.Trial.table : t.curSheaf.table = d.curSheaf.table := by rw [h.sheaf, h.butLease.table]

theorem Did.Trial.regs : t.regs = { d.regs with dv := x.dims.getD d.regs.dv } := h.leaves.regs

theorem Did.Trial.srcA (a : ANum) : t.srcA a = d.regs.a[a] := by rw [Device.srcA, h.regs]

theorem Did.Trial.modes (r : RndSel) (m : SatSel) : t.modes r m = d.modes r m := by
  simp only [Device.modes, h.regs]

theorem Did.Trial.ev (c r a b u v : Nat) : t.ev c r a b u v = d.ev c r a b u v := by
  rw [Device.ev, h.leaves.slot, Device.ev]

theorem Did.Trial.promises : t.cur.promises = x.promises.getD d.cur.promises := by rw [h.leaves.cur]

theorem Did.Trial.seq : t.seq = d.seq + x.flights.length := by
  rw [h.leaves.seq, h.skip, h.more]
  rfl

/-- An accumulator slot of the partition (R17, R331). -/
theorem Did.Trial.accSlot {c a : Nat} (hs : d.slotOf c = some a) : t.accSlot c = .ok a := by
  unfold Device.slotOf at hs
  split at hs
  next hlt =>
    rw [Device.accSlot, h.curLaunch, h.core, if_pos hlt, accKey]
    exact congrArg Except.ok (Option.some.inj hs)
  next => cases hs

/-- A range of the partition (R229, R331). -/
theorem Did.Trial.spAddr {a size align : Nat} (ha : d.inPart a size align) : t.spAddr a size align = .ok (d.phys a) := by
  obtain ⟨halign, hbound⟩ := ha
  rw [t.spAddr_ok halign (by rwa [h.curLaunch]), h.phys]

end

/-! ## Operations that raise no event -/

/-- The record with more actions in flight and bank-ticks. -/
def Did.plus (x : Did) (fl : List (Nat × FlyOp)) (us : List BankRes) : Did :=
  { x with flights := x.flights ++ fl, uses := x.uses ++ us }

theorem Did.plus_plus (x : Did) (fl fl' : List (Nat × FlyOp)) (us us' : List BankRes) :
    (x.plus fl us).plus fl' us' = x.plus (fl ++ fl') (us ++ us') := by
  simp only [Did.plus, List.append_assoc]

theorem Did.plus_flights (x : Did) (fl : List (Nat × FlyOp)) : x.plus fl [] = { x with flights := x.flights ++ fl } := by
  rw [Did.plus, List.append_nil]

theorem Did.plus_nil (x : Did) : x.plus [] [] = x := by
  simp only [Did.plus, List.append_nil]

theorem Did.Trial.useLine (h : x.Trial d i now t) (a n code : Nat) :
    (x.plus [] [d.lineUse d.issue.core n code a]).Trial d i now (useLine t.issue.core a n code t) := by
  rw [h.core]
  have hl := h.leaves.useLine d.issue.core a n code
  rw [Did.plus, List.append_nil]
  exact ⟨hl, h.butLease, h.types, h.skip, h.more, h.stays⟩

theorem Did.Trial.useLines (h : x.Trial d i now t) (n code : Nat) (l : List Nat) :
    (x.plus [] (d.lineUses d.issue.core n code l)).Trial d i now (useLines t.issue.core n code l t) := by
  induction l generalizing x t with
  | nil => rwa [Device.lineUses, List.map_nil, Did.plus_nil]
  | cons a l ih =>
    have hrec := ih (h.useLine a n code)
    rwa [Did.plus_plus] at hrec

/-- The felt lines of a drain counted (R170, R175). -/
theorem Did.Trial.countLines (h : x.Trial d i now t) (n : Nat) :
    ({ x with lines := n } : Did).Trial d i now { t with issue := { t.issue with lines := n } } := by
  obtain ⟨hl, hb, ht, hs, hm, hstays⟩ := h
  refine ⟨?_, hb, ht, hs, hm, hstays⟩
  exact {
    own := hl.own.of rfl rfl rfl, cur := hl.cur, seq := hl.seq, rest := by rw [hl.rest], tick := hl.tick, pc := hl.pc,
    nslots := hl.nslots, q := hl.q, target := hl.target, waitt := hl.waitt, push := hl.push, pop := hl.pop, exits := hl.exits,
    late := hl.late, uses := hl.uses, lines := rfl, charge := hl.charge, effects := hl.effects, unspent := hl.unspent,
    handler := hl.handler, slot := hl.slot }

theorem addFlight_issue {n : Nat} {op : FlyOp} {s u : Device} (h : addFlight n op s = .ok u) : u.issue = s.issue := by
  unfold addFlight at h
  dsimp only at h
  split at h
  · cases h
  · cases h
    rfl

/-- An action that writes no register (R9). -/
theorem Did.Trial.addFlight (h : x.Trial d i now t) (n : Nat) {op : FlyOp} (hq : op.places = []) :
    (x.plus [(n, op)] []).Passes d i now (addFlight n op t) := by
  rw [Did.plus_flights]
  exact h.next (h.leaves.addQuiet h.more n op hq) (fun u hu => by rw [addFlight_issue hu]) rfl rfl

theorem Did.Trial.captureRanges (h : x.Trial d i now t) (n target : Nat) (l : List (Nat × Nat)) :
    (x.plus [(n, .capture target (d.ranges l))] []).Passes d i now (captureRanges n target l t) := by
  unfold Machine.captureRanges
  rw [h.core]
  exact h.addFlight n rfl

theorem usePress_issue {res lo hi : Nat} {writer : Bool} {s u : Device} (h : usePress res writer lo hi s = .ok u) :
    u.issue = s.issue := by
  unfold usePress at h
  dsimp only at h
  split at h
  · cases h
  · cases h
    rfl

theorem usePresses_issue {lo hi : Nat} {writer : Bool} {l : List Nat} {s u : Device} (h : usePresses writer lo hi l s = .ok u) :
    u.issue = s.issue := by
  induction l generalizing s with
  | nil =>
    cases h
    rfl
  | cons r l ih =>
    rw [usePresses] at h
    cases hp : usePress r writer lo hi s with
    | error e => rw [hp] at h; cases h
    | ok v =>
      rw [hp] at h
      exact (ih h).trans (usePress_issue hp)

/-- A press resource that no plan and no earlier occupancy of the instruction takes (R160). -/
theorem Did.Trial.usePress (h : x.Trial d i now t) (res : Nat) (writer : Bool) (lo hi : Nat)
    (hfree : d.PressFree [d.pressUse res writer lo hi])
    (hx : ∀ p ∈ x.press, pressMeets (d.pressUse res writer lo hi) p = false) :
    ({ x with press := x.press ++ [d.pressUse res writer lo hi] } : Did).Passes d i now (usePress res writer lo hi t) :=
  h.next (h.leaves.takePress res writer lo hi hfree hx) (fun u hu => by rw [usePress_issue hu]) rfl rfl

/-- Several press resources for the same ticks (R160). -/
theorem Did.Trial.usePresses (h : x.Trial d i now t) (writer : Bool) (lo hi : Nat) (l : List Nat) (hl : l.Nodup)
    (hfree : d.PressFree (d.pressUses writer lo hi l)) (hx : x.press = []) :
    ({ x with press := d.pressUses writer lo hi l } : Did).Passes d i now (usePresses writer lo hi l t) := by
  have hr := Did.Leaves.takePresses writer lo hi l x t h.leaves hl hfree (by simp [hx])
  rw [hx, List.nil_append] at hr
  exact h.next hr (fun u hu => by rw [usePresses_issue hu]) rfl rfl

/-! ## The lease and the region header -/

/-- A press command counted against the lease (R162, R176). -/
theorem Did.Trial.pressCommand (h : x.Trial d i d t) {n m : Nat} (hs : d.spends n m = some now) :
    x.Passes d i now (pressCommand n m t) := by
  obtain ⟨hholder, hlimit, hcmds, rfl⟩ := d.spends_eq hs
  have hsheaf : t.curSheaf = d.curSheaf := h.sheaf
  have htick := h.leaves.tick
  have hplace : t.place = Fin.ofNat 4 d.issue.core := by rw [Device.place, h.core]
  have hset : t.setLease (d.curSheaf.lease.spend n (d.now + m)) =
      { d.setLease (d.curSheaf.lease.spend n (d.now + m)) with ctxs := t.ctxs, seq := t.seq, issue := t.issue } := by
    rw [Device.setLease, hsheaf, h.core, h.eq]
    rfl
  refine ⟨t.setLease (d.curSheaf.lease.spend n (d.now + m)), ?_, ?_⟩
  · have hheld : d.curSheaf.lease.held (Fin.ofNat 4 d.issue.core) d.now = true := by
      simp only [Lease.held, hholder, decide_true, Bool.true_and, decide_eq_true_eq]
      omega
    unfold Machine.pressCommand
    simp only [hsheaf, htick, hplace]
    rw [if_neg]
    rintro (hno | hno | hno)
    · rw [hheld] at hno; cases hno
    · omega
    · omega
  · exact ⟨h.leaves.elsewhere rfl rfl rfl hset, .setLease d _, h.types, h.skip, h.more, h.stays⟩

/-- The header at an address of the partition, read at issue (R158). -/
theorem Did.Trial.readHeader (h : x.Trial d i now t) {a : Nat} {hd : Header} (hh : d.headerAt a = some hd) :
    ∃ u, readHeader a 2 t = .ok (hd, u) ∧ (x.plus [] [d.lineUse d.issue.core 0 2 (d.phys hd.prog)]).Trial d i now u := by
  unfold Device.headerAt at hh
  split at hh
  next hpart =>
    have hd' := Option.some.inj hh
    have hprog : hd.prog = a := by rw [← hd']; rfl
    refine ⟨Machine.useLine t.issue.core (d.phys a) 0 2 t, ?_, by rw [hprog]; exact h.useLine (d.phys a) 0 2⟩
    rw [Machine.readHeader, h.spAddr hpart]
    simp only [bind, Except.bind, h.core, h.spRead, hd']
  next => cases hh

/-- The key of a header, by the address it was read at. -/
theorem Device.headerAt_key {a : Nat} {hd : Header} (hh : d.headerAt a = some hd) :
    hd.at_ = spKey d.issue.core (d.phys hd.prog) := by
  unfold Device.headerAt at hh
  split at hh
  next => rw [← Option.some.inj hh]; rfl
  next => cases hh

/-- The promises of the issuing context replaced. -/
theorem Did.Trial.setPromises (h : x.Trial d i now t) (l : List Promise) :
    ({ x with promises := some l } : Did).Trial d i now (t.setCur { t.cur with promises := l }) := by
  obtain ⟨hl, hb, ht, hs, hm, hstays⟩ := h
  refine ⟨hl.alike (.ofIssue rfl) (hl.own.setCur hl.own.present) ?_ hl.seq ?_, hb, ht, hs, hm, hstays⟩
  · rw [Device.setCur_cur]
    simp only [hl.cur, Option.getD_some]
  · have e := hl.rest
    generalize t.ctxs = c at *
    rw [e]
    rfl

/-- The same promises, said by name. -/
theorem Did.Trial.samePromises (h : x.Trial d i now t) {l : List Promise} (hl : x.promises.getD d.cur.promises = l) :
    ({ x with promises := some l } : Did).Trial d i now t := by
  obtain ⟨hleaves, hb, ht, hs, hm, hstays⟩ := h
  refine ⟨hleaves.alike (.refl t) hleaves.own ?_ hleaves.seq hleaves.rest, hb, ht, hs, hm, hstays⟩
  rw [hleaves.cur, hl]
  rfl

/-- A header whose tag agrees with what was promised of it (R199). -/
theorem Did.Trial.checkTag (h : x.Trial d i now t) {l l' : List Promise} {hd : Header}
    (hl : x.promises.getD d.cur.promises = l) (hk : d.tagKept l hd = some l') :
    ({ x with promises := some l' } : Did).Passes d i now (checkTag hd t) := by
  unfold Device.tagKept at hk
  unfold Machine.checkTag
  rw [h.promises, hl]
  cases hf : l.find? (fun p => p.at_ == hd.at_) with
  | none =>
    simp only [hf, Option.some.injEq] at hk
    exact (h.samePromises (hl.trans hk)).passes
  | some p =>
    simp only [hf] at hk
    split at hk
    next hc =>
      obtain ⟨htag, htick⟩ := hc
      simp only [htag, h.leaves.tick, htick, and_self, if_true]
      rw [← Option.some.inj hk]
      exact (h.setPromises _).passes
    next => cases hk

/-- A promise that a header will be written (R198). -/
theorem Did.Trial.promise (h : x.Trial d i now t) {l l' : List Promise} {hd : Header} {n : Nat}
    (hl : x.promises.getD d.cur.promises = l) (hk : d.promised l hd n = some l') :
    ({ x with promises := some l' } : Did).Passes d i now (promise hd n t) := by
  unfold Device.promised at hk
  unfold Machine.promise
  simp only [h.promises, hl, h.leaves.tick]
  dsimp only at hk
  split at hk
  next hroom =>
    rw [if_neg (Nat.not_le.mpr hroom), ← Option.some.inj hk]
    exact (h.setPromises _).passes
  next => cases hk

end

end Sys2Proof.Machine
end

section
/-! PROOFS. Dimension variables (R143 to R146): what unification keeps, that no variable is bound twice by a command whose
operands are resolved between its two rules, and the bindings as results of a slot. -/

open Sys2Proof.Machine

namespace Sys2Proof.Machine

/-! ## Chains of variables -/

/-- The variable that a variable is aliased to, or itself where it is not aliased. -/
def Dims.next (dv : Dims) (r : DNum) : DNum :=
  match dv[r] with
  | .aliased e => e
  | _ => r

/-- Whether a variable is bound to a value. -/
def Dims.isBound (dv : Dims) (r : DNum) : Prop := ∃ v, dv[r] = .bound v

theorem Dims.next_of_bound {dv : Dims} {r : DNum} (h : dv.isBound r) : dv.next r = r := by
  obtain ⟨v, hv⟩ := h
  rw [Dims.next, hv]

theorem resolve_eq_iterate (dv : Dims) (n : Nat) (r : DNum) : resolve dv n r = dv.next^[n] r := by
  induction n generalizing r with
  | zero => rfl
  | succ n ih =>
    rw [resolve, Function.iterate_succ_apply]
    cases hr : dv[r] with
    | aliased e => simp only [ih, Dims.next, hr]
    | _ =>
      have hfix : dv.next r = r := by rw [Dims.next, hr]
      rw [hfix, Function.iterate_fixed hfix]

/-- Along 16 variables, a chain of aliased variables that has not reached a value after 16 steps reaches none (R143). -/
theorem Dims.not_isBound_iterate {dv : Dims} {r : DNum} (h : ¬ dv.isBound (rootOf dv r)) (n : Nat) :
    ¬ dv.isBound (dv.next^[n] r) := by
  rw [rootOf, resolve_eq_iterate] at h
  induction n using Nat.strong_induction_on with
  | _ n ih =>
    by_cases hn : n ≤ 16
    · intro hb
      have hstay : dv.next^[16] r = dv.next^[n] r := by
        rw [← Nat.sub_add_cancel hn, Function.iterate_add_apply, Function.iterate_fixed (next_of_bound hb)]
      exact h (hstay ▸ hb)
    · obtain ⟨i, j, hne, heq⟩ :=
        Fintype.exists_ne_map_eq_of_card_lt (fun k : Fin 17 => dv.next^[k.val] r) (by simp)
      wlog hlt : i < j generalizing i j with hsym
      · exact hsym j i hne.symm heq.symm (lt_of_le_of_ne (not_lt.mp hlt) hne.symm)
      have hstep : dv.next^[n] r = dv.next^[n - j.val + i.val] r := by
        have hj : n = n - j.val + j.val := by omega
        conv_lhs => rw [hj]
        rw [Function.iterate_add_apply, ← heq, ← Function.iterate_add_apply]
      rw [hstep]
      exact ih _ (by omega)

theorem term_eq_var {dv : Dims} {x : Nat} {r : DNum} (h : term dv x = .var r) :
    symbolic x = true ∧ rootOf dv (Fin.ofNat 16 x) = r ∧ ¬ dv.isBound r := by
  unfold term at h
  split at h
  next hs =>
    unfold termVar at h
    dsimp only at h
    split at h
    next => cases h
    next hn =>
      cases h
      exact ⟨hs, rfl, fun ⟨v, hv⟩ => hn v hv⟩
  next => cases h

theorem term_ne_value_of_root {dv : Dims} {x : Nat} (hs : symbolic x = true) (h : ¬ dv.isBound (rootOf dv (Fin.ofNat 16 x)))
    (v : Nat) : term dv x ≠ .value v := by
  unfold term termVar
  rw [if_pos hs]
  dsimp only
  split
  next w hw => exact absurd ⟨w, hw⟩ h
  next => simp

/-- Whether a variable's chain reaches no value. -/
def Dims.IsOpen (dv : Dims) (r : DNum) : Prop := ∀ n, ¬ dv.isBound (dv.next^[n] r)

theorem Dims.isOpen_next {dv : Dims} {r : DNum} (h : dv.IsOpen r) : dv.IsOpen (dv.next r) := fun n => by
  rw [← Function.iterate_succ_apply]
  exact h (n + 1)

theorem Dims.isOpen_rootOf {dv : Dims} {r : DNum} (h : ¬ dv.isBound (rootOf dv r)) : dv.IsOpen (rootOf dv r) := fun n => by
  rw [rootOf, resolve_eq_iterate, ← Function.iterate_add_apply]
  exact not_isBound_iterate h (n + 16)

theorem Dims.getElem_set (dv : Dims) (b r : DNum) (w : DimVar) : (dv.set b w)[r] = if r = b then w else dv[r] := by
  rw [set_eq_setReg]
  simp [setReg]

section
variable {dv : Dims} {a b r : DNum} (ha : dv.IsOpen a)
include ha

theorem Dims.isOpen_next_set (hr : dv.IsOpen r) : dv.IsOpen (Dims.next (dv.set b (.aliased a)) r) := by
  by_cases h : r = b
  · rwa [Dims.next, Dims.getElem_set, if_pos h]
  · rw [Dims.next, Dims.getElem_set, if_neg h]
    exact isOpen_next hr

/-- Aliasing a variable to an open one gives no open variable a value. -/
theorem Dims.not_isBound_rootOf_set (hr : dv.IsOpen r) :
    ¬ Dims.isBound (dv.set b (.aliased a)) (rootOf (dv.set b (.aliased a)) r) := by
  have hopen : dv.IsOpen (rootOf (dv.set b (.aliased a)) r) := by
    rw [rootOf, resolve_eq_iterate]
    exact Function.Iterate.rec (fun q => dv.IsOpen q) hr (fun q hq => isOpen_next_set ha hq) 16
  rintro ⟨v, hv⟩
  rw [Dims.getElem_set] at hv
  split at hv
  next => cases hv
  next => exact hopen 0 ⟨v, hv⟩

end

/-- An extent that an unbound variable stands for still has no value after a variable is aliased to an unbound one. -/
theorem term_ne_value_of_aliased {dv : Dims} {x y : Nat} {a b c : DNum} (hx : term dv x = .var c) (hy : term dv y = .var a)
    (v : Nat) : term (dv.set b (.aliased a)) x ≠ .value v := by
  obtain ⟨hsx, hrx, hbx⟩ := term_eq_var hx
  obtain ⟨-, rfl, hby⟩ := term_eq_var hy
  have hopen : dv.IsOpen (Fin.ofNat 16 x) := Dims.not_isBound_iterate (hrx ▸ hbx)
  exact term_ne_value_of_root hsx
    (Dims.not_isBound_rootOf_set (Dims.isOpen_rootOf hby) hopen) v

/-! ## What unification binds -/

/-- The values that variables are bound to stay. -/
def Dims.KeepsValues (dv dw : Dims) : Prop := ∀ r, dv.isBound r → dw[r] = dv[r]

theorem Dims.KeepsValues.refl (dv : Dims) : dv.KeepsValues dv := fun _ _ => rfl

theorem Dims.KeepsValues.trans {du dv dw : Dims} (h : du.KeepsValues dv) (k : dv.KeepsValues dw) : du.KeepsValues dw :=
  fun r hr => by rw [k r (by rw [isBound, h r hr]; exact hr), h r hr]

theorem Dims.keepsValues_set {dv : Dims} {r : DNum} (h : ¬ dv.isBound r) (w : DimVar) : dv.KeepsValues (dv.set r w) := by
  intro q hq
  rw [Dims.getElem_set, if_neg]
  rintro rfl
  exact h hq

/-- What unification of two extents leaves: the variables as they are, one unbound variable bound to a value, or one of two
unbound ones aliased to the other (R145). -/
theorem unify_cases {types : List Nat} {dv dw : Dims} {x y : Term} {operand field : Nat}
    (h : unify types dv x y operand field = .ok dw) :
    dw = dv ∨ (∃ r v, (x = .var r ∨ y = .var r) ∧ dw = dv.set r (.bound v)) ∨
      ∃ a b, x = .var a ∧ y = .var b ∧ (dw = dv.set b (.aliased a) ∨ dw = dv.set a (.aliased b)) := by
  cases x with
  | value m =>
    cases y with
    | value n =>
      simp only [unify] at h
      split at h
      · cases h
      · exact .inl (Except.ok.inj h).symm
    | var r =>
      simp only [unify] at h
      split at h
      · cases h
      · split at h
        · exact .inr (.inl ⟨r, _, .inr rfl, (Except.ok.inj h).symm⟩)
        · cases h
  | var a =>
    cases y with
    | value n =>
      simp only [unify] at h
      split at h
      · cases h
      · split at h
        · exact .inr (.inl ⟨a, _, .inl rfl, (Except.ok.inj h).symm⟩)
        · cases h
    | var b =>
      simp only [unify] at h
      split at h
      · exact .inl (Except.ok.inj h).symm
      · refine .inr (.inr ⟨a, b, rfl, rfl, ?_⟩)
        split at h
        · exact .inl (Except.ok.inj h).symm
        · exact .inr (Except.ok.inj h).symm

theorem unify_keepsValues {types : List Nat} {dv dw : Dims} {x n operand field : Nat}
    (h : unify types dv (term dv x) (.value n) operand field = .ok dw) : dv.KeepsValues dw := by
  rcases unify_cases h with rfl | ⟨r, v, hr | hr, rfl⟩ | ⟨a, b, -, hb, -⟩
  · exact .refl _
  · exact Dims.keepsValues_set (term_eq_var hr).2.2 _
  · cases hr
  · cases hb

/-- Where both extents have values after their unification, every variable that it changed is bound to a value. -/
theorem unify_resolved {types : List Nat} {dv dw : Dims} {x y operand field m n : Nat}
    (h : unify types dv (term dv x) (term dv y) operand field = .ok dw) (hx : term dw x = .value m)
    (hy : term dw y = .value n) (r : DNum) (hr : dv[r] ≠ dw[r]) : dw.isBound r := by
  rcases unify_cases h with rfl | ⟨q, v, -, rfl⟩ | ⟨a, b, ha, hb, rfl | rfl⟩
  · exact absurd rfl hr
  · rw [Dims.isBound]
    rw [Dims.getElem_set] at hr ⊢
    split at hr
    next hq => exact ⟨v, if_pos hq⟩
    next => exact absurd rfl hr
  · exact absurd hx (term_ne_value_of_aliased ha ha m)
  · exact absurd hy (term_ne_value_of_aliased hb hb n)

/-! ## The rules of a logical multiplication -/

theorem bind_eq_ok {ε α β : Type} {e : Except ε α} {f : α → Except ε β} {b : β} :
    (e >>= f) = .ok b ↔ ∃ a, e = .ok a ∧ f a = .ok b := by
  cases e <;> simp [bind, Except.bind]

theorem accumulateRule_keepsValues {types : List Nat} {dv dw : Dims} {w n m : Nat} {kopen : Bool}
    (h : accumulateRule types dv w kopen n m = .ok dw) : dv.KeepsValues dw := by
  unfold accumulateRule at h
  split at h
  · cases h
  · obtain ⟨du, hu, h⟩ := bind_eq_ok.mp h
    obtain ⟨dw', hw, h⟩ := bind_eq_ok.mp h
    split at h
    · cases h
    · cases h
      exact (unify_keepsValues hu).trans (unify_keepsValues hw)

theorem ltAccRules_keepsValues {s : Device} {types : List Nat} {n m i : Nat} {slots : List Nat} {dv dw : Dims}
    (h : ltAccRules s types n m i dv slots = .ok dw) : dv.KeepsValues dw := by
  induction slots generalizing i dv with
  | nil =>
    cases h
    exact .refl _
  | cons a rest ih =>
    obtain ⟨du, hu, h⟩ := bind_eq_ok.mp h
    exact (accumulateRule_keepsValues hu).trans (ih h)

/-- The bindings of LTMMA's first rule (R176). -/
theorem ltUnify_eq_ok {s : Device} {ha hb : Header} {dv : Dims} (h : ltUnify s ha hb = .ok dv) :
    unify s.typeWords s.regs.dv (term s.regs.dv (tExt ha.typ 0)) (term s.regs.dv (tExt hb.typ 0)) 5 2 = .ok dv := by
  obtain ⟨_, _, h⟩ := bind_eq_ok.mp h
  obtain ⟨_, _, h⟩ := bind_eq_ok.mp h
  obtain ⟨_, _, h⟩ := bind_eq_ok.mp h
  obtain ⟨_, _, h⟩ := bind_eq_ok.mp h
  exact h

theorem extents_value {dv : Dims} {w operand : Nat} {e : Nat × Nat × Nat} (h : extents dv w operand = .ok e) :
    ∃ v, term dv (tExt w 0) = .value v := by
  unfold extents at h
  split at h
  next => cases h
  next hr =>
    obtain ⟨a, ha, -⟩ := bind_eq_ok.mp h
    unfold extent at ha
    rw [if_neg (by omega)] at ha
    cases ht : term dv (tExt w 0) with
    | value v => exact ⟨v, rfl⟩
    | var r => rw [ht] at ha; cases ha

theorem regionStorage_value {dv : Dims} {w operand : Nat} {st : Storage} (h : regionStorage dv w operand = .ok st) :
    ∃ v, term dv (tExt w 0) = .value v := by
  obtain ⟨e, he, -⟩ := bind_eq_ok.mp h
  exact extents_value he

/-! ## Bindings as results -/

/-- Results at issue + 1 of the variables that differ, of a list (R146). -/
def changesOf (a b : Dims) (l : List DNum) : List (Nat × FlyOp) :=
  (l.filter (fun r => decide (a[r] ≠ b[r]))).map (fun r => (1, .regs [.dv r] 0 none))

theorem changesOf_cons_same {a b : Dims} {r : DNum} {l : List DNum} (h : a[r] = b[r]) :
    changesOf a b (r :: l) = changesOf a b l := by
  rw [changesOf, List.filter_cons_of_neg (by simpa using h), changesOf]

theorem changesOf_cons_new {a b : Dims} {r : DNum} {l : List DNum} (h : a[r] ≠ b[r]) :
    changesOf a b (r :: l) = [(1, .regs [.dv r] 0 none)] ++ changesOf a b l := by
  rw [changesOf, List.filter_cons_of_pos (by simpa using h), changesOf]
  rfl

theorem Device.dimResults_eq (d : Device) (dv : Dims) : d.dimResults dv = dimChanges d.regs.dv dv := rfl

/-- Whether no action writes a dimension variable at issue + 1. -/
def Did.LeavesDim (x : Did) (r : DNum) : Prop := ∀ b ∈ x.flights, b.1 = 1 → ∀ q ∈ b.2.places, q.kind = 9 → q.reg ≠ r.val

theorem Did.leavesDim_of_flights_nil {x : Did} (h : x.flights = []) (r : DNum) : x.LeavesDim r := by
  simp [Did.LeavesDim, h]

theorem changesOf_leavesDim {a b : Dims} {l : List DNum} {r : DNum} (h : r ∈ l → a[r] = b[r]) {x : Did}
    (hx : x.flights = changesOf a b l) : x.LeavesDim r := by
  intro p hp _ q hq _
  rw [hx] at hp
  obtain ⟨r', hr', rfl⟩ := List.mem_map.mp hp
  obtain ⟨hmem, hne⟩ := List.mem_filter.mp hr'
  obtain rfl := List.mem_singleton.mp hq
  rintro heq
  obtain rfl : r' = r := Fin.ext heq
  exact of_decide_eq_true hne (h hmem)

section
variable {x : Did} {d now t : Device} {i : Instr}

/-- The result of one variable's write. -/
theorem Did.Trial.markDim (h : x.Trial d i now t) (r : DNum) (hfree : d.LandsFree [(1, .regs [.dv r] 0 none)])
    (hx : x.LeavesDim r) : (x.plus [(1, .regs [.dv r] 0 none)] []).Passes d i now (Machine.addFlight 1 (.regs [.dv r] 0 none) t) := by
  rw [Did.plus_flights]
  refine h.next (h.leaves.add h.more 1 _ (hfree _ (List.mem_singleton_self _)) ?_) (fun u hu => by rw [addFlight_issue hu]) rfl rfl
  intro b hb hone p hp
  obtain rfl := List.mem_singleton.mp hp
  rw [List.any_eq_false]
  intro q hq
  by_cases hk : q.kind = 9
  · simp [Place.meets, Ne.symm (hx b hb hone q hq hk)]
  · simp [Place.meets, Ne.symm hk]

theorem Did.Trial.markDims (h : x.Trial d i now t) {base : Dims} (hb : x.dims.getD d.regs.dv = base) (dv : Dims) (l : List DNum)
    (hl : l.Nodup) (hfree : d.LandsFree (changesOf base dv l)) (hx : ∀ r ∈ l, base[r] ≠ dv[r] → x.LeavesDim r) :
    (x.plus (changesOf base dv l) []).Passes d i now (markDims dv l t) := by
  induction l generalizing x t with
  | nil => exact (x.plus_nil.symm ▸ h).passes
  | cons r l ih =>
    obtain ⟨hr, hl⟩ := List.nodup_cons.mp hl
    have hdv : t.regs.dv = base := by rw [h.regs, hb]
    unfold Machine.markDims
    rw [hdv]
    by_cases heq : base[r] = dv[r]
    · rw [if_pos heq, changesOf_cons_same heq]
      rw [changesOf_cons_same heq] at hfree
      exact ih h hb hl hfree (fun q hq => hx q (List.mem_cons_of_mem r hq))
    · rw [if_neg heq, changesOf_cons_new heq]
      rw [changesOf_cons_new heq] at hfree
      refine (h.markDim r (fun p hp => hfree p (List.mem_append_left _ hp)) (hx r List.mem_cons_self heq)).bind (fun u hu => ?_)
      have hrec := ih hu hb hl (fun p hp => hfree p (List.mem_append_right _ hp)) (fun q hq hne b hb hone p hp hk => ?_)
      · rwa [Did.plus_plus] at hrec
      · rcases List.mem_append.mp hb with hb | hb
        · exact hx q (List.mem_cons_of_mem r hq) hne b hb hone p hp hk
        · obtain rfl := List.mem_singleton.mp hb
          obtain rfl := List.mem_singleton.mp hp
          rintro hreg
          exact hr ((Fin.ext hreg : r = q) ▸ hq)

/-- The bindings of a rule, those before them kept apart (R146). -/
theorem Did.Trial.bindDims (h : x.Trial d i now t) {base : Dims} (hb : x.dims.getD d.regs.dv = base) (dv : Dims)
    (hfree : d.LandsFree (dimChanges base dv)) (hx : ∀ r, base[r] ≠ dv[r] → x.LeavesDim r) :
    ({ x with flights := x.flights ++ dimChanges base dv, dims := some dv } : Did).Passes d i now (t.bindDims dv) := by
  unfold Device.bindDims
  refine (h.markDims hb dv _ (List.nodup_finRange 16) hfree (fun r _ => hx r)).bind (fun u hu => ?_)
  rw [Did.plus_flights] at hu
  obtain ⟨hl, hbut, htypes, hskip, hmore, hstays⟩ := hu
  refine ⟨_, rfl, hl.alike (.ofIssue rfl) (hl.own.setCur hl.own.present) ?_ hl.seq ?_, hbut, htypes, hskip, hmore, hstays⟩
  · rw [Device.setRegs_cur]
    simp only [Device.live, Device.regs, hl.cur, Option.getD_some]
    rfl
  · have e := hl.rest
    generalize u.ctxs = c at *
    rw [e]
    rfl

/-! ## The type words that unification examines -/

/-- The type words that an action installs. -/
def FlyOp.typeWords : FlyOp → List Nat
  | .regs ws _ _ => ws.filterMap (fun x => match x with | .ttype _ w _ => some w.toNat | _ => none)
  | _ => []

theorem Device.typeWords_eq (s : Device) : s.typeWords =
    s.regs.t.toList.map (fun t => t.typ.toNat) ++ s.issue.types ++
      (s.live.flights.filter (fun f => f.issued == s.issue.tick)).flatMap (fun f => f.op.typeWords) := rfl

theorem numbered_typeWords {d : Device} {l : List (Nat × FlyOp)} (h : ∀ p ∈ l, p.2.typeWords = []) (n : Nat) (p : Flight → Bool) :
    ((d.numbered n l).filter p).flatMap (fun f => f.op.typeWords) = [] := by
  induction l generalizing n with
  | nil => rfl
  | cons q l ih =>
    obtain ⟨hq, hl⟩ := List.forall_mem_cons.mp h
    rw [Device.numbered, List.filter_cons]
    split
    · rw [List.flatMap_cons, hq, ih hl, List.append_nil]
    · exact ih hl (n + 1)

/-- Dimension variables that a slot has bound add no type word to those examined (R145). -/
theorem Did.Trial.typeWords (h : x.Trial d i now t) (hx : ∀ p ∈ x.flights, p.2.typeWords = []) :
    t.typeWords = (d.opened i).typeWords := by
  have hregs : t.regs.t = d.regs.t := by rw [h.regs]
  rw [Device.typeWords_eq, Device.typeWords_eq, hregs, h.types, h.leaves.flights, h.leaves.tick, List.filter_append,
    List.flatMap_append, numbered_typeWords hx, List.append_nil, List.append_nil]
  exact (congrArg (· ++ _) (List.append_nil _)).symm

theorem dimChanges_typeWords {a b : Dims} : ∀ p ∈ dimChanges a b, p.2.typeWords = [] := by
  intro p hp
  obtain ⟨r, -, rfl⟩ := List.mem_map.mp hp
  rfl

end

end Sys2Proof.Machine
end

section
/-! PROOFS. PDRN (R108, R170, R171): the rows that it converts, the lines that it writes, and the header of its region. -/

open Sys2Proof.Machine

namespace Sys2Proof.Machine

/-! ## Lists by place -/

theorem zip_range_cons {α : Type} (a : α) (l : List α) :
    (a :: l).zip (List.range (a :: l).length) = (a, 0) :: (l.zip (List.range l.length)).map (fun p => (p.1, p.2 + 1)) := by
  rw [List.length_cons, List.range_succ_eq_map, List.zip_cons_cons, List.zip_map_right]
  rfl

theorem feltFlights_cons (line t : Nat) (p : List Byte × Flags) (l : List (List Byte × Flags)) :
    feltFlights line t (p :: l) = (t, .felt (line % 4096) (lineOf p.1) p.2) :: feltFlights (line + 1) (t + 1) l := by
  simp only [feltFlights, zip_range_cons, List.map_cons, List.map_map, Function.comp_def, Nat.add_zero, Nat.add_assoc, Nat.add_comm 1]

theorem Device.lineFlights_cons (d : Device) (at_ : Nat → Nat) (t : Nat) (p : List Byte × Flags) (l : List (List Byte × Flags)) :
    d.lineFlights at_ t (p :: l) = (t, .storeFlags (spKey d.issue.core (d.phys (at_ 0))) p.1 p.2) ::
      d.lineFlights (fun k => at_ (k + 1)) (t + 1) l := by
  simp only [Device.lineFlights, zip_range_cons, List.map_cons, List.map_map, Function.comp_def, Nat.add_zero, Nat.add_assoc,
    Nat.add_comm 1]

theorem Device.lineTicks_succ (d : Device) (at_ : Nat → Nat) (t n : Nat) :
    d.lineTicks at_ t (n + 1) = d.lineUse d.issue.core t 2 (d.phys (at_ 0)) :: d.lineTicks (fun k => at_ (k + 1)) (t + 1) n := by
  simp only [Device.lineTicks, List.range_succ_eq_map, List.map_cons, List.map_map, Function.comp_def, Nat.add_zero, Nat.add_assoc,
    Nat.add_comm 1, Nat.succ_eq_add_one]

theorem Device.linesIn_iff (d : Device) (at_ : Nat → Nat) (n : Nat) :
    d.linesIn at_ n = true ↔ ∀ j, j < n → d.inPart (at_ j) 64 64 := by
  simp [Device.linesIn, Device.inPart]

/-! ## What a drain converts and writes -/

section
variable {x : Did} {d now t : Device} {i : Instr}

theorem Did.Trial.drainSpec (h : x.Trial d i now t) (ofmt : Nat) (rnd : RndSel) (sm : SatSel) (mx : Bool) (cbx : CbNum)
    (ctr : Nat) : t.drainSpec ofmt rnd sm mx cbx ctr = d.drainOf ofmt rnd sm mx cbx ctr := by
  simp only [Device.drainSpec, Device.drainOf, h.modes, h.scale, h.regs]

theorem Did.Trial.drained (h : x.Trial d i now t) (s : DrainSpec) (acc n m : Nat) :
    (rangeFrom 0 m).map (t.drainRow s acc n) = d.drained s acc n m := by
  have hread : ∀ r, t.accRead acc r = fun c => (Assoc.get 0 d.acc (acc * 8192 + r * 256 + c)).toNat :=
    fun r => funext (h.accRead acc r)
  have hrow : t.drainRow s acc n = fun r => Machine.drainRow s.ofmt s.md s.mx s.cb s.ts (s.ctr + n * r)
      ((List.range n).map (fun c => (Assoc.get 0 d.acc (acc * 8192 + r * 256 + c)).toNat)) :=
    funext (fun r => by rw [Device.drainRow, rangeFrom_zero, hread])
  rw [Device.drained, rangeFrom_zero, hrow]

/-- Output lines to the felt, one a tick (R170, R197). -/
theorem Did.Trial.writeFelt (h : x.Trial d i now t) (line n j : Nat) (l : List (List Byte × Flags)) :
    (x.plus (feltFlights (line + j) n l) []).Passes d i now (writeLines (.felt line) n j l t) := by
  induction l generalizing x t n j with
  | nil => exact (x.plus_nil.symm ▸ h).passes
  | cons p l ih =>
    rw [feltFlights_cons]
    refine (h.addFlight n rfl).bind (fun u hu => ?_)
    have hrec := ih hu (n + 1) (j + 1)
    rwa [Did.plus_plus] at hrec

/-- Output lines to a region, one a tick (R170). -/
theorem Did.Trial.writeRegion (h : x.Trial d i now t) {at0 at_ : Nat → Nat} (n j : Nat) (hat : ∀ k, at_ k = at0 (j + k))
    (l : List (List Byte × Flags)) (hin : ∀ k, k < l.length → d.inPart (at_ k) 64 64) :
    (x.plus (d.lineFlights at_ n l) (d.lineTicks at_ n l.length)).Passes d i now (writeLines (.region at0) n j l t) := by
  induction l generalizing x t n j at_ with
  | nil => exact (x.plus_nil.symm ▸ h).passes
  | cons p l ih =>
    rw [Device.lineFlights_cons, List.length_cons, Device.lineTicks_succ]
    have hat0 : at0 j = at_ 0 := (hat 0).symm
    rw [writeLines, hat0]
    refine .read (h.spAddr (hin 0 (Nat.succ_pos _))) ?_
    rw [h.core]
    refine (h.addFlight n rfl).bind (fun u hu => ?_)
    have hline := hu.useLine (d.phys (at_ 0)) n 2
    rw [Did.plus_plus] at hline
    have hrec := ih hline (n + 1) (j + 1) (at_ := fun k => at_ (k + 1))
      (fun k => by rw [hat, Nat.add_assoc, Nat.add_comm 1]) (fun k hk => hin (k + 1) (Nat.succ_lt_succ hk))
    rwa [Did.plus_plus] at hrec

/-- The output of a drain: its flags together and an overrun where it is packed, then its lines, as `fl` and `us` write them
(R170, R171). -/
theorem Did.Trial.drainOutput (h : x.Trial d i now t) {s : DrainSpec} {n m res : Nat} {rows : List DrainRow} {pk : Bool}
    {tgt : DrainTo} {fl : List (Nat × FlyOp)} {us : List BankRes}
    (hw : ∀ y u, Did.Trial y d i now u → (y.plus fl us).Passes d i now
      (writeLines tgt (d.drainOutOf s n m rows pk res).start 0 ((d.drainOutOf s n m rows pk res).lines.getD []) u)) :
    (x.plus ((d.drainOutOf s n m rows pk res).pre ++ fl) us).Passes d i now
      (drainOutput s n rows (m * s.rowLines n) pk res tgt t) := by
  unfold Device.drainOutOf at hw ⊢
  unfold Machine.drainOutput
  cases pk with
  | false => exact hw x t h
  | true =>
    simp only [if_true] at hw ⊢
    refine (h.addFlight _ rfl).bind (fun u hu => ?_)
    cases hp : packedLines s.ofmt rows res with
    | ok l =>
      simp only [hp] at hw ⊢
      have hl := hw _ u hu
      rwa [Did.plus_plus] at hl
    | error need =>
      simp only [hp] at hw ⊢
      obtain ⟨v, hv, hraise⟩ := hu.addFlight (12 + m * s.rowLines n) (op := .raise (u.ev 8 0 need (64 * res) 0 0)) rfl
      obtain ⟨w, hw', hl⟩ := hw _ v hraise
      cases hw'
      rw [Did.plus_plus, Did.plus_plus, hu.ev] at hl
      exact ⟨_, hv, hl⟩

end

/-! ## The region of a drain -/

/-- Whether a packed drain overruns its reservation, so that it writes no line (R171). -/
def drainFails (ofmt : Nat) (rows : List DrainRow) (pk : Bool) (res : Nat) : Bool :=
  pk && (match packedLines ofmt rows res with | .error _ => true | .ok _ => false)

theorem Device.drainOutOf_isSome (d : Device) (s : DrainSpec) (n m : Nat) (rows : List DrainRow) (pk : Bool) (res : Nat) :
    (d.drainOutOf s n m rows pk res).lines.isSome =
      !drainFails s.ofmt rows pk res := by
  unfold Device.drainOutOf drainFails
  cases pk with
  | false => rfl
  | true => cases packedLines s.ofmt rows res <;> rfl

/-- The header of a drain's region written, with its bank-tick (R170, R198). -/
def sendHeader (h : Header) (n : Nat) (typ : Dbl) (s : Device) : Except Ev Device := do
  let s ← addFlight n (.header h.at_ typ) s
  .ok (useLine s.issue.core (h.at_ - spKey s.issue.core 0) n 2 s)

/-- What PDRN does with a region once its rows are converted. -/
def drainRegion (a : ANum) (d : DrainSpec) (n m total : Nat) (rows : List DrainRow) (pk : Bool) (res mm : Nat) (s : Device) :
    Except Ev Device := do
  let p ← drainHeader a (d.word n m (if pk then 3 else 0)) mm s
  p.2.typed mm (drainPitch p.1 (d.rowLines n) pk res)
  let s ← promise p.1 (12 + total) p.2
  let s ← drainOutput d n rows (m * d.rowLines n) pk res (.region (drainAddr p.1 pk (m * d.rowLines n) (d.rowLines n) m)) s
  if drainFails d.ofmt rows pk res = true then .ok s
  else sendHeader p.1 (12 + total) (dbl (d.word n m (if pk then 3 else 0))) s

/-- PDRN by its parts. -/
theorem slotPdrn_eq (c : AccNum) (dst : Bool) (cb : CbNum) (r : SReg) (x : DrainX) (s : Device) :
    slotPdrn c dst cb r x s = (do
      let off ← s.srcS r
      let s ← pressCommand 1 0 s
      let acc ← s.accSlot c.val
      let d := s.drainSpec x.ofmt.toNat x.rnd x.sat x.mx cb off.toNat
      let e ← s.typed (shapeOp 0x29 8) (drainRule s.regs.dv (s.accTyp acc) d.ofmt x.mx x.pk)
      let total := e.2 * d.rowLines e.1 + (if x.pk then x.res.toNat else d.scaleLines e.1 e.2)
      let s ← usePress 2 true 0 (total - 1) s
      let rows := (rangeFrom 0 e.2).map (s.drainRow d acc e.1)
      let u := { s with issue := { s.issue with lines := total } }
      if dst then drainRegion (Fin.ofNat 16 (x.dest.toNat / 2 ^ 8 % 16)) d e.1 e.2 total rows x.pk x.res.toNat (shapeOp 0x29 8) u
      else drainOutput d e.1 rows (e.2 * d.rowLines e.1) x.pk x.res.toNat (.felt x.dest.toNat) u) := by
  rfl

section
variable {x : Did} {d now t : Device} {i : Instr}

/-- The same bindings, said by name. -/
theorem Did.Trial.sameDims (h : x.Trial d i now t) {dv : Dims} (hd : x.dims.getD d.regs.dv = dv) :
    ({ x with dims := some dv } : Did).Trial d i now t := by
  obtain ⟨hleaves, hb, ht, hs, hm, hstays⟩ := h
  refine ⟨hleaves.alike (.refl t) hleaves.own ?_ hleaves.seq hleaves.rest, hb, ht, hs, hm, hstays⟩
  rw [hleaves.cur, hd]
  rfl

theorem Did.Trial.sendHeader (h : x.Trial d i now t) {hd : Header} (hk : hd.at_ = spKey d.issue.core (d.phys hd.prog)) (n : Nat)
    (typ : Dbl) : (x.plus [(n, .header hd.at_ typ)] [d.lineUse d.issue.core n 2 (d.phys hd.prog)]).Passes d i now
      (sendHeader hd n typ t) := by
  refine (h.addFlight n rfl).bind (fun u hu => ?_)
  have hprog : hd.at_ - spKey u.issue.core 0 = d.phys hd.prog := by
    rw [hk, hu.core]
    simp [spKey]
  have hline := hu.useLine (d.phys hd.prog) n 2
  rw [Did.plus_plus] at hline
  rw [hprog]
  exact hline.passes

/-- The header of a drain's region, read and unified with the output type where it has one (R170). -/
theorem Did.Trial.drainHeader (h : x.Trial d i now t) {a : ANum} {hd : Header} {out : Nat} {dv : Dims} (mm : Nat)
    (hh : d.headerAt d.regs.a[a].addr.toNat = some hd) (hdv : d.headerDims (d.opened i) hd out = some dv)
    (hdims : x.dims = none) (hflights : x.flights = [])
    (hfree : d.LandsFree (if hd.typ = 0 then [] else d.dimResults dv)) :
    ∃ u, drainHeader a out mm t = .ok (hd, u) ∧
      ({ x with flights := if hd.typ = 0 then [] else d.dimResults dv,
                uses := x.uses ++ [d.lineUse d.issue.core 0 2 (d.phys hd.prog)], dims := some dv } : Did).Trial d i now u := by
  obtain ⟨v, hv, hl⟩ := h.readHeader hh
  unfold Device.headerDims at hdv
  unfold Machine.drainHeader
  rw [h.srcA, hv]
  by_cases hempty : hd.typ = 0
  · rw [if_pos hempty] at hdv ⊢
    refine ⟨v, ?_, ?_⟩
    · simp [bind, Except.bind, hempty]
    · have hsame := hl.sameDims (dv := dv) (by rw [← Option.some.inj hdv, Did.plus, hdims]; rfl)
      rwa [Did.plus, hflights] at hsame
  · rw [if_neg hempty] at hdv hfree ⊢
    obtain ⟨_, hty, huni⟩ := Option.bind_eq_some_iff.mp hdv
    have hbase : (x.plus [] [d.lineUse d.issue.core 0 2 (d.phys hd.prog)]).dims.getD d.regs.dv = d.regs.dv := by
      rw [Did.plus, hdims]
      rfl
    have hflights' : (x.plus [] [d.lineUse d.issue.core 0 2 (d.phys hd.prog)]).flights = [] := by rw [Did.plus, hflights]; rfl
    have hwords := hl.typeWords (by simp [hflights'])
    have hregs : v.regs.dv = d.regs.dv := by rw [hl.regs, hbase]
    have hrule : v.typed mm (do headerType hd.typ; unifyTypes v.typeWords v.regs.dv hd.typ out 5) = .ok dv := by
      rw [hwords, hregs, passed_eq_some.mp hty]
      exact typed_of_passed huni v mm
    obtain ⟨u, hu, hlu⟩ := hl.bindDims hbase dv hfree (fun r _ => Did.leavesDim_of_flights_nil hflights' r)
    refine ⟨u, ?_, ?_⟩
    · simp only [bind, Except.bind, hempty, if_false] at hrule ⊢
      rw [hrule]
      simp only [hu]
    · rwa [Did.plus, hflights] at hlu

/-- A drain into the felt (R170). -/
theorem Did.Trial.drainsFelt (h : x.Trial d i now t) {s : DrainSpec} {n m res total line : Nat} {rows : List DrainRow} {pk : Bool}
    (hx : x = { press := [d.pressUse 2 true 0 (total - 1)], lines := total }) :
    (d.drainsFelt total line (d.drainOutOf s n m rows pk res)).Passes d i now
      (Machine.drainOutput s n rows (m * s.rowLines n) pk res (.felt line) t) := by
  subst hx
  exact h.drainOutput (fun y u hy => hy.writeFelt line _ 0 _)

/-- What a drain into a region does, in the order of its steps. -/
theorem Device.drainsRegion_eq (d : Device) (total : Nat) (h : Header) (typ : Nat) (dv : Dims) (l : List Promise)
    (at_ : Nat → Nat) (o : DrainOut) : d.drainsRegion total h typ dv l at_ o =
      (Did.plus { press := [d.pressUse 2 true 0 (total - 1)], lines := total, dims := some dv, promises := some l,
                  flights := if h.typ = 0 then [] else d.dimResults dv, uses := [d.lineUse d.issue.core 0 2 (d.phys h.prog)] }
        (o.pre ++ d.lineFlights at_ o.start (o.lines.getD [])) (d.lineTicks at_ o.start (o.lines.getD []).length)).plus
        (if o.lines.isSome then [(12 + total, .header h.at_ (dbl typ))] else [])
        (if o.lines.isSome then [d.lineUse d.issue.core (12 + total) 2 (d.phys h.prog)] else []) := by
  simp only [Device.drainsRegion, Did.plus, List.append_assoc, List.cons_append, List.nil_append]

/-- A drain into a region (R170, R171, R198). -/
theorem Did.Trial.drainsRegion (h : x.Trial d i now t) {a : ANum} {s : DrainSpec} {n m res total : Nat} {rows : List DrainRow}
    {pk : Bool} {y : Did} (mm : Nat) (hx : x = { press := [d.pressUse 2 true 0 (total - 1)], lines := total })
    (hrule : d.drainInto (d.opened i) a s n m total pk res (d.drainOutOf s n m rows pk res) = some y) (hclear : d.Clear y) :
    y.Passes d i now (drainRegion a s n m total rows pk res mm t) := by
  obtain ⟨hd, hh, hrule⟩ := Option.bind_eq_some_iff.mp hrule
  obtain ⟨dv, hdv, hrule⟩ := Option.bind_eq_some_iff.mp hrule
  obtain ⟨_, hpitch, hrule⟩ := Option.bind_eq_some_iff.mp hrule
  obtain ⟨l, hl, hrule⟩ := Option.bind_eq_some_iff.mp hrule
  dsimp only at hrule
  split at hrule
  case isFalse => cases hrule
  next hin =>
    obtain rfl := Option.some.inj hrule
    rw [Device.linesIn_iff] at hin
    have hdims : d.LandsFree (if hd.typ = 0 then [] else d.dimResults dv) := fun p hp =>
      hclear.lands p (List.mem_append_left _ (List.mem_append_left _ (List.mem_append_left _ hp)))
    obtain ⟨u, hu, htrial⟩ := h.drainHeader mm hh hdv (by rw [hx]) (by rw [hx]) hdims
    unfold drainRegion
    refine .read hu (.read (typed_of_passed hpitch u mm) ?_)
    refine (htrial.promise (by rw [hx]; rfl) hl).bind (fun v hv => ?_)
    refine (hv.drainOutput (fun y u hy => hy.writeRegion _ 0 (fun k => by rw [Nat.zero_add]) _ hin)).bind (fun w hw => ?_)
    subst hx
    have hsome := d.drainOutOf_isSome s n m rows pk res
    rw [Device.drainsRegion_eq]
    by_cases hfailed : drainFails s.ofmt rows pk res = true
    · rw [hfailed] at hsome
      rw [if_pos hfailed, hsome]
      change (Did.plus _ [] []).Passes d i now _
      rw [Did.plus_nil]
      exact hw.passes
    · rw [Bool.eq_false_iff.mpr hfailed] at hsome
      rw [if_neg hfailed, hsome]
      exact hw.sendHeader (d.headerAt_key hh) _ _

theorem Device.drainInto_press {o : Device} {a : ANum} {s : DrainSpec} {n m total res : Nat} {pk : Bool} {out : DrainOut} {y : Did}
    (h : d.drainInto o a s n m total pk res out = some y) : y.press = [d.pressUse 2 true 0 (total - 1)] := by
  simp only [Device.drainInto, Option.bind_eq_some_iff, Option.ite_none_right_eq_some] at h
  obtain ⟨hd, -, dv, -, _, -, l, -, -, h⟩ := h
  rw [← Option.some.inj h, Device.drainsRegion]

/-- PDRN (R170, R171). -/
theorem slotPdrn_passes {c : AccNum} {dst : Bool} {cb : CbNum} {r : SReg} {z : DrainX} {y : Did}
    (hready : d.Ready (.pdrn c dst cb r z)) (hrule : drainOnce d (d.opened (.pdrn c dst cb r z)) c dst cb r z = some (now, y))
    (hclear : d.Clear y) :
    y.Passes d (.pdrn c dst cb r z) now (slotPdrn c dst cb r z (d.opened (.pdrn c dst cb r z))) := by
  obtain ⟨now', hspend, hrule⟩ := Option.bind_eq_some_iff.mp hrule
  obtain ⟨acc, hacc, hrule⟩ := Option.bind_eq_some_iff.mp hrule
  obtain ⟨e, he, hrule⟩ := Option.bind_eq_some_iff.mp hrule
  obtain ⟨y', hy, hnow⟩ := Option.map_eq_some_iff.mp hrule
  obtain ⟨rfl, rfl⟩ := Prod.mk.inj hnow
  have hstart := Did.Trial.start d (.pdrn c dst cb r z) hready.present
  rw [slotPdrn_eq]
  refine .read (d.opened_srcS _ r hready.queues (List.mem_singleton_self r)) ?_
  refine (hstart.pressCommand hspend).bind (fun t ht => ?_)
  have hdv : t.regs.dv = d.regs.dv := by rw [ht.regs]; rfl
  refine .read (ht.accSlot hacc) ?_
  dsimp only
  rw [ht.drainSpec, hdv, ht.accTyp]
  refine .read (typed_of_passed he t _) ?_
  cases dst with
  | false =>
    obtain rfl := Option.some.inj hy
    refine (ht.usePress 2 true 0 _ hclear.press (by simp)).bind (fun u hu => ?_)
    rw [hu.drained]
    exact (hu.countLines _).drainsFelt rfl
  | true =>
    have hpress := hclear.press
    rw [d.drainInto_press hy] at hpress
    refine (ht.usePress 2 true 0 _ hpress (by simp)).bind (fun u hu => ?_)
    rw [hu.drained]
    exact (hu.countLines _).drainsRegion _ rfl hy hclear

end

end Sys2Proof.Machine
end

section
/-! PROOFS. LTDRN (R177): the run of slots, the drains that follow one another, and their timetable. -/

open Sys2Proof.Machine

namespace Sys2Proof.Machine

/-! ## The run of slots -/

/-- A run of slots is read from the partition's slots, their types and the dimension variables alone; the event of a run that
fails also names the instruction. -/
theorem drainRun_congr {s t : Device} (hslot : ∀ c, granted (s.accSlot c) = granted (t.accSlot c))
    (htyp : ∀ a, s.accTyp a = t.accTyp a) (hdv : s.regs.dv = t.regs.dv) (c : Nat) (n0 want : Option Nat) (row mm mm' fuel : Nat) :
    granted (drainRun s c n0 want row mm fuel) = granted (drainRun t c n0 want row mm' fuel) := by
  induction fuel generalizing c n0 row with
  | zero => rfl
  | succ fuel ih =>
    simp only [drainRun, granted_bind, granted_typed, hslot, htyp, hdv, apply_ite granted, ih]
    rfl

section
variable {x : Did} {d now t : Device} {i : Instr}

theorem Did.Trial.granted_accSlot (h : x.Trial d i now t) (c : Nat) : granted (t.accSlot c) = d.slotOf c := by
  rw [Device.accSlot, Device.slotOf, h.curLaunch, h.core]
  split <;> rfl

/-- The run that the slot of LTDRN finds. -/
theorem Did.Trial.drainRun (h : x.Trial d i now t) (hp : d.cur.present = true) (hdims : x.dims = none) {c : Nat}
    {want : Option Nat} {run : List DrainSlot × Nat} (hrun : granted (drainRun (d.opened i) c none want 0 0 128) = some run)
    (mm : Nat) : drainRun t c none want 0 mm 128 = .ok run := by
  have hstart := Did.Trial.start d i hp
  rw [← granted_eq_some, ← hrun]
  refine drainRun_congr (fun k => ?_) (fun a => ?_) ?_ ..
  · rw [h.granted_accSlot, hstart.granted_accSlot]
  · rw [h.accTyp, hstart.accTyp]
  · rw [h.regs, hdims, Device.opened_regs]
    rfl

/-! ## Ranges written -/

theorem Device.rangeUses_cons (d : Device) (n : Nat) (p : Nat × Nat) (l : List (Nat × Nat)) : d.rangeUses n (p :: l) =
    d.lineUses d.issue.core n 2 (spanLines (d.phys p.1) p.2) ++ d.rangeUses (n + 1) l := by
  simp only [Device.rangeUses, zip_range_cons, List.map_cons, List.map_map, Function.comp_def, List.flatten_cons, Nat.add_zero,
    Nat.add_assoc, Nat.add_comm 1]

theorem Device.rangeUses_append (d : Device) (n : Nat) (l m : List (Nat × Nat)) :
    d.rangeUses n (l ++ m) = d.rangeUses n l ++ d.rangeUses (n + l.length) m := by
  induction l generalizing n with
  | nil => rfl
  | cons p l ih =>
    rw [List.cons_append, d.rangeUses_cons, ih, d.rangeUses_cons, List.append_assoc, List.length_cons, Nat.add_assoc,
      Nat.add_comm 1]

/-- Ranges of the partition written one a tick (R170, R177). -/
theorem Did.Trial.writeRanges (h : x.Trial d i now t) (n align : Nat) (l : List (Nat × Nat))
    (hin : ∀ p ∈ l, d.inPart p.1 p.2 align) :
    ∃ u, writeRanges n l align t = .ok (l.map (fun p => d.phys p.1), u) ∧ (x.plus [] (d.rangeUses n l)).Trial d i now u := by
  induction l generalizing x t n with
  | nil => exact ⟨t, rfl, x.plus_nil.symm ▸ h⟩
  | cons p l ih =>
    obtain ⟨hp, hl⟩ := List.forall_mem_cons.mp hin
    obtain ⟨u, hu, hrec⟩ := ih (h.useLines n 2 (spanLines (d.phys p.1) p.2)) (n + 1) hl
    refine ⟨u, ?_, ?_⟩
    · rw [Machine.writeRanges, h.spAddr hp]
      simp only [bind, Except.bind, hu, List.map_cons]
    · rwa [Did.plus_plus, ← d.rangeUses_cons] at hrec

/-! ## The drains of a run -/

/-- A part of a run lies in the partition: its lines, and the runs of its scales. -/
theorem Device.partIn_iff (d : Device) (p : DrainPart) :
    d.partIn p = true ↔ (∀ a ∈ p.lines, d.inPart a 64 64) ∧ ∀ q ∈ p.scales, d.inPart q.1 q.2 1 := by
  have hlines : d.linesIn (fun j => p.lines.getD j 0) p.lines.length = true ↔ ∀ a ∈ p.lines, d.inPart a 64 64 := by
    rw [Device.linesIn_iff, List.forall_mem_iff_getElem]
    exact forall_congr' fun j => forall_congr' fun hj => by rw [List.getD_eq_getElem _ _ hj]
  simp only [Device.partIn, Bool.and_eq_true, hlines, List.all_eq_true, decide_eq_true_eq, Device.inPart, Nat.mod_one, true_and]

/-- The part of slot `y` of a run. -/
def drainPartOf (s : DrainSpec) (h : Header) (n m t : Nat) (y : DrainSlot) : DrainPart :=
  { t := t, slot := y,
    lines := (List.range (y.m * s.rowLines n)).map
      (fun j => h.data + 64 * h.pitch * (y.row + j / s.rowLines n) + 64 * (j % s.rowLines n)),
    scales := runsOf64 (h.data + 64 * h.pitch * m + n / 32 * y.row) (if s.mx then n / 32 * y.m else 0) }

theorem drainParts_cons (s : DrainSpec) (h : Header) (n m t : Nat) (y : DrainSlot) (rest : List DrainSlot) :
    drainParts s h n m t (y :: rest) =
      drainPartOf s h n m t y :: drainParts s h n m (t + y.m * s.rowLines n + s.scaleLines n y.m) rest := rfl

theorem drainPartOf_rows (s : DrainSpec) (h : Header) (n m t : Nat) (y : DrainSlot) :
    (rangeFrom 0 (y.m * s.rowLines n)).map
        (fun j => (h.data + 64 * h.pitch * (y.row + j / s.rowLines n) + 64 * (j % s.rowLines n), 64)) =
      (drainPartOf s h n m t y).lines.map (fun a => (a, 64)) := by
  simp only [drainPartOf, rangeFrom_zero, List.map_map, Function.comp_def]

theorem drainPartOf_uses (d : Device) (s : DrainSpec) (h : Header) (n m t : Nat) (y : DrainSlot) :
    d.partUses (drainPartOf s h n m t y) =
      d.rangeUses (12 + t) ((drainPartOf s h n m t y).lines.map (fun a => (a, 64))) ++
        d.rangeUses (12 + t + y.m * s.rowLines n) (drainPartOf s h n m t y).scales := by
  simp only [Device.partUses, d.rangeUses_append, List.length_map]
  simp only [drainPartOf, List.length_map, List.length_range]

/-- The drains of a run, one after another (R177). -/
theorem Did.Trial.ltDrains (h : x.Trial d i now t) (s : DrainSpec) (hd : Header) (n m k : Nat) (run : List DrainSlot)
    (hin : ∀ p ∈ drainParts s hd n m k run, d.partIn p = true) :
    (x.plus ((drainParts s hd n m k run).map (d.partFlight s n)) ((drainParts s hd n m k run).map d.partUses).flatten).Passes
      d i now (ltDrains s hd n m k run t) := by
  induction run generalizing x t k with
  | nil => exact (x.plus_nil.symm ▸ h).passes
  | cons y rest ih =>
    rw [drainParts_cons] at hin
    obtain ⟨hpart, hparts⟩ := List.forall_mem_cons.mp hin
    obtain ⟨hlines, hscales⟩ := (d.partIn_iff _).mp hpart
    have hrows : ∀ p ∈ (drainPartOf s hd n m k y).lines.map (fun a => (a, 64)), d.inPart p.1 p.2 64 :=
      List.forall_mem_map.mpr hlines
    obtain ⟨u, hu, htu⟩ := h.writeRanges (12 + k) 64 _ hrows
    obtain ⟨v, hv, htv⟩ := htu.writeRanges (12 + k + y.m * s.rowLines n) 1 _ hscales
    rw [Machine.ltDrains]
    dsimp only
    rw [drainPartOf_rows s hd n m k y]
    refine .read hu (.read hv ?_)
    refine (htv.addFlight k rfl).bind (fun w hw => ?_)
    have hrec := ih hw _ hparts
    convert hrec using 1
    rw [drainParts_cons, List.map_cons, List.map_cons, List.flatten_cons, drainPartOf_uses]
    simp only [Did.plus_plus, List.nil_append, List.append_nil, List.map_map, htv.core]
    rfl

/-! ## LTDRN -/

/-- What LTDRN does once its run and its bindings are known. -/
def drainBound (h : Header) (run : List DrainSlot) (n : Nat) (d : DrainSpec) (mm : Nat) (dv : Dims) (s : Device) :
    Except Ev Device := do
  let m := (run.map (fun y => y.m)).foldl (· + ·) 0
  let s ← s.bindDims dv
  s.typed mm (drainPitch h (d.rowLines n) false 0)
  let total := (run.map (fun y => y.m * d.rowLines n + d.scaleLines n y.m)).foldl (· + ·) 0
  let s ← usePresses true 0 (total - 1) allPaths s
  let s ← promise h (12 + total) s
  let s ← ltDrains d h n m 0 run s
  sendHeader h (12 + total) (dbl (d.word n m 0)) s

/-- What LTDRN does once its region's header is read and checked. -/
def drainTile (h : Header) (c : AccNum) (x : LDrainX) (off : Dbl) (mm : Nat) (s : Device) : Except Ev Device := do
  let want ← s.typed mm (wantedRows s.regs.dv h.typ)
  let p ← Machine.drainRun s c.val none want 0 mm 128
  let m := (p.1.map (fun y => y.m)).foldl (· + ·) 0
  let d := s.drainSpec x.ofmt.toNat x.rnd x.sat x.mx x.cbx off.toNat
  let _ ← s.typed mm (drainRule s.regs.dv (resultWord p.2 1) d.ofmt x.mx false)
  s.typed mm (logicalExtents 5 (p.2, m, 1))
  if h.typ = 0 then drainBound h p.1 p.2 d mm s.regs.dv s
  else do
    let dv ← s.typed mm (unifyTypes s.typeWords s.regs.dv h.typ (d.word p.2 m 0) 5)
    drainBound h p.1 p.2 d mm dv s

/-- LTDRN by its parts. -/
theorem slotLtdrn_eq (c : AccNum) (a : ANum) (r : SReg) (x : LDrainX) (s : Device) :
    slotLtdrn c a r x s = (do
      let off ← s.srcS r
      let s ← pressCommand 1 0 s
      let p ← readHeader (s.srcA a).addr.toNat 2 s
      if p.1.typ = 0 then drainTile p.1 c x off (shapeOp 0x29 0x0E) p.2
      else do
        let s ← checkTag p.1 p.2
        drainTile p.1 c x off (shapeOp 0x29 0x0E) s) := rfl

/-- What LTDRN does with a run, in the order of its steps. -/
theorem Device.drainsRun_eq_some {s : DrainSpec} {h : Header} {n : Nat} {run : List DrainSlot} {dv : Dims} {l : List Promise} {y : Did}
    (hy : d.drainsRun s h n run dv l = some y) :
    let m := (run.map (fun y => y.m)).sum
    let total := (run.map (fun y => y.m * s.rowLines n + s.scaleLines n y.m)).sum
    let parts := drainParts s h n m 0 run
    ∃ l', d.promised l h (12 + total) = some l' ∧ (∀ p ∈ parts, d.partIn p = true) ∧
      y = (Did.plus { press := d.pressUses true 0 (total - 1) allPaths, dims := some dv, promises := some l',
                      flights := d.dimResults dv, uses := [d.lineUse d.issue.core 0 2 (d.phys h.prog)] }
        (parts.map (d.partFlight s n)) (parts.map d.partUses).flatten).plus
        [(12 + total, .header h.at_ (dbl (s.word n m 0)))] [d.lineUse d.issue.core (12 + total) 2 (d.phys h.prog)] := by
  intro m total parts
  obtain ⟨l', hl, hy⟩ := Option.bind_eq_some_iff.mp hy
  split at hy
  next hin => exact ⟨l', hl, List.all_eq_true.mp hin, (Option.some.inj hy).symm⟩
  next => cases hy

/-- The drains of LTDRN where its run and bindings are known (R177). -/
theorem Did.Trial.drainBound (h : x.Trial d i now t) {hd : Header} {a : Nat} (hh : d.headerAt a = some hd) {s : DrainSpec}
    {n : Nat} {run : List DrainSlot} {dv : Dims} {l : List Promise} {y : Did} (mm : Nat)
    (hx : x = { uses := [d.lineUse d.issue.core 0 2 (d.phys hd.prog)], promises := some l })
    (hpitch : passed (drainPitch hd (s.rowLines n) false 0) = some ()) (hy : d.drainsRun s hd n run dv l = some y)
    (hclear : d.Clear y) : y.Passes d i now (drainBound hd run n s mm dv t) := by
  obtain ⟨l', hl, hin, rfl⟩ := d.drainsRun_eq_some hy
  subst hx
  have hdims : d.LandsFree (dimChanges d.regs.dv dv) := fun p hp =>
    hclear.lands p (List.mem_append_left _ (List.mem_append_left _ hp))
  unfold Machine.drainBound
  simp only [← List.sum_eq_foldl]
  refine (h.bindDims rfl dv hdims (fun r _ => Did.leavesDim_of_flights_nil rfl r)).bind (fun u hu => ?_)
  refine .read (typed_of_passed hpitch u mm) ?_
  refine (hu.usePresses true 0 _ allPaths (by decide) hclear.press rfl).bind (fun v hv => ?_)
  refine (hv.promise rfl hl).bind (fun w hw => ?_)
  refine (hw.ltDrains s hd n _ 0 run hin).bind (fun z hz => ?_)
  exact hz.sendHeader (d.headerAt_key hh) _ _

/-- What LTDRN does once its region's header is read and checked, by its rule (R177). -/
def Device.drainsTile (d o : Device) (h : Header) (c : AccNum) (s : DrainSpec) (l : List Promise) : Option Did :=
  (passed (wantedRows d.regs.dv h.typ)).bind fun want => (granted (Machine.drainRun o c.val none want 0 0 128)).bind fun p =>
  (passed (drainRule d.regs.dv (resultWord p.2 1) s.ofmt s.mx false)).bind fun _ =>
  (passed (logicalExtents 5 (p.2, (p.1.map (fun y => y.m)).sum, 1))).bind fun _ =>
  (d.headerDims o h (s.word p.2 (p.1.map (fun y => y.m)).sum 0)).bind fun dv =>
  (passed (drainPitch h (s.rowLines p.2) false 0)).bind fun _ => d.drainsRun s h p.2 p.1 dv l

/-- The rule of LTDRN by its parts. -/
theorem drainLogical_eq_some {o : Device} {c : AccNum} {a : ANum} {r : SReg} {z : LDrainX} {y : Did}
    (h : drainLogical d o c a r z = some (now, y)) :
    ∃ hd l, d.spends 1 0 = some now ∧ d.headerAt d.regs.a[a].addr.toNat = some hd ∧
      (if hd.typ = 0 then some d.cur.promises else d.tagKept d.cur.promises hd) = some l ∧
      d.drainsTile o hd c (d.drainOf z.ofmt.toNat z.rnd z.sat z.mx z.cbx (d.value r).toNat) l = some y := by
  simp only [drainLogical, Option.bind_eq_some_iff, Option.map_eq_some_iff, Prod.mk.injEq] at h
  simp only [Device.drainsTile, Option.bind_eq_some_iff]
  obtain ⟨now', hspend, hd, hh, l, hl, want, hwant, run, hrun, e, he, u, hext, dv, hdv, v, hpitch, y', hy, rfl, rfl⟩ := h
  exact ⟨hd, l, hspend, hh, hl, want, hwant, run, hrun, e, he, u, hext, dv, hdv, v, hpitch, hy⟩

theorem Did.Trial.drainTile (h : x.Trial d i now t) (hp : d.cur.present = true) {hd : Header} {a : Nat}
    (hh : d.headerAt a = some hd) {c : AccNum} {z : LDrainX} {off : Dbl} {l : List Promise} {y : Did} (mm : Nat)
    (hx : x = { uses := [d.lineUse d.issue.core 0 2 (d.phys hd.prog)], promises := some l })
    (hrule : d.drainsTile (d.opened i) hd c (d.drainOf z.ofmt.toNat z.rnd z.sat z.mx z.cbx off.toNat) l = some y)
    (hclear : d.Clear y) : y.Passes d i now (drainTile hd c z off mm t) := by
  obtain ⟨want, hwant, hrule⟩ := Option.bind_eq_some_iff.mp hrule
  obtain ⟨run, hrun, hrule⟩ := Option.bind_eq_some_iff.mp hrule
  obtain ⟨e, he, hrule⟩ := Option.bind_eq_some_iff.mp hrule
  obtain ⟨_, hext, hrule⟩ := Option.bind_eq_some_iff.mp hrule
  obtain ⟨dv, hdv, hrule⟩ := Option.bind_eq_some_iff.mp hrule
  obtain ⟨_, hpitch, hy⟩ := Option.bind_eq_some_iff.mp hrule
  have hbind := h.drainBound hh mm hx hpitch hy hclear
  subst hx
  have hregs : t.regs.dv = d.regs.dv := by rw [h.regs]; rfl
  unfold Machine.drainTile
  rw [hregs]
  refine .read (typed_of_passed hwant t mm) (.read (h.drainRun hp rfl hrun mm) ?_)
  simp only [← List.sum_eq_foldl, h.drainSpec]
  refine .read (typed_of_passed he t mm) (.read (typed_of_passed hext t mm) ?_)
  unfold Device.headerDims at hdv
  by_cases hempty : hd.typ = 0
  · rw [if_pos hempty] at hdv ⊢
    rwa [Option.some.inj hdv]
  · rw [if_neg hempty] at hdv ⊢
    obtain ⟨_, -, huni⟩ := Option.bind_eq_some_iff.mp hdv
    rw [h.typeWords (by simp)]
    exact .read (typed_of_passed huni t mm) hbind

/-- LTDRN (R177). -/
theorem slotLtdrn_passes {c : AccNum} {a : ANum} {r : SReg} {z : LDrainX} {y : Did} (hready : d.Ready (.ltdrn c a r z))
    (hrule : drainLogical d (d.opened (.ltdrn c a r z)) c a r z = some (now, y)) (hclear : d.Clear y) :
    y.Passes d (.ltdrn c a r z) now (slotLtdrn c a r z (d.opened (.ltdrn c a r z))) := by
  obtain ⟨hd, l, hspend, hh, hl, hrule⟩ := drainLogical_eq_some hrule
  have hstart := Did.Trial.start d (.ltdrn c a r z) hready.present
  rw [slotLtdrn_eq]
  refine .read (d.opened_srcS _ r hready.queues (List.mem_singleton_self r)) ?_
  refine (hstart.pressCommand hspend).bind (fun t ht => ?_)
  rw [ht.srcA]
  obtain ⟨u, hu, htu⟩ := ht.readHeader hh
  refine .read hu ?_
  by_cases hempty : hd.typ = 0
  · rw [if_pos hempty] at hl ⊢
    exact (htu.samePromises (l := l) (Option.some.inj hl)).drainTile hready.present hh _ rfl hrule hclear
  · rw [if_neg hempty] at hl ⊢
    refine (htu.checkTag rfl hl).bind (fun v hv => ?_)
    exact hv.drainTile hready.present hh _ rfl hrule hclear

end

end Sys2Proof.Machine
end

section
/-! PROOFS. LTMMA (R176): its operands, the loads and streams of its steps, and the slots that it leaves typed. -/

open Sys2Proof.Machine

namespace Sys2Proof.Machine

/-! ## Operands in regions -/

theorem spRanges_congr {s t : Device} (h : ∀ a n al, granted (s.spAddr a n al) = granted (t.spAddr a n al)) (n al : Nat)
    (l : List Nat) : granted (spRanges s n al l) = granted (spRanges t n al l) := by
  induction l with
  | nil => rfl
  | cons a l ih =>
    simp only [spRanges, granted_bind, h, ih]

/-- An operand in a region is read from its header, the dimension variables and the partition alone. -/
theorem regionOperand_congr {s t : Device} (hdv : s.regs.dv = t.regs.dv)
    (haddr : ∀ a n al, granted (s.spAddr a n al) = granted (t.spAddr a n al)) (h : Header) (k mm mm' : Nat) :
    granted (regionOperand h k mm s) = granted (regionOperand h k mm' t) := by
  simp only [regionOperand, granted_bind, granted_typed, hdv, spRanges_congr haddr, apply_ite granted]

/-- A region that serves as a press operand has a resolved K. -/
theorem regionOperand_resolved {h : Header} {k mm : Nat} {s : Device} {r : RegionOperand} (hr : granted (regionOperand h k mm s) = some r) :
    ∃ v, term s.regs.dv (tExt h.typ 0) = .value v := by
  simp only [regionOperand, granted_bind, granted_typed, Option.bind_eq_some_iff, passed_eq_some] at hr
  obtain ⟨st, hst, -⟩ := hr
  obtain ⟨_, -, hst⟩ := bind_eq_ok.mp hst
  obtain ⟨_, -, hst⟩ := bind_eq_ok.mp hst
  obtain ⟨st', hst', -⟩ := bind_eq_ok.mp hst
  exact regionStorage_value hst'

section
variable {x : Did} {d now t : Device} {i : Instr}

theorem Did.Trial.granted_spAddr (h : x.Trial d i now t) (a n al : Nat) :
    granted (t.spAddr a n al) = if a % al = 0 ∧ a + n ≤ d.curLaunch.spSize then some (d.phys a) else none := by
  unfold Device.spAddr
  rw [h.curLaunch, h.core]
  by_cases halign : a % al = 0
  · by_cases hbound : d.curLaunch.spSize < a + n
    · simp [granted, halign, hbound]
    · simp [granted, halign, hbound, Nat.not_lt.mp hbound, Device.phys]
  · simp [granted, halign]

/-- The device as the slot sees it, under other bindings. -/
def Device.openedWith (d : Device) (i : Instr) (dv : Dims) : Device :=
  (d.opened i).setRegs { (d.opened i).regs with dv := dv }

theorem Did.Trial.openedWith (d : Device) (i : Instr) (dv : Dims) (hp : d.cur.present = true) :
    Did.Trial { dims := some dv } d i d (d.openedWith i dv) := by
  obtain ⟨hl, hb, ht, hs, hm, hstays⟩ := Did.Trial.start d i hp
  refine ⟨hl.alike (.ofIssue rfl) (hl.own.setCur hl.own.present) ?_ hl.seq rfl, hb, ht, hs, hm, hstays⟩
  unfold Device.openedWith
  rw [Device.setRegs_cur]
  simp [Device.live, Device.regs, Device.numbered]

/-- The operand that the slot of LTMMA finds. -/
theorem Did.Trial.regionOperand (h : x.Trial d i now t) (hp : d.cur.present = true) {dv : Dims} (hdv : x.dims.getD d.regs.dv = dv)
    {hd : Header} {k : Nat} {r : RegionOperand} (hr : granted (regionOperand hd k 0 (d.openedWith i dv)) = some r) (mm : Nat) :
    Machine.regionOperand hd k mm t = .ok r := by
  have ho := Did.Trial.openedWith d i dv hp
  rw [← granted_eq_some, ← hr]
  refine regionOperand_congr ?_ (fun a n al => ?_) ..
  · rw [h.regs, ho.regs, hdv]
    rfl
  · rw [h.granted_spAddr, ho.granted_spAddr]

/-! ## Slots -/

theorem Did.Trial.accSlots (h : x.Trial d i now t) (n : Nat) {c : Nat} {l : List Nat} (hl : d.slotsFrom c n = some l) :
    accSlots t c n = .ok l := by
  induction n generalizing c l with
  | zero => exact congrArg Except.ok (Option.some.inj hl)
  | succ n ih =>
    obtain ⟨a, ha, hl⟩ := Option.bind_eq_some_iff.mp hl
    obtain ⟨r, hr, rfl⟩ := Option.map_eq_some_iff.mp hl
    rw [Machine.accSlots, h.accSlot ha, ih hr]
    rfl

/-- The rules on the slots read their types and the K-open bits alone. -/
theorem ltAccRules_congr {s t : Device} (htyp : ∀ a, s.accTyp a = t.accTyp a) (hopen : s.accOpen = t.accOpen)
    (types : List Nat) (n m k : Nat) (dv : Dims) (slots : List Nat) :
    ltAccRules s types n m k dv slots = ltAccRules t types n m k dv slots := by
  induction slots generalizing k dv with
  | nil => rfl
  | cons a rest ih => simp only [ltAccRules, htyp, hopen, ih]

/-- The types and K-open bits that LTMMA leaves its slots (R176). -/
theorem Did.Trial.ltMarks (h : x.Trial d i now t) (z : Bool) (n m k j : Nat) (slots : List Nat) :
    (x.plus ((slots.zip (rangeFrom j slots.length)).map (fun p =>
      (1, .accMark p.1 (if z then some (dbl (resultWord n (min 32 (m - 32 * p.2)))) else none) (k % 32 != 0)))) []).Passes d i now
      (ltMarks z n m k j slots t) := by
  induction slots generalizing x t j with
  | nil => exact (x.plus_nil.symm ▸ h).passes
  | cons a rest ih =>
    refine (h.addFlight 1 rfl).bind (fun u hu => ?_)
    have hrec := ih hu (j + 1)
    rwa [Did.plus_plus] at hrec

/-! ## The codebooks of the streams -/

/-- The codebooks that a stream reads, and the product table where it needs it (R163). -/
theorem Did.Trial.streamBooks (h : x.Trial d i now t) {wa wb m : Nat} {bk : BitVec 256 × BitVec 256 × Bool}
    (hbk : d.books wa wb = some bk)
    (hfree : d.PressFree (if bk.2.2 then [d.pressUse 7 false 0 (m - 1)] else []))
    (hx : ∀ p ∈ x.press, pressMeets (d.pressUse 7 false 0 (m - 1)) p = false) :
    ∃ u, streamBooks wa wb m t = .ok (bk.1, bk.2.1, u) ∧
      ({ x with press := x.press ++ (if bk.2.2 then [d.pressUse 7 false 0 (m - 1)] else []) } : Did).Trial d i now u := by
  unfold Device.books at hbk
  unfold Machine.streamBooks
  by_cases hneeds : needsTable (tFmt wa) (tFmt wb) = true
  · rw [if_pos hneeds] at hbk ⊢
    obtain ⟨tb, htb, hbk⟩ := Option.bind_eq_some_iff.mp hbk
    split at hbk
    next hsame =>
      obtain rfl := Option.some.inj hbk
      obtain ⟨u, hu, hl⟩ := h.usePress 7 false 0 (m - 1) hfree hx
      refine ⟨u, ?_, hl⟩
      rw [h.table, htb]
      dsimp only
      rw [h.core, if_pos hsame, hu]
      rfl
    next => cases hbk
  · rw [if_neg hneeds] at hbk ⊢
    obtain rfl := Option.some.inj hbk
    refine ⟨t, ?_, ?_⟩
    · rw [h.regs]
    · simpa using h

/-! ## Loads and streams -/

/-- The reads of a load, four columns a tick, from tick `k` of the load on (R164, R176). -/
theorem Did.Trial.captureLoad (h : x.Trial d i now t) (start target : Nat) (ranges : Nat → List (Nat × Nat)) (k n : Nat) :
    (x.plus ((rangeFrom k n).map (fun j => (start + j, .capture target (d.ranges (ranges j)))))
      ((rangeFrom k n).map (fun j => d.lineUses d.issue.core (start + j) 2 (rangesLines (ranges j)))).flatten).Passes d i now
      (captureLoad start target ranges k n t) := by
  induction n generalizing x t k with
  | zero => exact (x.plus_nil.symm ▸ h).passes
  | succ n ih =>
    refine (h.captureRanges (start + k) target (ranges k)).bind (fun u hu => ?_)
    have hrec := ih (hu.useLines (start + k) 2 (rangesLines (ranges k))) (k + 1)
    rwa [Did.plus_plus, Did.plus_plus] at hrec

/-- A load of a buffer from rows in scratchpad (R164, R176). -/
theorem Did.Trial.loadRegion (h : x.Trial d i now t) (start : Nat) (b : Bool) (w k n : Nat) (tag : Byte) (rows : List Nat)
    (len : Nat) (scales : List Nat) (slen : Nat) :
    let key := spKey d.issue.core
    let f : Finish := .bufRegion b (dbl w) k n tag (rows.map key) len (scales.map key) slen
    (x.plus (d.loadFlights (d.seq + x.flights.length) start f (loadTicks n) (loadRanges rows len scales slen))
      (d.loadUses start (loadTicks n) (loadRanges rows len scales slen))).Passes d i now
      (loadRegion start b w k n tag rows len scales slen t) := by
  intro key f
  unfold Machine.loadRegion
  rw [h.core, h.seq]
  refine (h.addFlight _ rfl).bind (fun u hu => ?_)
  have hrec := hu.captureLoad start (d.seq + x.flights.length) (loadRanges rows len scales slen) 0 (loadTicks n)
  rwa [Did.plus_plus, rangeFrom_zero] at hrec

/-- Row `r` of the streams of a step: the row meets the buffer, and its bytes are read then (R176). -/
def Device.ltRow (d : Device) (id start : Nat) (b : Bool) (x : LtOperands) (p : KPart) (z : Bool) (r : Nat) : List (Nat × FlyOp) :=
  let key := spKey d.issue.core
  let row : ARow := { typ := dbl x.wa, k := p.k, scale0 := 0, sw := fmtWidth (tFmt x.wa), data := 0, scales := [] }
  [(start + r, .streamRow b (nth x.slots (r / 32)) (r % 32) z none row (key (nth x.a.rows r + p.off)) p.len
      (key (nth x.a.scales r + p.soff)) p.slen x.cbA x.cbB),
   (start + r, .capture (id + 2 * r) (d.ranges (Device.ltRows.ltRange x p r)))]

/-- The streams of a step from row `r` on (R176). -/
theorem Did.Trial.ltStreamRows (h : x.Trial d i now t) (y : LtOperands) (p : KPart) (b z : Bool) (start id r n : Nat)
    (hid : t.seq = id + 2 * r) :
    (x.plus ((rangeFrom r n).map (d.ltRow id start b y p z)).flatten
      ((rangeFrom r n).map (fun q =>
        d.lineUses d.issue.core (start + q) 2 (rangesLines (Device.ltRows.ltRange y p q)))).flatten).Passes d i now
      (ltStreamRows b y.slots z y.wa y.a p y.cbA y.cbB start r n t) := by
  induction n generalizing x t r with
  | zero => exact (x.plus_nil.symm ▸ h).passes
  | succ n ih =>
    unfold Machine.ltStreamRows
    dsimp only
    rw [h.core, hid]
    refine (h.addFlight (start + r) rfl).bind (fun u hu => ?_)
    refine (hu.captureRanges (start + r) _ _).bind (fun v hv => ?_)
    have hnext := hv.useLines (start + r) 2 (rangesLines (Device.ltRows.ltRange y p r))
    have hseq : (Machine.useLines v.issue.core (start + r) 2 (rangesLines (Device.ltRows.ltRange y p r)) v).seq = id + 2 * (r + 1) := by
      rw [hnext.seq]
      rw [h.seq] at hid
      simp only [Did.plus, List.length_append, List.length_singleton, List.append_nil]
      omega
    have hrec := ih hnext (r + 1) hseq
    rwa [Did.plus_plus, Did.plus_plus, Did.plus_plus] at hrec

theorem Device.loadFlights_length (d : Device) (id start : Nat) (f : Finish) (ticks : Nat) (ranges : Nat → List (Nat × Nat)) :
    (d.loadFlights id start f ticks ranges).length = 1 + ticks := by
  simp [Device.loadFlights, Nat.add_comm]

/-- The steps of LTMMA in ascending K: a load of part of B, and the rows of A that meet it (R176). -/
theorem Did.Trial.ltSteps (h : x.Trial d i now t) (y : LtOperands) (g : Nat) (times : List (Nat × Nat)) :
    (x.plus (d.ltAll y (d.seq + x.flights.length) g times).1 (d.ltAll y (d.seq + x.flights.length) g times).2).Passes d i now
      (ltSteps y g times t) := by
  induction times generalizing x t g with
  | nil => exact (x.plus_nil.symm ▸ h).passes
  | cons p rest ih =>
    refine (h.loadRegion ..).bind (fun u hu => ?_)
    have hseq : u.seq = d.seq + x.flights.length + 1 + loadTicks y.b.st.e1 + 2 * 0 := by
      rw [hu.seq]
      simp only [Did.plus, List.length_append, Device.loadFlights_length]
      omega
    refine (hu.ltStreamRows y _ _ _ p.2 _ 0 y.a.st.e1 hseq).bind (fun v hv => ?_)
    rw [Did.plus_plus, rangeFrom_zero] at hv
    have hstep : (x.plus (d.ltStep y (d.seq + x.flights.length) g p).1
      (d.ltStep y (d.seq + x.flights.length) g p).2).Trial d i now v := hv
    have hrec := ih hstep (g + 1)
    rw [Did.plus_plus] at hrec
    rw [show (x.plus (d.ltStep y (d.seq + x.flights.length) g p).1 (d.ltStep y (d.seq + x.flights.length) g p).2).flights.length =
      x.flights.length + (d.ltStep y (d.seq + x.flights.length) g p).1.length from List.length_append, ← Nat.add_assoc] at hrec
    exact hrec

/-! ## LTMMA -/

/-- When LTMMA's last stream begins, after issue (R176). -/
def lastStream (times : List (Nat × Nat)) : Nat :=
  match times.getLast? with
  | some p => p.2
  | none => 0

theorem lastStream_eq (times : List (Nat × Nat)) : lastStream times = times.getLast?.elim 0 (fun p => p.2) := by
  unfold lastStream
  cases times.getLast? <;> rfl

/-- What LTMMA does once its operands, slots and second bindings are known. -/
def multiplyRun (ha hb : Header) (ra rb : RegionOperand) (kn : Nat) (times : List (Nat × Nat)) (z : Bool) (slots : List Nat)
    (dw : Dims) (s : Device) : Except Ev Device := do
  let s ← s.bindDims dw
  let s ← usePresses true 0 (lastStream times + ra.st.e1 - 1) allPaths s
  let p ← streamBooks ha.typ hb.typ (lastStream times + ra.st.e1) s
  let s ← ltSteps (ltPair ha hb ra rb kn slots z (p.1, p.2.1, false)) 0 times p.2.2
  ltMarks z rb.st.e1 ra.st.e1 ra.st.e0 0 slots s

/-- The K of a step of LTMMA (R176). -/
def stepK (ha hb : Header) : Nat := min (rowK (tFmt ha.typ)) (rowK (tFmt hb.typ))

/-- The times of the steps of LTMMA (R176). -/
def stepTimes (ha hb : Header) (ra rb : RegionOperand) : List (Nat × Nat) :=
  ltTimes (loadTicks rb.st.e1) ra.st.e1 (ceilDiv ra.st.e0 (stepK ha hb)) 0 0 0

/-- What LTMMA does once its operands are known. -/
def multiplyOperands (ha hb : Header) (ra rb : RegionOperand) (c : AccNum) (z : Bool) (mm : Nat) (s : Device) : Except Ev Device := do
  let steps := ceilDiv ra.st.e0 (stepK ha hb)
  let times := stepTimes ha hb ra rb
  let mb := ceilDiv ra.st.e1 32
  let s ← pressCommand (steps + steps * mb) (lastStream times + 32 * (mb - 1)) s
  let slots ← accSlots s c.val mb
  if z then multiplyRun ha hb ra rb (stepK ha hb) times z slots s.regs.dv s
  else do
    let dw ← s.typed mm (ltAccRules s s.typeWords rb.st.e1 ra.st.e1 0 s.regs.dv slots)
    multiplyRun ha hb ra rb (stepK ha hb) times z slots dw s

/-- LTMMA by its parts. -/
theorem slotLtmma_eq (c : AccNum) (a b : ANum) (z : Bool) (s : Device) : slotLtmma c a b z s = (do
    let p ← readHeader (s.srcA a).addr.toNat 2 s
    let q ← readHeader (p.2.srcA b).addr.toNat 2 p.2
    let s ← checkTag p.1 q.2
    let s ← checkTag q.1 s
    let dv ← s.typed (shapeOp 0x29 0x0D) (ltUnify s p.1 q.1)
    let s ← s.bindDims dv
    let ra ← Machine.regionOperand p.1 (64 * p.1.pitch) (shapeOp 0x29 0x0D) s
    let rb ← Machine.regionOperand q.1 (64 * q.1.pitch) (shapeOp 0x29 0x0D) s
    multiplyOperands p.1 q.1 ra rb c z (shapeOp 0x29 0x0D) s) := rfl

/-- What LTMMA does once its operands are known, by its rule (R176); `o` is the device as its slot sees it under the first
bindings, `dv`. -/
def Device.multiplies (d o : Device) (ha hb : Header) (ra rb : RegionOperand) (c : AccNum) (z : Bool) (dv : Dims)
    (l : List Promise) : Option (Device × Did) :=
  let steps := ceilDiv ra.st.e0 (stepK ha hb)
  let times := stepTimes ha hb ra rb
  let mb := ceilDiv ra.st.e1 32
  (d.spends (steps + steps * mb) (lastStream times + 32 * (mb - 1))).bind fun now => (d.slotsFrom c.val mb).bind fun slots =>
  (if z then some dv else passed (ltAccRules o o.typeWords rb.st.e1 ra.st.e1 0 dv slots)).bind fun dw =>
  (d.books ha.typ hb.typ).map fun bk =>
  (now, d.ltRuns ha hb (ltPair ha hb ra rb (stepK ha hb) slots z bk) times (lastStream times) dv dw l bk.2.2)

/-- The rule of LTMMA by its parts. -/
theorem multiplyLogical_eq (c : AccNum) (a b : ANum) (z : Bool) : multiplyLogical d (d.opened i) c a b z =
    (d.headerAt d.regs.a[a].addr.toNat).bind fun ha => (d.headerAt d.regs.a[b].addr.toNat).bind fun hb =>
    (d.tagKept d.cur.promises ha).bind fun l => (d.tagKept l hb).bind fun l =>
    (passed (ltUnify (d.opened i) ha hb)).bind fun dv =>
    (granted (Machine.regionOperand ha (64 * ha.pitch) 0 (d.openedWith i dv))).bind fun ra =>
    (granted (Machine.regionOperand hb (64 * hb.pitch) 0 (d.openedWith i dv))).bind fun rb =>
    d.multiplies (d.openedWith i dv) ha hb ra rb c z dv l := by
  unfold Device.multiplies
  simp only [lastStream_eq]
  rfl

/-- What LTMMA puts in flight binds the dimension variables first. -/
theorem Device.multiplies_dimResults {d o now : Device} {ha hb : Header} {ra rb : RegionOperand} {c : AccNum} {z : Bool} {dv : Dims}
    {l : List Promise} {y : Did} (hrule : d.multiplies o ha hb ra rb c z dv l = some (now, y)) : d.dimResults dv ⊆ y.flights := by
  obtain ⟨_, -, hrule⟩ := Option.bind_eq_some_iff.mp hrule
  obtain ⟨_, -, hrule⟩ := Option.bind_eq_some_iff.mp hrule
  obtain ⟨_, -, hrule⟩ := Option.bind_eq_some_iff.mp hrule
  obtain ⟨_, -, hnow⟩ := Option.map_eq_some_iff.mp hrule
  obtain ⟨-, rfl⟩ := Prod.mk.inj hnow
  exact fun p hp => List.mem_append_left _ (List.mem_append_left _ (List.mem_append_left _ hp))

theorem Did.Trial.ltUnify (h : x.Trial d i now t) (hdims : x.dims = none) (hflights : x.flights = []) (ha hb : Header) :
    ltUnify t ha hb = Machine.ltUnify (d.opened i) ha hb := by
  have hdv : t.regs.dv = (d.opened i).regs.dv := by rw [h.regs, hdims]; rfl
  unfold Machine.ltUnify
  rw [h.typeWords (by simp [hflights]), hdv]

/-- No variable is changed both by LTMMA's first rule and by its rules on the slots: the first binds to values, which stay
(R145, R176). -/
theorem ltDims_disjoint {u o : Device} {types : List Nat} {ha hb : Header} {ra rb : RegionOperand} {dv dw : Dims} {ka kb : Nat} {z : Bool}
    {n m : Nat} {slots : List Nat} (hdv : passed (Machine.ltUnify u ha hb) = some dv) (hodv : o.regs.dv = dv)
    (hra : granted (Machine.regionOperand ha ka 0 o) = some ra) (hrb : granted (Machine.regionOperand hb kb 0 o) = some rb)
    (hdw : (if z then some dv else passed (ltAccRules o types n m 0 dv slots)) = some dw) (r : DNum) (hr : dv[r] ≠ dw[r]) :
    u.regs.dv[r] = dv[r] := by
  by_contra hne
  have huni := ltUnify_eq_ok (passed_eq_some.mp hdv)
  obtain ⟨va, hva⟩ := regionOperand_resolved hra
  obtain ⟨vb, hvb⟩ := regionOperand_resolved hrb
  rw [hodv] at hva hvb
  have hbound := unify_resolved huni hva hvb r hne
  cases z with
  | true => exact hr (congrArg (fun e : Dims => e[r]) (Option.some.inj hdw))
  | false => exact hr (ltAccRules_keepsValues (passed_eq_some.mp hdw) r hbound).symm

/-- What LTMMA has done before its press resources, headers and bindings aside. -/
def Device.ltBegun (d : Device) (ha hb : Header) (dv : Dims) (l : List Promise) : Did :=
  { flights := d.dimResults dv, dims := some dv, promises := some l,
    uses := [d.lineUse d.issue.core 0 2 (d.phys ha.prog), d.lineUse d.issue.core 0 2 (d.phys hb.prog)] }

/-- What LTMMA does, in the order of its steps. -/
theorem Device.ltRuns_eq (d : Device) (ha hb : Header) (y : LtOperands) (times : List (Nat × Nat)) (last : Nat) (dv dw : Dims)
    (l : List Promise) (table : Bool) : d.ltRuns ha hb y times last dv dw l table =
      (Did.plus { d.ltBegun ha hb dv l with
          flights := d.dimResults dv ++ dimChanges dv dw, dims := some dw,
          press := d.pressUses true 0 (last + y.a.st.e1 - 1) allPaths ++
            (if table then [d.pressUse 7 false 0 (last + y.a.st.e1 - 1)] else []) }
        (d.ltAll y (d.seq + (d.dimResults dv ++ dimChanges dv dw).length) 0 times).1
        (d.ltAll y (d.seq + (d.dimResults dv ++ dimChanges dv dw).length) 0 times).2).plus
        (ltSlotMarks y.z y.b.st.e1 y.a.st.e1 y.a.st.e0 y.slots) [] := by
  simp only [Device.ltRuns, Device.ltBegun, Did.plus, Device.dimResults_eq, List.append_nil]
  rfl

/-- The run of LTMMA once its operands, slots and second bindings are known (R176). -/
theorem Did.Trial.multiplyRun {ha hb : Header} {dv : Dims} {l : List Promise} (h : (d.ltBegun ha hb dv l).Trial d i now t)
    {ra rb : RegionOperand} {kn : Nat} {times : List (Nat × Nat)} {z : Bool} {slots : List Nat} {dw : Dims}
    {bk : BitVec 256 × BitVec 256 × Bool} (hbk : d.books ha.typ hb.typ = some bk)
    (hdisjoint : ∀ r : DNum, dv[r] ≠ dw[r] → d.regs.dv[r] = dv[r])
    (hclear : d.Clear (d.ltRuns ha hb (ltPair ha hb ra rb kn slots z bk) times (lastStream times) dv dw l bk.2.2)) :
    (d.ltRuns ha hb (ltPair ha hb ra rb kn slots z bk) times (lastStream times) dv dw l bk.2.2).Passes d i now
      (multiplyRun ha hb ra rb kn times z slots dw t) := by
  have hdims : d.LandsFree (dimChanges dv dw) := fun p hp => hclear.lands p
    (List.mem_append_left _ (List.mem_append_left _ (List.mem_append_right _ hp)))
  have hpress : d.PressFree (d.pressUses true 0 (lastStream times + ra.st.e1 - 1) allPaths) := fun p hp =>
    hclear.press p (List.mem_append_left _ hp)
  have htable : d.PressFree (if bk.2.2 then [d.pressUse 7 false 0 (lastStream times + ra.st.e1 - 1)] else []) := fun p hp =>
    hclear.press p (List.mem_append_right _ hp)
  rw [Device.ltRuns_eq]
  unfold Machine.multiplyRun
  refine (h.bindDims rfl dw hdims (fun r hr => changesOf_leavesDim (fun _ => hdisjoint r hr) rfl)).bind (fun u hu => ?_)
  refine (hu.usePresses true 0 _ allPaths (by decide) hpress rfl).bind (fun v hv => ?_)
  obtain ⟨w, hw, htw⟩ := hv.streamBooks hbk htable (by simp [Device.pressUses, allPaths, pressMeets, Device.pressUse])
  refine .read hw ?_
  refine (htw.ltSteps (ltPair ha hb ra rb kn slots z bk) 0 times).bind (fun p hp => ?_)
  have hmarks := hp.ltMarks z rb.st.e1 ra.st.e1 ra.st.e0 0 slots
  rw [rangeFrom_zero] at hmarks
  exact hmarks

/-- LTMMA once its operands are known (R176). -/
theorem Did.Trial.multiplyOperands {ha hb : Header} {dv : Dims} {l : List Promise} (h : (d.ltBegun ha hb dv l).Trial d i d t)
    (hp : d.cur.present = true) {ra rb : RegionOperand} {c : AccNum} {z : Bool} {y : Did} (mm : Nat)
    (hrule : d.multiplies (d.openedWith i dv) ha hb ra rb c z dv l = some (now, y))
    (hunify : passed (Machine.ltUnify (d.opened i) ha hb) = some dv)
    (hra : granted (Machine.regionOperand ha (64 * ha.pitch) 0 (d.openedWith i dv)) = some ra)
    (hrb : granted (Machine.regionOperand hb (64 * hb.pitch) 0 (d.openedWith i dv)) = some rb)
    (hclear : d.Clear y) : y.Passes d i now (multiplyOperands ha hb ra rb c z mm t) := by
  obtain ⟨now', hspend, hrule⟩ := Option.bind_eq_some_iff.mp hrule
  obtain ⟨slots, hslots, hrule⟩ := Option.bind_eq_some_iff.mp hrule
  obtain ⟨dw, hdw, hrule⟩ := Option.bind_eq_some_iff.mp hrule
  obtain ⟨bk, hbk, hnow⟩ := Option.map_eq_some_iff.mp hrule
  obtain ⟨rfl, rfl⟩ := Prod.mk.inj hnow
  have ho := Did.Trial.openedWith d i dv hp
  have hodv : (d.openedWith i dv).regs.dv = dv := by rw [ho.regs]; rfl
  unfold Machine.multiplyOperands
  refine (h.pressCommand hspend).bind (fun u hu => ?_)
  have hdv : u.regs.dv = dv := by rw [hu.regs]; rfl
  refine .read (hu.accSlots _ hslots) ?_
  rw [hdv]
  have hrun := hu.multiplyRun hbk (fun r hr => ltDims_disjoint (u := d.opened i) hunify hodv hra hrb hdw r hr) hclear
  cases z with
  | true =>
    rw [if_pos rfl] at hdw
    obtain rfl := Option.some.inj hdw
    exact hrun
  | false =>
    refine .read (typed_of_passed ?_ u mm) hrun
    rw [hu.typeWords dimChanges_typeWords, ← ho.typeWords (by simp),
      ltAccRules_congr (fun a => (hu.accTyp a).trans (ho.accTyp a).symm) (hu.accOpen.trans ho.accOpen.symm)]
    exact hdw

/-- LTMMA (R176). -/
theorem slotLtmma_passes {c : AccNum} {a b : ANum} {z : Bool} {y : Did} (hready : d.Ready (.ltmma c a b z))
    (hrule : multiplyLogical d (d.opened (.ltmma c a b z)) c a b z = some (now, y)) (hclear : d.Clear y) :
    y.Passes d (.ltmma c a b z) now (slotLtmma c a b z (d.opened (.ltmma c a b z))) := by
  rw [multiplyLogical_eq] at hrule
  obtain ⟨ha, hha, hrule⟩ := Option.bind_eq_some_iff.mp hrule
  obtain ⟨hb, hhb, hrule⟩ := Option.bind_eq_some_iff.mp hrule
  obtain ⟨l₁, hl₁, hrule⟩ := Option.bind_eq_some_iff.mp hrule
  obtain ⟨l₂, hl₂, hrule⟩ := Option.bind_eq_some_iff.mp hrule
  obtain ⟨dv, hunify, hrule⟩ := Option.bind_eq_some_iff.mp hrule
  obtain ⟨ra, hra, hrule⟩ := Option.bind_eq_some_iff.mp hrule
  obtain ⟨rb, hrb, hrule⟩ := Option.bind_eq_some_iff.mp hrule
  have hstart := Did.Trial.start d (.ltmma c a b z) hready.present
  rw [slotLtmma_eq, hstart.srcA]
  obtain ⟨t₁, ht₁, hlineA⟩ := hstart.readHeader hha
  refine .read ht₁ ?_
  rw [hlineA.srcA]
  obtain ⟨t₂, ht₂, hlineB⟩ := hlineA.readHeader hhb
  refine .read ht₂ ?_
  refine (hlineB.checkTag rfl hl₁).bind (fun t₃ h₃ => ?_)
  refine (h₃.checkTag rfl hl₂).bind (fun t₄ h₄ => ?_)
  rw [h₄.ltUnify rfl rfl]
  refine .read (typed_of_passed hunify t₄ _) ?_
  have hdims : d.LandsFree (dimChanges d.regs.dv dv) := fun p hp => hclear.lands p (Device.multiplies_dimResults hrule hp)
  refine (h₄.bindDims rfl dv hdims (fun r _ => Did.leavesDim_of_flights_nil rfl r)).bind (fun t₅ h₅ => ?_)
  refine .read (h₅.regionOperand hready.present rfl hra _) (.read (h₅.regionOperand hready.present rfl hrb _) ?_)
  exact Did.Trial.multiplyOperands h₅ hready.present _ hrule hunify hra hrb hclear

end

end Sys2Proof.Machine
end

section
/-! PROOFS. PDRN, LTDRN and LTMMA alone in their bundles. -/

open Sys2Proof.Machine

namespace Sys2Proof.Machine

/-- An instruction alone in its bundle of which the slot passes. -/
theorem exec_of_passes {s : State} {i : Instr} {f : Device → Except Ev Device} {now : Device} {x : Did} (hf : slotOf i = some f)
    (hready : s.dev.Ready i) (hnop : isNop i = false) (hx : x.Passes s.dev i now (f (s.dev.opened i))) (hclear : s.dev.Clear x) :
    exec i s = .next { s with dev := landCore s.dev.issue.l s.dev.issue.core s.dev.now (s.dev.afterIn now i x) } := by
  obtain ⟨t, ht, htrial⟩ := hx
  rw [exec_eq_issueOne hf]
  exact issueOne_in hready hnop ht htrial.leaves hclear.banks htrial.stays

/-- Settles O13: the slot of each of the three, operation by operation, leaves what its rule says. -/
theorem drainsAndLogicalTilesRunTheirTimetable : Obligations.DrainsAndLogicalTilesRunTheirTimetable := by
  unfold Obligations.DrainsAndLogicalTilesRunTheirTimetable
  intro s i now x hready hrule hclear
  unfold drainingRule at hrule
  split at hrule
  case h_1 => exact exec_of_passes rfl hready rfl (slotPdrn_passes hready hrule hclear) hclear
  case h_2 => exact exec_of_passes rfl hready rfl (slotLtdrn_passes hready hrule hclear) hclear
  case h_3 => exact exec_of_passes rfl hready rfl (slotLtmma_passes hready hrule hclear) hclear
  case h_4 => cases hrule

end Sys2Proof.Machine
end

section
/-! PROOFS. The scalar, predicate and address instructions (R119 to R124): each reads its sources at issue and puts one write in
flight; the words that the spec writes out. -/

open Sys2Proof.Machine

namespace Sys2Proof.Machine

/-! ## One result in flight -/

/-- The slot of `i` puts the writes `ws` in flight for issue + `n`, with the flags that they raise and the vector that a trap
names. -/
structure Device.Puts (d : Device) (i : Instr) (n : Nat) (ws : List RegWrite) (fl : Flags) (vd : Option VNum) : Prop where
  later : 0 < n
  acts : isNop i = false
  slot : ∃ f, Machine.slotOf i = some f ∧ f (d.opened i) = land n ws fl vd (d.opened i)

theorem exec_of_puts {s : State} {i : Instr} {n : Nat} {ws : List RegWrite} {fl : Flags} {vd : Option VNum} (hready : s.dev.Ready i)
    (h : s.dev.Puts i n ws fl vd) (hfree : s.dev.LandsFree (results n ws fl vd)) :
    exec i s = .next { s with dev := s.dev.after i { flights := results n ws fl vd } } := by
  obtain ⟨f, hf, hland⟩ := h.slot
  rw [exec_eq_issueOne hf]
  exact issueOne_land hready h.acts hland h.later hfree

/-- A scalar source of an instruction that is ready to issue. -/
theorem Device.Ready.source {d : Device} {i : Instr} (h : d.Ready i) {r : SReg} (hr : r ∈ scalarSources i) :
    (d.opened i).srcS r = .ok (d.value r) :=
  d.opened_srcS i r h.queues hr

theorem bind_of_ok {ε α β : Type} {e : Except ε α} {a : α} (h : e = .ok a) (f : α → Except ε β) : (e >>= f) = f a := by
  rw [h]
  rfl

theorem bind_ok_self {ε α : Type} (e : Except ε α) : (e >>= fun a => .ok a) = e := by
  cases e <;> rfl

theorem ofNat_toNat_dbl (x : Dbl) : dbl x.toNat = x := by
  rw [dbl, BitVec.ofNat_toNat, BitVec.setWidth_eq]

theorem Device.opened_srcP (d : Device) (i : Instr) (p : PNum) : (d.opened i).srcP p = d.flag p := by
  by_cases h : p = 0 <;> simp [Device.srcP, Device.flag, h]

section
variable {d : Device} {i : Instr} {n : Nat} {r a b : SReg} {v : Dbl}

theorem puts_slotBin {f : Dbl → Dbl → Dbl} (hready : d.Ready i) (hf : slotOf i = some (slotBin n f r a b))
    (hsources : scalarSources i = [a, b]) (hv : f (d.value a) (d.value b) = v) (hn : 0 < n := by decide)
    (hacts : isNop i = false := by rfl) : d.Puts i n [.s r v] 0 none := by
  refine ⟨hn, hacts, _, hf, ?_⟩
  rw [slotBin, bind_of_ok (hready.source (by simp [hsources])), bind_of_ok (hready.source (by simp [hsources])), hv]
  rfl

theorem puts_slotUn {f : Dbl → Dbl} (hready : d.Ready i) (hf : slotOf i = some (slotUn n f r a)) (hsources : scalarSources i = [a])
    (hv : f (d.value a) = v) (hn : 0 < n := by decide) (hacts : isNop i = false := by rfl) : d.Puts i n [.s r v] 0 none := by
  refine ⟨hn, hacts, _, hf, ?_⟩
  rw [slotUn, bind_of_ok (hready.source (by simp [hsources])), hv]
  rfl

end

/-! ## Values of the scalar instructions (R119, R120) -/

theorem rol64_eq_rotateLeft (x y : Dbl) : rol64 x (y.toNat % 64) = x.rotateLeft (y.toNat % 64) := by
  rw [BitVec.rotateLeft_def, Nat.mod_mod, rol64]

theorem slt_iff (x y : Dbl) : x.slt y = true ↔ x.toInt < y.toInt := by
  simp [BitVec.slt]

theorem ult_iff (x y : Dbl) : x.ult y = true ↔ x.toNat < y.toNat := by
  simp [BitVec.ult]

/-- The signed reading of the low bits of a register. -/
theorem signedOf_toNat {w : Nat} (hw : 0 < w) (x : Dbl) : signedOf w x.toNat = (x.setWidth w).toInt := by
  have hpow : 2 ^ w = 2 * 2 ^ (w - 1) := by rw [← pow_succ', Nat.sub_add_cancel hw]
  rw [signedOf, BitVec.toInt_eq_toNat_cond, BitVec.toNat_setWidth, hpow]
  simp only [Nat.mul_lt_mul_left (by decide : 0 < 2)]

theorem sext_eq_signExtend {w : Nat} (hw : 0 < w) (x : Dbl) : dblOfInt (signedOf w x.toNat) = (x.setWidth w).signExtend 64 := by
  rw [signedOf_toNat hw]
  rfl

theorem zext_eq_setWidth {w : Nat} (x : Dbl) : dbl (x.toNat % 2 ^ w) = (x.setWidth w).setWidth 64 := by
  apply BitVec.eq_of_toNat_eq
  simp [dbl]

theorem divRemI_div (x y : Dbl) : (divRemI x y).1 = if y = 0 then BitVec.allOnes 64 else x.sdiv y := by
  rw [divRemI]
  split
  next => rfl
  next => exact BitVec.eq_of_toInt_eq (by rw [BitVec.toInt_ofInt, BitVec.toInt_sdiv])

theorem divRemI_rem (x y : Dbl) : (divRemI x y).2 = if y = 0 then x else x.srem y := by
  rw [divRemI]
  split
  next => rfl
  next => rw [← BitVec.toInt_srem, BitVec.ofInt_toInt]

theorem divRemN_div (x y : Dbl) : (divRemN x y).1 = if y = 0 then BitVec.allOnes 64 else x / y := by
  rw [divRemN]
  split <;> rfl

theorem divRemN_rem (x y : Dbl) : (divRemN x y).2 = if y = 0 then x else x % y := by
  rw [divRemN]
  split <;> rfl

theorem upperImm_eq_append (u : BitVec 20) : upperImm u = (u ++ 0#12).signExtend 64 := by
  have h : u.setWidth 32 <<< 12 = u ++ 0#12 := by
    apply BitVec.eq_of_toNat_eq
    rw [BitVec.toNat_append, BitVec.toNat_shiftLeft, BitVec.toNat_setWidth_of_le (by decide)]
    simp [Nat.shiftLeft_eq]
    omega
  rw [upperImm, h]

/-! ## Selectors and privileges (R391, R392) -/

theorem opened_system {d : Device} (h : d.curLaunch.asid = 0) (i : Instr) : (d.opened i).system = true := by
  simp [Device.system, Device.asid, h]

theorem needHandlerOrSystem_ok {d : Device} (h : d.curLaunch.asid = 0) (i : Instr) (minor : Nat) :
    needHandlerOrSystem minor (d.opened i) = .ok () := by
  rw [needHandlerOrSystem, opened_system h, Bool.or_true, if_pos rfl]

theorem opened_selReadable {d : Device} {sel : Nat} (h : sel ≤ 0x0A ∨ (sel ≤ 0x10 ∧ d.curLaunch.asid = 0)) (i : Instr) :
    selReadable (d.opened i) sel = true := by
  rcases h with h | ⟨h, hasid⟩
  · simp [selReadable, h]
  · simp [selReadable, h, opened_system hasid]

/-! ## Scalar results -/

theorem scalarRule_puts {d : Device} {i : Instr} {n : Nat} {r : SReg} {v : Dbl} (hready : d.Ready i)
    (h : scalarRule d i = some (n, r, v)) : d.Puts i n [.s r v] 0 none := by
  cases i with
  | add | sub | and | or | xor | andn | shl | shr | sra | mul | mulh | mulhn =>
    cases h
    exact puts_slotBin hready rfl rfl rfl
  | rol =>
    cases h
    exact puts_slotBin hready rfl rfl (rol64_eq_rotateLeft _ _)
  | min | max =>
    cases h
    exact puts_slotBin hready rfl rfl (by simp only [slt_iff])
  | minn | maxn =>
    cases h
    exact puts_slotBin hready rfl rfl (by simp only [ult_iff])
  | div =>
    cases h
    exact puts_slotBin hready rfl rfl (divRemI_div _ _)
  | rem =>
    cases h
    exact puts_slotBin hready rfl rfl (divRemI_rem _ _)
  | divn =>
    cases h
    exact puts_slotBin hready rfl rfl (divRemN_div _ _)
  | remn =>
    cases h
    exact puts_slotBin hready rfl rfl (divRemN_rem _ _)
  | clz | ctz | popc | addi | andi | ori | xori | shli | shri | srai =>
    cases h
    exact puts_slotUn hready rfl rfl rfl
  | sext r a w =>
    cases w <;> cases h <;> exact puts_slotUn hready rfl rfl (sext_eq_signExtend (by decide) _)
  | zext r a w =>
    cases w <;> cases h <;> exact puts_slotUn hready rfl rfl (zext_eq_setWidth _)
  | sel r a b q =>
    cases h
    refine ⟨by decide, rfl, _, rfl, ?_⟩
    rw [slotSel, slotBin, bind_of_ok (hready.source (.head _)), bind_of_ok (hready.source (.tail _ (.head _))), Device.opened_srcP]
    simp only [Device.flag, Bool.or_eq_true, decide_eq_true_eq]
    rfl
  | movi r i => cases h; exact ⟨by decide, rfl, _, rfl, rfl⟩
  | lui r u =>
    cases h
    exact ⟨by decide, rfl, _, rfl, by rw [slotLui, upperImm_eq_append]; rfl⟩
  | addpc r u =>
    cases h
    exact ⟨by decide, rfl, _, rfl, by rw [slotAddpc, upperImm_eq_append]; rfl⟩
  | aget r a f => cases f <;> cases h <;> exact ⟨by decide, rfl, _, rfl, rfl⟩
  | vext e r a b m sgn =>
    cases h
    refine ⟨by decide, rfl, _, rfl, ?_⟩
    rw [slotVext, bind_of_ok (hready.source (.head _))]
    rfl
  | mpop r a m => cases h; exact ⟨by decide, rfl, _, rfl, rfl⟩
  | tgett r t x =>
    cases x with
    | true => cases h; exact ⟨by decide, rfl, _, rfl, rfl⟩
    | false => cases h; exact ⟨by decide, rfl, _, rfl, congrArg (landS 1 r · (d.opened _)) (ofNat_toNat_dbl _)⟩
  | qcnt r q =>
    cases h
    exact ⟨by decide, rfl, _, rfl, by rw [slotQcnt, bind_of_ok (d.opened_port _)]; rfl⟩
  | lidx r dep pop =>
    cases pop <;> cases h
    refine ⟨by decide, rfl, _, rfl, (bind_ok_self _).trans (congrArg (landS 1 r · (d.opened _)) ?_)⟩
    rw [Device.opened_regs]
    cases d.regs.loops[dep.toNat]? <;> rfl
  | ccrd r a =>
    cases h
    refine ⟨by decide, rfl, _, rfl, ?_⟩
    rw [slotCcrd, bind_of_ok (hready.source (.head _))]
    rfl
  | mfsr r sel =>
    rw [scalarRule] at h
    split at h
    next hsel =>
      cases h
      refine ⟨by decide, rfl, _, rfl, ?_⟩
      rw [slotMfsr, opened_selReadable hsel, if_neg (by decide)]
      rfl
    next => cases h
  | monrd r a =>
    rw [scalarRule] at h
    split at h
    next hasid =>
      cases h
      refine ⟨by decide, rfl, _, rfl, ?_⟩
      rw [slotMonrd, bind_of_ok (needHandlerOrSystem_ok hasid _ _), bind_of_ok (hready.source (.head _))]
      rfl
    next => cases h
  | errpop r w pop =>
    cases pop with
    | true => cases h
    | false =>
      rw [scalarRule] at h
      split at h
      next hasid =>
        cases h
        refine ⟨by decide, rfl, _, rfl, ?_⟩
        rw [slotErrpop, bind_of_ok (needHandlerOrSystem_ok hasid _ _)]
        exact bind_ok_self _
      next => cases h
  | _ => cases h

/-- Settles O1: the slot of each instruction reads its sources and lands the value of its rule. -/
theorem scalarResultsLandAtTheirLatency : Obligations.ScalarResultsLandAtTheirLatency := by
  unfold Obligations.ScalarResultsLandAtTheirLatency
  intro s i n r v hready hrule hfree
  exact exec_of_puts hready (scalarRule_puts hready hrule) hfree

/-! ## Predicates (R45, R121) -/

theorem condHolds_eq_compared (c : Cond) (x y : Dbl) : condHolds c x y = compared c x y := by
  rw [Bool.eq_iff_iff]
  cases c <;> simp [condHolds, compared, BitVec.slt, BitVec.ult]

theorem predicateRule_puts {d : Device} {i : Instr} {p : PNum} {b : Bool} (hready : d.Ready i) (h : predicateRule d i = some (p, b)) :
    d.Puts i 1 [.p p b] 0 none := by
  cases i with
  | cmp c p x y =>
    cases h
    refine ⟨by decide, rfl, _, rfl, ?_⟩
    rw [slotCmp, bind_of_ok (hready.source (.head _)), bind_of_ok (hready.source (.tail _ (.head _))), condHolds_eq_compared]
    rfl
  | cmpi c p x imm =>
    cases h
    refine ⟨by decide, rfl, _, rfl, ?_⟩
    rw [slotCmpi, bind_of_ok (hready.source (.head _)), condHolds_eq_compared]
    rfl
  | pand p x y =>
    cases h
    exact ⟨by decide, rfl, _, rfl, by rw [slotPand, Device.opened_srcP, Device.opened_srcP]; rfl⟩
  | por p x y =>
    cases h
    exact ⟨by decide, rfl, _, rfl, by rw [slotPor, Device.opened_srcP, Device.opened_srcP]; rfl⟩
  | pnot p x =>
    cases h
    exact ⟨by decide, rfl, _, rfl, by rw [slotPnot, Device.opened_srcP]; rfl⟩
  | _ => cases h

/-- Settles O2: the slot of each instruction reads its sources and lands the truth of its rule. -/
theorem predicateInstructionsWriteTheirTruth : Obligations.PredicateInstructionsWriteTheirTruth := by
  unfold Obligations.PredicateInstructionsWriteTheirTruth
  intro s i p b hready hrule hfree
  exact exec_of_puts hready (predicateRule_puts hready hrule) hfree

/-! ## Address registers (R123, R124) -/

theorem lowSigned_eq (x : Dbl) : lowSigned x = (x.setWidth 32).toInt := signedOf_toNat (by decide) x

theorem stepAddr_eq_stepped (a : Word) (dist : Int) (w : Word) : stepAddr a dist w = stepped a dist w := by
  rw [stepAddr, stepped]
  split
  next => rfl
  next hw =>
    have hpos : (0 : Int) < w.toNat := by
      have : w.toNat ≠ 0 := fun h => hw (BitVec.eq_of_toNat_eq h)
      omega
    have hmod : 0 ≤ (((a.toNat % w.toNat : Nat) : Int) + dist) % w.toNat := Int.emod_nonneg _ hpos.ne'
    dsimp only
    rw [word, ← BitVec.ofInt_natCast, Nat.cast_add, Int.toNat_of_nonneg hmod]

theorem addressRule_puts {d : Device} {i : Instr} {w : RegWrite} (hready : d.Ready i) (h : addressRule d i = some w) :
    d.Puts i 1 [w] 0 none := by
  cases i with
  | amov r a =>
    cases h
    refine ⟨by decide, rfl, _, rfl, ?_⟩
    rw [slotAmov, bind_of_ok (hready.source (.head _))]
  | ainc r a =>
    cases h
    refine ⟨by decide, rfl, _, rfl, ?_⟩
    rw [slotAinc, bind_of_ok (hready.source (.head _))]
  | amod r a =>
    cases h
    refine ⟨by decide, rfl, _, rfl, ?_⟩
    rw [slotAmod, bind_of_ok (hready.source (.head _))]
  | aadd r a b =>
    cases h
    refine ⟨by decide, rfl, _, rfl, ?_⟩
    rw [slotAadd, bind_of_ok (hready.source (.head _)), stepAddr_eq_stepped, lowSigned_eq]
    rfl
  | aaddi r a imm =>
    cases h
    refine ⟨by decide, rfl, _, rfl, ?_⟩
    rw [slotAaddi, stepAddr_eq_stepped, lowSigned_eq]
    rfl
  | _ => cases h

/-- Settles O3: the slot of each instruction reads its sources and lands its one write. -/
theorem addressInstructionsWriteOneField : Obligations.AddressInstructionsWriteOneField := by
  unfold Obligations.AddressInstructionsWriteOneField
  intro s i w hready hrule hfree
  exact exec_of_puts hready (addressRule_puts hready hrule) hfree

/-! ## The words that the spec writes out -/

/-- Settles O15: the first four words by evaluation, the last by its major. -/
theorem specWordsDecodeToTheirInstructions : Obligations.SpecWordsDecodeToTheirInstructions := by
  unfold Obligations.SpecWordsDecodeToTheirInstructions
  refine ⟨by decide +kernel, by decide +kernel, by decide +kernel, by decide +kernel, decodeSlot_illegal none (by decide)⟩

end Sys2Proof.Machine
end

section
/-! PROOFS. The vectors that an element-wise instruction writes (R115, R116, R133): what a result under a mask holds at each
place of its register group. -/

open Sys2Proof.Machine

namespace Sys2Proof.Machine

/-! ## Elements of a vector -/

theorem elemAt_ofElems (w : Nat) (l : List Nat) (k : Nat) : elemAt w (ofElems w l) k = l.getD k 0 % 2 ^ w := by
  induction l generalizing k with
  | nil => simp [ofElems, elemAt, bitField]
  | cons v t ih =>
    cases k with
    | zero => simp [ofElems, elemAt, bitField]
    | succ k =>
      have hdiv : (v % 2 ^ w + 2 ^ w * ofElems w t) / 2 ^ w = ofElems w t := by
        rw [Nat.add_mul_div_left _ _ (Nat.two_pow_pos w), Nat.div_eq_of_lt (Nat.mod_lt _ (Nat.two_pow_pos w)), Nat.zero_add]
      rw [List.getD_cons_succ, ← ih, elemAt, elemAt, bitField, bitField, ofElems, Nat.mul_succ, Nat.add_comm (w * k), pow_add,
        ← Nat.div_div_eq_div_mul, hdiv]

theorem bitField_ofNat {n lo m : Nat} (x : Nat) (h : lo + m ≤ n) : bitField (BitVec.ofNat n x).toNat lo m = bitField x lo m := by
  rw [BitVec.toNat_ofNat, bitField_mod x n lo m h]

/-- Element `k` of vector data made from its elements, where the vector has an element `k`. -/
theorem velem_vdata {w k : Nat} (l : List Nat) (hk : k < 4096 / w) : velem w (vdata w l) k = l.getD k 0 % 2 ^ w := by
  have hfits : w * k + w ≤ 4096 := by
    rw [← Nat.mul_succ, Nat.mul_comm]
    exact (Nat.mul_le_mul_right w hk).trans (Nat.div_mul_le_self 4096 w)
  rw [← elemAt_ofElems]
  exact bitField_ofNat _ hfits

theorem getD_map_rangeFrom {α : Type} (f : Nat → α) {n k : Nat} (hk : k < n) (x : α) : ((rangeFrom 0 n).map f).getD k x = f k := by
  simp [rangeFrom_zero, List.getD_eq_getElem?_getD, hk]

theorem getD_drop_take (l : List Nat) {a c k : Nat} (hk : k < c) : ((l.drop a).take c).getD k 0 = l.getD (a + k) 0 := by
  simp [List.getD_eq_getElem?_getD, hk]

/-- Element `k` of a group in the interleave (R115). -/
theorem velem_splitGroup {w g k : Nat} (l : List Nat) (hk : k < g * (4096 / w)) :
    velem w ((splitGroup w g l).getD (k % g) 0) (k / g) = l.getD k 0 % 2 ^ w := by
  have hg : 0 < g := Nat.pos_of_mul_pos_right (Nat.zero_lt_of_lt hk)
  have hq : k / g < 4096 / w := Nat.div_lt_of_lt_mul hk
  rw [splitGroup, getD_map_rangeFrom _ (Nat.mod_lt k hg), velem_vdata _ hq, getD_map_rangeFrom _ hq, Nat.div_add_mod,
    elemAt_ofElems, Nat.mod_mod]

/-- Element `k` of a group in plain order (R133). -/
theorem velem_splitPlain {w g k : Nat} (l : List Nat) (hk : k < g * (4096 / w)) :
    velem w ((splitPlain w g l).getD (k / (4096 / w)) 0) (k % (4096 / w)) = l.getD k 0 % 2 ^ w := by
  have hpos : 0 < 4096 / w := Nat.pos_of_mul_pos_left (Nat.zero_lt_of_lt hk)
  have hq : k / (4096 / w) < g := Nat.div_lt_of_lt_mul (by rwa [Nat.mul_comm])
  have hr : k % (4096 / w) < 4096 / w := Nat.mod_lt k hpos
  rw [splitPlain, getD_map_rangeFrom _ hq, velem_vdata _ hr, getD_drop_take _ hr, Nat.mul_comm, Nat.div_add_mod]

theorem vnum_val (r : VNum) : vnum r.val = r := Fin.ofNat_val_eq_self r

theorem Device.srcVn_val (d : Device) (r : VNum) : d.srcVn r.val = d.srcV r :=
  congrArg d.srcV (vnum_val r)

/-! ## Elements under a mask (R116) -/

theorem maskElem_flags_zero (mask : Mask) (k old new : Nat) : (maskElem mask k old (plain new)).2 = 0 := by
  cases mask with
  | none => rfl
  | some p =>
    rw [maskElem]
    split <;> rfl

theorem orFlags_zero {l : List Flags} (h : ∀ f ∈ l, f = 0) : orFlags l = 0 := by
  induction l with
  | nil => rfl
  | cons f t ih =>
    rw [orFlags, h f List.mem_cons_self, ih (fun g hg => h g (List.mem_cons_of_mem _ hg))]
    rfl

/-- The elements after an instruction are its elements under its mask. -/
theorem VecRule.after_eq (x : VecRule) (d : Device) {m : VMod} (hm : x.mask = m.mask) (k : Nat) :
    x.after d k = maskElem (d.vmask m) (k % 1024) (velem x.w (d.srcVn (x.dst.val + (x.place k).1)) (x.place k).2) (x.elem k) := by
  unfold VecRule.after Device.vmask
  rw [hm]
  cases m.mask <;> rfl

/-! ## Vector results in flight -/

/-- Writes of whole vectors by their registers' numbers. -/
def vectorWrites (l : List (Nat × VData)) : List RegWrite := l.map (fun p => .v (vnum p.1) 0 512 p.2)

theorem vectorWrites_one (r : VNum) (v : VData) : vectorWrites ((rangeFrom r.val 1).zip [v]) = [.v r 0 512 v] := by
  simp [vectorWrites, rangeFrom, vnum_val]

section
variable {n : Nat} {regs : List Nat} {vs : List VData} {fl : Flags} {vd : Option VNum}

/-- Writes of whole vectors are in flight whatever they raise. -/
theorem results_vectorWrites (hlen : vs.length = regs.length) (hne : regs ≠ []) :
    results n (vectorWrites (regs.zip vs)) fl vd = [(n, .regs (vectorWrites (regs.zip vs)) fl vd)] := by
  have hkeep : (vectorWrites (regs.zip vs)).filter RegWrite.keeps = vectorWrites (regs.zip vs) :=
    List.filter_eq_self.mpr (fun w hw => by
      obtain ⟨p, -, rfl⟩ := List.mem_map.mp hw
      rfl)
  have hzip : regs.zip vs ≠ [] := List.ne_nil_of_length_pos (by
    rw [List.length_zip, hlen, Nat.min_self]
    exact List.length_pos_of_ne_nil hne)
  rw [results, hkeep, if_neg]
  simp [vectorWrites, hzip]

/-- The places of the vectors of a group do not depend on what they hold. -/
theorem places_vectorWrites (hlen : vs.length = regs.length) :
    (vectorWrites (regs.zip vs)).filterMap RegWrite.place = (regs.map (fun r => RegWrite.v (vnum r) 0 512 0)).filterMap RegWrite.place := by
  have hfst : (regs.zip vs).map Prod.fst = regs := List.map_fst_zip hlen.ge
  conv_rhs => rw [← hfst]
  rw [vectorWrites, List.filterMap_map, List.filterMap_map, List.filterMap_map]
  rfl

theorem Device.LandsFree.vectorWrites {d : Device} (hlen : vs.length = regs.length) (hne : regs ≠ [])
    (h : d.LandsFree [(n, .regs (regs.map (fun r => .v (vnum r) 0 512 0)) 0 vd)]) :
    d.LandsFree (results n (vectorWrites (regs.zip vs)) fl vd) := by
  intro p hp
  rw [results_vectorWrites hlen hne] at hp
  obtain rfl := List.mem_singleton.mp hp
  rw [FlyOp.places, places_vectorWrites hlen]
  exact h _ (List.mem_singleton_self _)

end

/-- The slot of `i` puts the vectors of the rule `x` in flight. -/
def VecRule.Written (x : VecRule) (d : Device) (i : Instr) : Prop :=
  0 < x.g ∧ ∃ vs : List VData, vs.length = x.g ∧
    (∀ k, k < x.count → velem x.w (vs.getD (x.place k).1 0) (x.place k).2 = (x.after d k).1 % 2 ^ x.w) ∧
    d.Puts i x.n (vectorWrites ((rangeFrom x.dst.val x.g).zip vs))
      (orFlags ((rangeFrom 0 x.count).map (fun k => (x.after d k).2))) (some x.dst)

section
variable {d : Device} {i : Instr} {act : Device → Except Ev Device}

/-- The elements `r` of the logical vector, laid out in the registers `vs`. -/
theorem VecRule.written_of_elements {x : VecRule} {vs : List VData} (r : Nat → Nat × Flags) (hslot : slotOf i = some act)
    (hafter : ∀ k, k < x.count → x.after d k = r k) (hlen : vs.length = x.g)
    (hplace : ∀ k, k < x.count → velem x.w (vs.getD (x.place k).1 0) (x.place k).2 =
      (codesOf ((rangeFrom 0 x.count).map r)).getD k 0 % 2 ^ x.w)
    (hact : act (d.opened i) = land x.n (vectorWrites ((rangeFrom x.dst.val x.g).zip vs))
      (flagsOf ((rangeFrom 0 x.count).map r)) (some x.dst) (d.opened i))
    (hg : 0 < x.g) (hn : 0 < x.n) (hacts : isNop i = false) : x.Written d i := by
  refine ⟨hg, vs, hlen, fun k hk => ?_, hn, hacts, act, hslot, ?_⟩
  · rw [hplace k hk, hafter k hk, codesOf, List.map_map, getD_map_rangeFrom _ hk]
    rfl
  · rw [hact, flagsOf, List.map_map]
    congr 2
    exact List.map_congr_left (fun k hk => by
      rw [Function.comp, hafter k (List.mem_range.mp (by rwa [rangeFrom_zero] at hk))])

variable {n w g : Nat} {dst : VNum} {m : VMod} {f elem : Nat → Nat × Flags}

/-- One register of elements. -/
theorem written_of_landElems (hslot : slotOf i = some act)
    (hact : act (d.opened i) = landElems n w dst (d.vmask m) f (d.opened i)) (helem : ∀ k, k < 4096 / w → f k = elem k)
    (hw : 4096 / w ≤ 1024) (hn : 0 < n := by decide) (hacts : isNop i = false := by rfl) :
    (oneVec n w dst m elem).Written d i := by
  have hcount : (oneVec n w dst m elem).count = 4096 / w := Nat.one_mul _
  have hplace (k : Nat) : (oneVec n w dst m elem).place k = (0, k) := by simp [VecRule.place, oneVec, Nat.mod_one]
  refine VecRule.written_of_elements (fun k => maskElem (d.vmask m) k (velem w (d.srcV dst) k) (f k)) hslot
    (vs := [vdata w (codesOf (mapElems (d.vmask m) (4096 / w) (fun k => velem w (d.srcV dst) k) f))]) ?_ rfl ?_ ?_ Nat.one_pos hn hacts
  · intro k hk
    rw [hcount] at hk
    rw [VecRule.after_eq _ d rfl, Nat.mod_eq_of_lt (by omega), helem k hk, hplace, ← d.srcVn_val]
    rfl
  · intro k hk
    rw [hcount] at hk ⊢
    rw [hplace]
    exact velem_vdata _ hk
  · rw [hact, hcount, landElems, landV, ← vectorWrites_one dst]
    rfl

/-- A group of registers in the interleave (R115). -/
theorem written_of_landGroupElems (hslot : slotOf i = some act)
    (hact : act (d.opened i) = landGroupElems n w g dst (d.vmask m) f (d.opened i)) (helem : ∀ k, k < g * (4096 / w) → f k = elem k)
    (hw : g * (4096 / w) ≤ 1024) (hg : 0 < g := by decide) (hn : 0 < n := by decide) (hacts : isNop i = false := by rfl) :
    (groupVec n w g false dst m elem).Written d i := by
  have hlen (l : List Nat) : (splitGroup w g l).length = g := by rw [splitGroup, List.length_map, rangeFrom_zero, List.length_range]
  refine VecRule.written_of_elements (fun k => maskElem (d.vmask m) k (d.grpElem dst.val g w k) (f k)) hslot
    (vs := splitGroup w g (codesOf (mapElems (d.vmask m) (g * (4096 / w)) (d.grpElem dst.val g w) f))) ?_ (hlen _) ?_ ?_ hg hn hacts
  · intro k hk
    rw [VecRule.after_eq _ d rfl, Nat.mod_eq_of_lt (lt_of_lt_of_le hk hw), helem k hk]
    rfl
  · exact fun k hk => velem_splitGroup _ hk
  · rw [hact, landGroupElems, landGroup, hlen]
    rfl

/-- The elements of a pair one register after the other (R133). -/
theorem catElem_eq {c k : Nat} (hc : c = 4096 / w) (hk : k < 2 * c) (d : Device) (a : VNum) :
    catElem w (d.srcV a) (d.srcVn (a.val + 1)) k = velem w (d.srcVn (a.val + k / c)) (k % c) := by
  subst hc
  by_cases h : k < 4096 / w
  · simp only [catElem, if_pos h, Nat.div_eq_of_lt h, Nat.mod_eq_of_lt h, Nat.add_zero, d.srcVn_val]
  · obtain ⟨j, rfl⟩ := Nat.exists_eq_add_of_le (not_lt.mp h)
    have hj : j < 4096 / w := by omega
    simp only [catElem, if_neg h, if_pos hk, Nat.add_sub_cancel_left, Nat.add_div_left _ (Nat.zero_lt_of_lt hj), Nat.add_mod_left,
      Nat.div_eq_of_lt hj, Nat.mod_eq_of_lt hj, Nat.zero_add]

/-- A pair of registers in plain order (R133). -/
theorem written_of_slotPair {e : EWidth} {f : Nat → Nat} (hslot : slotOf i = some act)
    (hact : act (d.opened i) = slotPair e dst m f (d.opened i)) (helem : ∀ k, k < 2 * (4096 / e.bits) → plain (f k) = elem k)
    (hacts : isNop i = false := by rfl) : (groupVec 3 e.bits 2 true dst m elem).Written d i := by
  let r (k : Nat) : Nat × Flags := maskElem (d.vmask m) (k % 1024) (catElem e.bits (d.srcV dst) (d.srcVn (dst.val + 1)) k) (plain (f k))
  refine VecRule.written_of_elements r hslot (vs := splitPlain e.bits 2 (codesOf ((rangeFrom 0 (2 * (4096 / e.bits))).map r)))
    ?_ rfl ?_ ?_ Nat.two_pos (Nat.succ_pos 2) hacts
  · intro k hk
    rw [VecRule.after_eq _ d rfl]
    exact congrArg₂ (maskElem _ _) (catElem_eq rfl hk d dst).symm (helem k hk).symm
  · exact fun k hk => velem_splitPlain _ hk
  · have hflags : flagsOf ((rangeFrom 0 (2 * (4096 / e.bits))).map r) = 0 := orFlags_zero (fun fl hfl => by
      simp only [List.map_map, List.mem_map, Function.comp_apply] at hfl
      obtain ⟨k, -, rfl⟩ := hfl
      exact maskElem_flags_zero _ _ _ _)
    rw [hact, slotPair]
    change _ = land 3 _ (flagsOf ((rangeFrom 0 (2 * (4096 / e.bits))).map r)) _ _
    rw [hflags]
    rfl

end

end Sys2Proof.Machine
end

section
/-! PROOFS. The element-wise vector instructions (R126, R128, R130 to R134, R136): the slot of each lands the elements of its
rule. -/

open Sys2Proof.Machine

namespace Sys2Proof.Machine

/-! ## Elements in a register and in a group -/

theorem count_le {w : Nat} (h : 4 ≤ w) : 4096 / w ≤ 1024 := Nat.div_le_div_left h (by decide)

theorem ratio_count_le {w v : Nat} (hw : 4 ≤ w) (hv : 4 ≤ v) : ratio w v * (4096 / w) ≤ 1024 := by
  rw [ratio]
  split
  next =>
    calc w / v * (4096 / w) ≤ w * 4096 / (v * w) := Nat.div_mul_div_le w v 4096 w
      _ = 4096 / v := by rw [Nat.mul_comm v, Nat.mul_div_mul_left _ _ (by omega)]
      _ ≤ 1024 := count_le hv
  next =>
    rw [Nat.one_mul]
    exact count_le hw

theorem ratio_pos {w v : Nat} (hv : 0 < v) : 0 < ratio w v := by
  rw [ratio]
  split
  next h => exact Nat.div_pos h.le hv
  next => exact Nat.one_pos

theorem four_le_fpWidth (e : FpFmt) : 4 ≤ fpWidth e := by cases e <;> decide

theorem four_le_heldFloat (f : FloatFmt) : 4 ≤ heldFloat f := by cases f <;> decide

theorem four_le_intBits (e : IntFmt) : 4 ≤ e.bits := by cases e <;> decide

theorem four_le_elementBits (e : EWidth) : 4 ≤ e.bits := by cases e <;> decide

theorem widened_count_le (k : Nat) (e : IntFmt) : k * (4096 / (k * e.bits)) ≤ 1024 :=
  calc k * (4096 / (k * e.bits)) = k * (4096 / e.bits / k) := by rw [Nat.div_div_eq_div_mul, Nat.mul_comm k e.bits]
    _ ≤ 4096 / e.bits := Nat.mul_div_le _ _
    _ ≤ 1024 := count_le (four_le_intBits e)

theorem narrowed_count_le {k : Nat} {e : IntFmt} (hk : 0 < k) (h : narrowFmtOk k e = true) : 4096 / (e.bits / k) ≤ 1024 :=
  count_le ((Nat.le_div_iff_mul_le hk).mpr (of_decide_eq_true h))

theorem middle_of_and {a b c : Bool} (h : (a && b && c) = true) : b = true := by
  simp only [Bool.and_eq_true] at h
  exact h.1.2

/-! ## Elements of the integer instructions (R131, R132) -/

theorem fitInt_eq_fitted (w : Nat) (sg sat : Bool) (x : Int) : fitInt w sg sat x = fitted w sg sat x := by
  unfold fitInt
  simp only [Bool.and_eq_true, decide_eq_true_eq]
  rfl

theorem lesser_eq_min (x y : Int) : (if y < x then y else x) = min x y := by
  rw [min_comm, min_def_lt]

theorem greater_eq_max (x y : Int) : (if x < y then y else x) = max x y := (max_def_lt x y).symm

theorem dotSum_eq_sum (e : IntFmt) (a b : VData) (l : List Nat) :
    dotSum e a b l = (l.map (fun j => intVal e (velem e.bits a j) * intVal e (velem e.bits b j))).sum := by
  induction l with
  | nil => rfl
  | cons j t ih => rw [dotSum, ih, List.map_cons, List.sum_cons]

theorem sraElem_eq (w a n : Nat) : sraElem w a n = codeOfInt w (signedOf w a / (2 ^ min n w : Nat)) := by
  have h : (if n ≥ w then w else n) = min n w := by split <;> omega
  rw [sraElem, h]

/-! ## The slots -/

section
variable {d : Device} {i : Instr}

theorem written_of_slotSpecial {fn : SpecialFn} {e : FpFmt} {r a : VNum} {n : SReg} {m : VMod} (hready : d.Ready i)
    (hslot : slotOf i = some (slotSpecial fn e r a n m)) (hsource : scalarSources i = [n]) (hacts : isNop i = false := by rfl) :
    (oneVec 8 (fpWidth e) r m fun k => specialElem fn (d.vmodes m) (fpFloat e) (k + (d.value n).toNat)
      (velem (fpWidth e) d.regs.v[a] k)).Written d i := by
  refine written_of_landElems hslot ?_ (fun k _ => rfl) (count_le (four_le_fpWidth e)) (by decide) hacts
  rw [slotSpecial, bind_of_ok (hready.source (by rw [hsource]; exact .head _))]
  rfl

theorem vhusk_reads {r : BitVec 6} {a b : SReg} {m : VMod} {hk msk : Bool} {wc : EWidth} {p : BitVec 16} :
    b ∈ scalarSources (.vhusk r a b m hk msk wc p) := by
  cases hk <;> simp [scalarSources]

/-- The key of VHUSK is HKEY or a scalar (R136). -/
theorem huskKey_ok {r : BitVec 6} {a b : SReg} {m : VMod} {hk msk : Bool} {wc : EWidth} {p : BitVec 16}
    (hready : d.Ready (.vhusk r a b m hk msk wc p)) :
    huskKey hk a (d.opened (.vhusk r a b m hk msk wc p)) = .ok (if hk then d.regs.hkey else d.value a) := by
  cases hk with
  | true => rfl
  | false => exact hready.source (.head _)

theorem vectorRule_written {x : VecRule} (hready : d.Ready i) (hwf : i.wf = true) (h : vectorRule d i = some x) :
    x.Written d i := by
  cases i with
  | vadd e r a b m o | vsub e r a b m o | vmul e r a b m o | vfma e r a b m o | vfms e r a b m o =>
    cases h
    exact written_of_landElems rfl rfl (fun k _ => by rw [Nat.mul_comm 1024]; rfl) (count_le (four_le_fpWidth e))
  | vmin e | vmax e | vabs e | vneg e | vsel e =>
    cases h
    exact written_of_landElems rfl rfl (fun k _ => rfl) (count_le (four_le_fpWidth e))
  | vrnd e r a n m =>
    cases h
    refine written_of_landElems rfl ?_ (fun k _ => rfl) (count_le (four_le_fpWidth e))
    rw [slotVrnd, bind_of_ok (hready.source (.head _))]
    rfl
  | vexp2 | vlog2 | vrcp | vrsq | vsig | vtanh =>
    cases h
    exact written_of_slotSpecial hready rfl rfl
  | viadd e | visub e | vimul e =>
    cases h
    exact written_of_landElems rfl rfl (fun k _ => fitInt_eq_fitted ..) (count_le (four_le_intBits e))
  | vimin e =>
    cases h
    exact written_of_landElems rfl rfl (fun k _ => congrArg (fun x => (codeOfInt e.bits x, 0)) (lesser_eq_min ..))
      (count_le (four_le_intBits e))
  | vimax e =>
    cases h
    exact written_of_landElems rfl rfl (fun k _ => congrArg (fun x => (codeOfInt e.bits x, 0)) (greater_eq_max ..))
      (count_le (four_le_intBits e))
  | vidot e r a b m =>
    cases h
    refine written_of_landElems rfl rfl (fun k _ => ?_) (count_le (by decide))
    rw [fitInt_eq_fitted, dotSum_eq_sum, rangeFrom_eq_map, List.map_map]
    rfl
  | vshl e | vshr e =>
    cases h
    exact written_of_landElems rfl rfl (fun k _ => rfl) (count_le (four_le_intBits e))
  | vsra e =>
    cases h
    exact written_of_landElems rfl rfl (fun k _ => congrArg (·, 0) (sraElem_eq ..)) (count_le (four_le_intBits e))
  | vand e | vor e | vxor e =>
    cases h
    exact written_of_landElems rfl rfl (fun k _ => rfl) (count_le (four_le_intBits e))
  | vwidenX2 e | vwidenX4 e =>
    cases h
    exact written_of_landGroupElems rfl rfl (fun k _ => rfl) (widened_count_le _ e)
  | vnarrowD2 e | vnarrowD4 e =>
    cases h
    exact written_of_landElems rfl rfl (fun k _ => fitInt_eq_fitted ..) (narrowed_count_le (by decide) (middle_of_and hwf))
  | vcvtFp df sf r a n m =>
    cases h
    refine written_of_landGroupElems rfl ?_ (fun k _ => rfl) (ratio_count_le (four_le_heldFloat df) (four_le_heldFloat sf))
      (ratio_pos (Nat.zero_lt_of_lt (four_le_heldFloat sf)))
    rw [slotVcvtFp, bind_of_ok (hready.source (.head _))]
    rfl
  | vcvtInt dir c f r a n m =>
    cases dir with
    | intToFp =>
      cases h
      refine written_of_landGroupElems rfl ?_ (fun k _ => rfl) (ratio_count_le (four_le_fpWidth f) (four_le_intBits c))
        (ratio_pos (Nat.zero_lt_of_lt (four_le_intBits c)))
      rw [slotVcvtInt, bind_of_ok (hready.source (.head _))]
      rfl
    | fpToInt =>
      cases h
      refine written_of_landGroupElems rfl ?_ (fun k _ => rfl) (ratio_count_le (four_le_intBits c) (four_le_fpWidth f))
        (ratio_pos (Nat.zero_lt_of_lt (four_le_fpWidth f)))
      rw [slotVcvtInt, bind_of_ok (hready.source (.head _))]
      rfl
  | vperm e r a b m =>
    cases h
    exact written_of_landElems rfl rfl (fun k _ => by cases e <;> rfl) (count_le (four_le_elementBits e))
  | vbcast e r a m scl idx =>
    cases h
    cases scl with
    | true =>
      refine written_of_landElems rfl ?_ (fun k _ => rfl) (count_le (four_le_elementBits e))
      rw [slotVbcast, if_pos rfl, bind_of_ok (hready.source (.head _))]
      rfl
    | false => exact written_of_landElems rfl rfl (fun k _ => rfl) (count_le (four_le_elementBits e))
  | vslide e =>
    cases h
    exact written_of_landElems rfl rfl (fun k _ => rfl) (count_le (four_le_elementBits e))
  | viota e r a m =>
    cases h
    refine written_of_landElems rfl ?_ (fun k _ => rfl) (count_le (four_le_elementBits e))
    rw [slotViota, bind_of_ok (hready.source (.head _))]
    rfl
  | vzip e =>
    cases h
    exact written_of_slotPair rfl rfl (fun k _ => rfl)
  | vunzip e =>
    cases h
    refine written_of_slotPair rfl rfl (fun k hk => ?_)
    have hj : (if k < 4096 / e.bits then 2 * k else 2 * (k - 4096 / e.bits) + 1) < 2 * (4096 / e.bits) := by split <;> omega
    simp only [catElem, if_pos hj]
    rfl
  | vhusk r a b m hk msk wc p =>
    cases msk with
    | true => cases h
    | false =>
      cases h
      refine written_of_landElems rfl ?_ (fun k _ => rfl) (count_le (by decide))
      rw [slotVhusk, bind_of_ok (huskKey_ok hready), bind_of_ok (hready.source vhusk_reads)]
      rfl
  | _ => cases h

end

/-- Settles O4: the slot of each instruction lands the elements of its rule under its mask, at their places. -/
theorem vectorInstructionsWriteElementByElement : Obligations.VectorInstructionsWriteElementByElement := by
  unfold Obligations.VectorInstructionsWriteElementByElement
  intro s i x hready hwf hrule hfree
  obtain ⟨hg, vs, hlen, helems, hputs⟩ := vectorRule_written hready hwf hrule
  have hregs : vs.length = (rangeFrom x.dst.val x.g).length := by rw [rangeFrom_eq_range', List.length_range', hlen]
  have hne : rangeFrom x.dst.val x.g ≠ [] := List.ne_nil_of_length_pos (by rwa [← hregs, hlen])
  refine ⟨vs, hlen, helems, ?_⟩
  rw [exec_of_puts hready hputs (hfree.vectorWrites hregs hne), results_vectorWrites hregs hne]
  rfl

end Sys2Proof.Machine
end

section
/-! PROOFS. The order of VREDMAX and VREDMIN (R126, R129): values in order of size, −0 below +0, so that a reduction gives one
value whichever way it runs. -/

open Sys2Proof.Machine

namespace Sys2Proof.Machine

/-! ## Values that are read -/

/-- A value read from a code: finite ones are exact, and not zero unless they are the zeros. -/
def Exact.Read : Exact → Prop
  | .fin _ n _ k => n ≠ 0 ∧ k = false
  | _ => True

theorem read_decodeFloat (f : FloatFmt) (c : Nat) : (decodeFloat f c).Read := by
  unfold decodeFloat
  dsimp only
  split
  next => trivial
  split
  next => trivial
  split
  next => trivial
  next hmag =>
    split
    next he =>
      refine ⟨fun hm => hmag ?_, rfl⟩
      rw [bitField] at he
      rw [bitField, pow_zero, Nat.div_one] at hm ⊢
      rw [FmtInfo.w, Nat.add_assoc, Nat.add_sub_cancel_left, Nat.add_comm, pow_add, Nat.mod_mul, hm, he, Nat.mul_zero]
    next => exact ⟨by positivity, rfl⟩

theorem read_readFz (fz : Bool) (f : FloatFmt) (c : Nat) : (readFz fz f c).Read := by
  rw [readFz]
  split
  next => trivial
  next => exact read_decodeFloat f c

theorem Exact.Read.neg {x : Exact} (h : x.Read) : x.neg.Read := by cases x <;> exact h

theorem read_exactOfScaled (z : Bool) (x e : Int) : (exactOfScaled z x e).Read := by
  rw [exactOfScaled]
  split
  next => trivial
  next h => exact ⟨Int.natAbs_ne_zero.mpr h, rfl⟩

theorem Exact.Read.add {x y : Exact} (hx : x.Read) (hy : y.Read) : (x.add y).Read := by
  cases x with
  | nan => trivial
  | inf s =>
    cases y with
    | inf t => rw [Exact.add]; split <;> trivial
    | _ => trivial
  | zero s => cases y <;> trivial
  | fin s n e k =>
    cases y with
    | fin t m f j => exact read_exactOfScaled ..
    | zero t => exact hx
    | _ => trivial

/-! ## The order of values -/

/-- The size of a value that is not NaN. -/
def Exact.size (x : Exact) : WithBot (WithTop ℚ) :=
  x.real.elim (if x.isNeg then ⊥ else ⊤) (fun p => ((p : WithTop ℚ) : WithBot (WithTop ℚ)))

/-- The rank of a value: its size, and −0 below +0. -/
def Exact.rank (x : Exact) : WithBot (WithTop ℚ) ×ₗ Bool := toLex (x.size, !x.isNeg)

theorem Exact.real_neg {x : Exact} {p : ℚ} (h : x.real = some p) : x.neg.real = some (-p) := by
  obtain ⟨s, rfl, rfl⟩ | ⟨s, n, e, rfl, rfl⟩ := real_cases h
  · simp [Exact.neg, Exact.real]
  · cases s <;> simp [Exact.neg, Exact.real, signInt]

theorem Exact.Read.cases {x : Exact} (h : x.Read) (hnan : x ≠ .nan) : (∃ s, x = .inf s) ∨ ∃ p, x.real = some p := by
  cases x with
  | nan => exact absurd rfl hnan
  | inf s => exact .inl ⟨s, rfl⟩
  | zero s => exact .inr ⟨0, rfl⟩
  | fin s n e k =>
    obtain ⟨-, rfl⟩ := h
    exact .inr ⟨_, rfl⟩

theorem Exact.size_of_real {x : Exact} {p : ℚ} (h : x.real = some p) : x.size = ((p : WithTop ℚ) : WithBot (WithTop ℚ)) := by
  rw [Exact.size, h]
  rfl

/-- The sign that the comparison takes of a difference. -/
def Exact.signum : Exact → Int
  | .fin s _ _ _ => if s then -1 else 1
  | _ => 0

theorem Exact.signum_iff {z : Exact} {r : ℚ} (hz : z.Read) (hr : z.real = some r) :
    (z.signum < 0 ↔ r < 0) ∧ (z.signum = 0 ↔ r = 0) := by
  obtain ⟨s, rfl, rfl⟩ | ⟨s, n, e, rfl, rfl⟩ := real_cases hr
  · simp [Exact.signum]
  · have hn : (0 : ℚ) < n * 2 ^ e := by
      have := Nat.pos_of_ne_zero hz.1
      positivity
    cases s with
    | true =>
      have hr : (signInt true n : ℚ) * 2 ^ e < 0 := by simpa [signInt] using hn
      exact ⟨iff_of_true (show (-1 : Int) < 0 by decide) hr, iff_of_false (show (-1 : Int) ≠ 0 by decide) hr.ne⟩
    | false => exact ⟨iff_of_false (show ¬ (1 : Int) < 0 by decide) hn.not_gt, iff_of_false (show (1 : Int) ≠ 0 by decide) hn.ne'⟩

theorem Exact.cmp_of_real {x y : Exact} {p q : ℚ} (hx : x.real = some p) (hy : y.real = some q) : x.cmp y = (x.sub y).signum := by
  obtain ⟨s, rfl, -⟩ | ⟨s, n, e, rfl, -⟩ := real_cases hx <;> obtain ⟨t, rfl, -⟩ | ⟨t, m, f, rfl, -⟩ := real_cases hy <;> rfl

theorem Exact.cmp_iff {x y : Exact} (hx : x.Read) (hy : y.Read) (hxn : x ≠ .nan) (hyn : y ≠ .nan) :
    (x.cmp y < 0 ↔ x.size < y.size) ∧ (x.cmp y = 0 ↔ x.size = y.size) := by
  obtain ⟨s, rfl⟩ | ⟨p, hp⟩ := hx.cases hxn
  · obtain ⟨t, rfl⟩ | ⟨q, hq⟩ := hy.cases hyn
    · cases s <;> cases t <;> decide
    · have hcmp : (Exact.inf s).cmp y = if s then -1 else 1 := by
        obtain ⟨t, rfl, -⟩ | ⟨t, m, f, rfl, -⟩ := real_cases hq <;> rfl
      rw [hcmp, size_of_real hq]
      cases s <;> simp [Exact.size, Exact.real, Exact.isNeg]
  · obtain ⟨t, rfl⟩ | ⟨q, hq⟩ := hy.cases hyn
    · have hcmp : x.cmp (Exact.inf t) = if t then 1 else -1 := by
        obtain ⟨s, rfl, -⟩ | ⟨s, n, e, rfl, -⟩ := real_cases hp <;> rfl
      rw [hcmp, size_of_real hp]
      have htop : ((p : WithTop ℚ) : WithBot (WithTop ℚ)) < ⊤ := WithBot.coe_lt_coe.mpr (WithTop.coe_lt_top p)
      cases t <;> simp [Exact.size, Exact.real, Exact.isNeg, htop, htop.ne]
    · obtain ⟨hlt, heq⟩ := signum_iff (hx.add hy.neg) (Exact.real_add hp (real_neg hq))
      rw [cmp_of_real hp hq, size_of_real hp, size_of_real hq, WithBot.coe_lt_coe, WithTop.coe_lt_coe, WithBot.coe_inj,
        WithTop.coe_inj, Exact.sub, hlt, heq, ← sub_eq_add_neg, sub_neg, sub_eq_zero]
      exact ⟨.rfl, .rfl⟩

theorem ltZero_iff {x y : Exact} (hx : x.Read) (hy : y.Read) (hxn : x ≠ .nan) (hyn : y ≠ .nan) :
    ltZero x y = true ↔ x.rank < y.rank := by
  obtain ⟨hlt, heq⟩ := Exact.cmp_iff hx hy hxn hyn
  have hneg : (x.isNeg && !y.isNeg) = true ↔ (!x.isNeg) < (!y.isNeg) := by cases x.isNeg <;> cases y.isNeg <;> decide
  rw [Exact.rank, Exact.rank, Prod.Lex.toLex_lt_toLex, ← hlt, ← heq, ltZero, Bool.and_assoc, Bool.or_eq_true, Bool.and_eq_true, hneg,
    decide_eq_true_eq, decide_eq_true_eq]

/-! ## The least by a rank -/

/-- The first of two values unless the other is less by `key`; NaN if either is. -/
def leastBy {α : Type} [LinearOrder α] (key : Exact → α) (x y : Exact) : Exact :=
  if x = .nan ∨ y = .nan then .nan else if key y < key x then y else x

section
variable {α : Type} [LinearOrder α] {key : Exact → α} {x y z : Exact}

theorem leastBy_of_lt (hx : x ≠ .nan) (hy : y ≠ .nan) (h : key y < key x) : leastBy key x y = y := by
  rw [leastBy, if_neg (not_or.mpr ⟨hx, hy⟩), if_pos h]

theorem leastBy_of_le (hx : x ≠ .nan) (hy : y ≠ .nan) (h : key x ≤ key y) : leastBy key x y = x := by
  rw [leastBy, if_neg (not_or.mpr ⟨hx, hy⟩), if_neg h.not_gt]

theorem Exact.Read.leastBy (hx : x.Read) (hy : y.Read) : (leastBy key x y).Read := by
  rw [Machine.leastBy]
  split
  next => trivial
  split
  next => exact hy
  next => exact hx

theorem leastBy_assoc : leastBy key (leastBy key x y) z = leastBy key x (leastBy key y z) := by
  by_cases hx : x = .nan
  · simp [leastBy, hx]
  by_cases hy : y = .nan
  · simp [leastBy, hy]
  by_cases hz : z = .nan
  · simp [leastBy, hz]
  rcases lt_or_ge (key y) (key x) with hyx | hxy
  · rcases lt_or_ge (key z) (key y) with hzy | hyz
    · rw [leastBy_of_lt hx hy hyx, leastBy_of_lt hy hz hzy, leastBy_of_lt hx hz (hzy.trans hyx)]
    · rw [leastBy_of_lt hx hy hyx, leastBy_of_le hy hz hyz, leastBy_of_lt hx hy hyx]
  · rcases lt_or_ge (key z) (key y) with hzy | hyz
    · rw [leastBy_of_le hx hy hxy, leastBy_of_lt hy hz hzy]
    · rw [leastBy_of_le hx hy hxy, leastBy_of_le hy hz hyz, leastBy_of_le hx hy hxy, leastBy_of_le hx hz (hxy.trans hyz)]

end

theorem minExact_eq {x y : Exact} (hx : x.Read) (hy : y.Read) : minExact x y = leastBy Exact.rank x y := by
  rw [minExact, leastBy]
  split
  next => rfl
  next h => simp only [ltZero_iff hy hx (fun e => h (.inr e)) (fun e => h (.inl e))]

theorem maxExact_eq {x y : Exact} (hx : x.Read) (hy : y.Read) : maxExact x y = leastBy (fun x => OrderDual.toDual x.rank) x y := by
  rw [maxExact, leastBy]
  split
  next => rfl
  next h => simp only [ltZero_iff hx hy (fun e => h (.inl e)) (fun e => h (.inr e)), OrderDual.toDual_lt_toDual]

/-! ## Reductions (R129) -/

section
variable {α : Type} [LinearOrder α] {key : Exact → α} {f : Exact → Exact → Exact}
  (hf : ∀ x y : Exact, x.Read → y.Read → f x y = leastBy key x y)
include hf

theorem foldl_least {t : List Exact} (ht : ∀ x ∈ t, x.Read) {x b : Exact} (hx : x.Read) (hb : b.Read) :
    t.foldl f (f x b) = f x (t.foldl f b) := by
  have hread : ∀ {x y : Exact}, x.Read → y.Read → (f x y).Read := fun hx hy => by rw [hf _ _ hx hy]; exact hx.leastBy hy
  induction t generalizing b with
  | nil => rfl
  | cons c t ih =>
    have hc : c.Read := ht c List.mem_cons_self
    have hassoc : f (f x b) c = f x (f b c) := by
      rw [hf _ _ (hread hx hb) hc, hf _ _ hx hb, hf _ _ hx (hread hb hc), hf _ _ hb hc, leastBy_assoc]
    rw [List.foldl_cons, List.foldl_cons, hassoc, ih (fun y hy => ht y (List.mem_cons_of_mem _ hy)) (hread hb hc)]

theorem reduceBy_eq_foldBy (none_ : Exact) {l : List Exact} (hl : ∀ x ∈ l, x.Read) : reduceBy f none_ l = foldBy f none_ l := by
  cases l with
  | nil => rfl
  | cons x t =>
    induction t generalizing x with
    | nil => rfl
    | cons b t ih =>
      have hx : x.Read := hl x List.mem_cons_self
      have ht : ∀ y ∈ b :: t, y.Read := fun y hy => hl y (List.mem_cons_of_mem _ hy)
      have hstep : reduceBy f none_ (x :: b :: t) = f x (reduceBy f none_ (b :: t)) := rfl
      rw [hstep, ih b ht]
      exact (foldl_least hf (fun y hy => ht y (List.mem_cons_of_mem _ hy)) hx (ht b List.mem_cons_self)).symm

end

theorem reduceBy_minExact (none_ : Exact) {l : List Exact} (hl : ∀ x ∈ l, x.Read) : reduceBy minExact none_ l = foldBy minExact none_ l :=
  reduceBy_eq_foldBy (fun _ _ => minExact_eq) none_ hl

theorem reduceBy_maxExact (none_ : Exact) {l : List Exact} (hl : ∀ x ∈ l, x.Read) : reduceBy maxExact none_ l = foldBy maxExact none_ l :=
  reduceBy_eq_foldBy (fun _ _ => maxExact_eq) none_ hl

end Sys2Proof.Machine
end

section
/-! PROOFS. The reductions, mask instructions, packed blocks, laid windows and quantization (R127, R129, R133, R135 to R141): the
slot of each does what its rule says. -/

open Sys2Proof.Machine

namespace Sys2Proof.Machine

/-! ## An instruction whose slot runs -/

theorem exec_of_runs {s : State} {i : Instr} {f : Device → Except Ev Device} {x : Did} (hslot : slotOf i = some f)
    (hready : s.dev.Ready i) (hacts : isNop i = false) (hruns : x.Runs s.dev i s.dev (f (s.dev.opened i))) (hclear : s.dev.Clear x)
    (hstays : x.exits = false) (hlater : ∀ p ∈ x.flights, 0 < p.1) : exec i s = .next { s with dev := s.dev.after i x } := by
  rw [exec_eq_issueOne hslot]
  exact issueOne_runs hready hacts hruns hclear.banks hstays hlater

/-- An instruction that puts only the raise of a fault in flight. -/
theorem exec_of_raise {s : State} {i : Instr} {f : Device → Except Ev Device} {n : Nat} {ev : Ev} (hslot : slotOf i = some f)
    (hready : s.dev.Ready i) (hf : f (s.dev.opened i) = addFlight n (.raise ev) (s.dev.opened i))
    (hclear : s.dev.Clear { flights := [(n, .raise ev)] }) (hn : 0 < n := by decide) (hacts : isNop i = false := by rfl) :
    exec i s = .next { s with dev := s.dev.after i { flights := [(n, .raise ev)] } } := by
  refine exec_of_runs hslot hready hacts ?_ hclear rfl (fun p hp => ?_)
  · rw [hf]
    exact (Did.Leaves.start s.dev i hready.present).addQuiet rfl n _ rfl
  · rwa [List.mem_singleton.mp hp]

/-! ## Elements under a mask (R116) -/

section
variable (d : Device)

theorem Device.partsOf_eq (e : FpFmt) (r a : VNum) (m : VMod) (acc : Bool) :
    d.partsOf e r a m acc = d.participants (d.vmodes m) e r a m acc := by
  rw [Device.partsOf, Device.participants, rangeFrom_zero, Device.vmask]
  cases m.mask <;> rfl

theorem Device.maskOf_eq (m : VMod) (r : MNum) (n : Nat) (f : Nat → Bool) (fl : Nat → Flags) : d.maskOf m r n f =
    BitVec.ofNat 1024 (ofElems 1 (codesOf (mapElems (d.vmask m) n (fun k => bitField (d.srcM r).toNat k 1) (fun k => (bitOf (f k), fl k))))) := by
  rw [Device.maskOf, codesOf, mapElems, rangeFrom_zero, List.map_map, Device.vmask]
  congr 3
  funext k
  cases m.mask with
  | none => rfl
  | some p =>
    simp only [Function.comp, maskElem, apply_ite Prod.fst]
    rfl

theorem Device.packed_eq (a : VNum) (m : VMod) (w : Nat) : d.packed a m w =
    (rangeFrom 0 (4096 / w)).map (fun k => if (d.vmask m).active k then velem w (d.srcV a) k else 0) := by
  rw [Device.packed, rangeFrom_zero, Device.vmask]
  cases m.mask <;> rfl

theorem Device.unpackedInto_eq (r : VNum) (m : VMod) (w : Nat) (codes : List Nat) : d.unpackedInto r m w codes =
    vdata w (codesOf (mapElems (d.vmask m) (4096 / w) (fun k => velem w (d.srcV r) k) (fun k => plain (codes.getD k 0)))) := by
  rw [Device.unpackedInto, codesOf, mapElems, rangeFrom_zero, List.map_map, Device.vmask]
  congr 2
  funext k
  cases m.mask with
  | none => rfl
  | some p =>
    simp only [Function.comp, maskElem, apply_ite Prod.fst]
    rfl

theorem Device.weights_eq (m : VMod) (w : BitVec 192) (c : Nat) : d.weights m w c =
    (((rangeFrom 0 c).zip (laidIndices w c)).filter (fun p => (d.vmask m).active p.1)).map (fun p => p.2) := by
  have hzip : (rangeFrom 0 c).zip (laidIndices w c) = (List.range c).map (fun k => (k, (lwBoff w / lwKw w + k) % lwN w)) := by
    rw [laidIndices, rangeFrom_zero, ← List.zip_map', List.map_id']
  rw [Device.weights, hzip, List.filter_map, List.map_map, Device.vmask]
  cases m.mask <;> rfl

end

theorem orFlags_raised (c : Nat → Bool) (fl : Flags) (l : List Nat) :
    orFlags (l.map (fun k => if c k then fl else 0)) = if l.any c then fl else 0 := by
  induction l with
  | nil => rfl
  | cons k t ih =>
    rw [List.map_cons, orFlags, ih, List.any_cons]
    cases c k <;> cases t.any c <;> simp

/-! ## Reductions (R129) -/

theorem read_partsOf {d : Device} {e : FpFmt} {r a : VNum} {m : VMod} {acc : Bool} : ∀ x ∈ d.partsOf e r a m acc, x.Read := by
  intro x hx
  rcases List.mem_append.mp hx with hx | hx
  · cases acc with
    | true =>
      obtain rfl := List.mem_singleton.mp hx
      exact read_readFz ..
    | false => cases hx
  · obtain ⟨k, -, rfl⟩ := List.mem_map.mp hx
    exact read_readFz ..

section
variable {d : Device}

theorem vredsum_puts {e : FpFmt} {r a : VNum} {n : SReg} {m : VMod} {acc : Bool} (hready : d.Ready (.vredsum e r a n m acc)) :
    let x := reduceSum (d.partsOf e r a m acc)
    let y := deliverFz (d.vmodes m) (d.value n).toNat (fpFloat e) x.1
    d.Puts (.vredsum e r a n m acc) 6 [.v r 0 512 (BitVec.ofNat 4096 y.1)] (y.2 ||| x.2) (some r) := by
  refine ⟨by decide, rfl, _, rfl, ?_⟩
  rw [slotVredsum, bind_of_ok (hready.source (.head _)), d.partsOf_eq]
  rfl

theorem vredmax_puts (e : FpFmt) (r a : VNum) (m : VMod) (acc : Bool) : d.Puts (.vredmax e r a m acc) 6
    [.v r 0 512 (BitVec.ofNat 4096 (exactCode (fpFloat e) (foldBy maxExact (.inf true) (d.partsOf e r a m acc))))] 0 (some r) := by
  refine ⟨by decide, rfl, _, rfl, ?_⟩
  rw [← reduceBy_maxExact _ read_partsOf, d.partsOf_eq]
  rfl

theorem vredmin_puts (e : FpFmt) (r a : VNum) (m : VMod) (acc : Bool) : d.Puts (.vredmin e r a m acc) 6
    [.v r 0 512 (BitVec.ofNat 4096 (exactCode (fpFloat e) (foldBy minExact (.inf false) (d.partsOf e r a m acc))))] 0 (some r) := by
  refine ⟨by decide, rfl, _, rfl, ?_⟩
  rw [← reduceBy_minExact _ read_partsOf, d.partsOf_eq]
  rfl

/-! ## Masks (R127, R135, R136) -/

/-- The invalid flag of VCMP is raised where an active element with a NaN is compared in order (R127). -/
theorem vcmp_flags (c : VCond) (mask : Mask) (n : Nat) (old : Nat → Nat) (f : Nat → Bool) (x y : Nat → Exact) :
    flagsOf (mapElems mask n old (fun k => (bitOf (f k), if VCond.signals c ∧ (x k = .nan ∨ y k = .nan) then fNV else 0))) =
      if (List.range n).any (fun k => VCond.signals c && mask.active k && (decide (x k = .nan) || decide (y k = .nan))) then fNV else 0 := by
  rw [← orFlags_raised, flagsOf, mapElems, rangeFrom_zero, List.map_map]
  congr 2
  funext k
  cases mask with
  | none => simp [Function.comp, maskElem, Mask.active]
  | some p =>
    by_cases hp : bitAt p.1 k = true <;> simp [Function.comp, maskElem, Mask.active, hp]

theorem vcmp_puts (e : FpFmt) (c : VCond) (r : MNum) (a b : VNum) (m : VMod) :
    d.Puts (.vcmp e c r a b m) 4
      [.m r (d.maskOf m r (4096 / fpWidth e) (fun k => vcondHolds c (d.fpElem m e a k) (d.fpElem m e b k)))]
      (if (List.range (4096 / fpWidth e)).any (fun k => VCond.signals c && (d.vmask m).active k &&
        (decide (d.fpElem m e a k = .nan) || decide (d.fpElem m e b k = .nan))) then fNV else 0) none := by
  refine ⟨by decide, rfl, _, rfl, ?_⟩
  rw [← vcmp_flags c (d.vmask m) _ (fun k => bitField (d.srcM r).toNat k 1)
    (fun k => vcondHolds c (d.fpElem m e a k) (d.fpElem m e b k)), d.maskOf_eq]
  rfl

theorem vhusk_puts {r : BitVec 6} {a b : SReg} {m : VMod} {hk : Bool} {wc : EWidth} {p : BitVec 16}
    (hready : d.Ready (.vhusk r a b m hk true wc p)) :
    let key := (if hk then d.regs.hkey else d.value a).toNat
    d.Puts (.vhusk r a b m hk true wc p) 6
      [.m (Fin.ofNat 8 r.toNat) (d.maskOf m (Fin.ofNat 8 r.toNat) (4096 / wc.bits)
        (fun k => decide (p.toNat ≤ husk key ((d.value b).toNat + k) / 65536)))] 0 none := by
  refine ⟨by decide, rfl, _, rfl, ?_⟩
  rw [slotVhusk, bind_of_ok (huskKey_ok hready), bind_of_ok (hready.source vhusk_reads), d.maskOf_eq m _ _ _ (fun _ => 0)]
  rfl

theorem vins_puts {e : EWidth} {r : VNum} {a b : SReg} {m : VMod} (hready : d.Ready (.vins e r a b m)) :
    d.Puts (.vins e r a b m) 3 [.v r 0 512 (if (d.value b).toNat < 4096 / e.bits then
      BitVec.ofNat 4096 (setField d.regs.v[r].toNat (e.bits * (d.value b).toNat) e.bits (d.value a).toNat) else d.regs.v[r])] 0 (some r) := by
  refine ⟨by decide, rfl, _, rfl, ?_⟩
  rw [slotVins, bind_of_ok (hready.source (.head _)), bind_of_ok (hready.source (.tail _ (.head _)))]
  rfl

/-! ## Packed blocks (R137, R138) -/

theorem slotVpack_opened (i : Instr) (r a : VNum) (m : VMod) (f : BitVec 5) (res : BitVec 8) :
    let codes := d.packed a m (fmtWidth f.toNat)
    let x := packBlock f.toNat (fmtWidth f.toNat) codes
    slotVpack r a m f res (d.opened i) =
      if 8 * res.toNat < packBytes (fmtWidth f.toNat) codes then
        addFlight 6 (.raise (d.ev 8 0 (packBytes (fmtWidth f.toNat) codes) (8 * res.toNat) 0 0)) (d.opened i)
      else landGroup 6 r [BitVec.ofNat 4096 x, BitVec.ofNat 4096 (x / 2 ^ 4096)] 0 (d.opened i) := by
  rw [d.packed_eq]
  rfl

theorem landGroup_pair (n : Nat) (r : VNum) (x y : VData) (fl : Flags) (s : Device) :
    landGroup n r [x, y] fl s = land n [.v r 0 512 x, .v (vnum (r.val + 1)) 0 512 y] fl (some r) s := by
  have hwrites : vectorWrites ((rangeFrom r.val 2).zip [x, y]) = [.v r 0 512 x, .v (vnum (r.val + 1)) 0 512 y] := by
    simp [vectorWrites, rangeFrom, vnum_val]
  rw [← hwrites]
  rfl

theorem length_unpackFrom (mask vals w : Nat) (n i k : Nat) : (unpackFrom mask vals w i k n).length = n := by
  induction n generalizing i k with
  | zero => rfl
  | succ n ih =>
    rw [unpackFrom]
    split <;> rw [List.length_cons, ih]

theorem unpackFrom_lt (mask vals w : Nat) (n i k : Nat) : ∀ c ∈ unpackFrom mask vals w i k n, c < 2 ^ w := by
  induction n generalizing i k with
  | zero => simp [unpackFrom]
  | succ n ih =>
    rw [unpackFrom]
    split
    next => exact List.forall_mem_cons.mpr ⟨Nat.mod_lt _ (Nat.two_pow_pos w), ih _ _⟩
    next => exact List.forall_mem_cons.mpr ⟨Nat.two_pow_pos w, ih _ _⟩

theorem unpackBlock_lt (x : Nat) {c : Nat} (h : c ∈ unpackBlock x) : c < 2 ^ fmtWidth (bitField x 32 5) :=
  unpackFrom_lt _ _ _ _ _ _ c h

/-- The elements of a checked block, read from one value as they were put there. -/
theorem elemAt_unpackBlock (x k : Nat) :
    elemAt (fmtWidth (bitField x 32 5)) (ofElems (fmtWidth (bitField x 32 5)) (unpackBlock x)) k = (unpackBlock x).getD k 0 := by
  rw [elemAt_ofElems]
  apply Nat.mod_eq_of_lt
  rw [List.getD_eq_getElem?_getD]
  cases h : (unpackBlock x)[k]? with
  | none => exact Nat.two_pow_pos _
  | some c => exact unpackBlock_lt x (List.mem_of_getElem? h)

/-- The checks of a block against the elements of a vector register (R86, R138). -/
def vectorCheck (x : Nat) : Option (Nat × Nat × Nat) :=
  unpackCheck x (if fmtWidth (bitField x 32 5) = 0 then 0 else 4096 / fmtWidth (bitField x 32 5))

/-- VUNPACK of the block `x` (R138). -/
def unpackInto (r : VNum) (m : VMod) (x : Nat) (s : Device) : Except Ev Device :=
  let w := fmtWidth (bitField x 32 5)
  match vectorCheck x with
  | some (c, p, q) => addFlight 6 (.raise (s.ev 9 c p q 0 0)) s
  | none => landElems 6 w r (s.vmask m) (fun k => plain (elemAt w (ofElems w (unpackBlock x)) k)) s

/-- VUNPACK by the number that its pair of registers holds. The slot is unfolded as a function, before its arguments: the kernel
would run the checks on the pair's number, of 8192 bits, to compare two unfolded calls. -/
theorem slotVunpack_eq {r a : VNum} {m : VMod} {s : Device} {x : Nat}
    (hx : (s.srcV a).toNat + (s.srcVn (a.val + 1)).toNat * 2 ^ 4096 = x) : slotVunpack r a m s = unpackInto r m x s := by
  obtain ⟨f, hf⟩ : ∃ f, f = slotVunpack := ⟨_, rfl⟩
  rw [← hf]
  delta slotVunpack at hf
  rw [hf]
  simp only [hx]
  rfl

theorem opened_blockIn (i : Instr) (a : VNum) :
    ((d.opened i).srcV a).toNat + ((d.opened i).srcVn (a.val + 1)).toNat * 2 ^ 4096 = d.blockIn a := by
  rw [Device.opened_srcV, Device.opened_srcVn, Device.srcV, Device.srcVn, Device.blockIn]

section
variable {x : Nat} (r : VNum) (m : VMod) (s : Device)

theorem unpackInto_fails {c p q : Nat}
    (h : vectorCheck x = some (c, p, q)) :
    unpackInto r m x s = addFlight 6 (.raise (s.ev 9 c p q 0 0)) s := by
  simp only [unpackInto, h]

theorem unpackInto_passes
    (h : vectorCheck x = none) :
    unpackInto r m x s = landV 6 r (s.unpackedInto r m (fmtWidth (bitField x 32 5)) (unpackBlock x)) 0 s := by
  have hflags (old f : Nat → Nat) (n : Nat) : flagsOf (mapElems (s.vmask m) n old (fun k => plain (f k))) = 0 := by
    rw [flagsOf]
    exact orFlags_zero (fun fl hfl => by
      obtain ⟨_, hmem, rfl⟩ := List.mem_map.mp hfl
      obtain ⟨k, -, rfl⟩ := List.mem_map.mp hmem
      exact maskElem_flags_zero _ _ _ _)
  simp only [unpackInto, h, elemAt_unpackBlock, landElems, hflags, s.unpackedInto_eq]

end

section
variable {r a : VNum} {m : VMod}

theorem blockRule_vunpack_fails {c p q : Nat} (h : vectorCheck (d.blockIn a) = some (c, p, q)) :
    blockRule d (.vunpack r a m) = some { flights := [(6, .raise (d.ev 9 c p q 0 0))] } := by
  rw [vectorCheck] at h
  rw [blockRule]
  simp only [h]

theorem blockRule_vunpack_passes (h : vectorCheck (d.blockIn a) = none) :
    blockRule d (.vunpack r a m) = some {
      flights := results 6 [.v r 0 512 (d.unpackedInto r m (fmtWidth (bitField (d.blockIn a) 32 5)) (unpackBlock (d.blockIn a)))] 0
        (some r) } := by
  rw [vectorCheck] at h
  rw [blockRule]
  simp only [h]

end

/-! ## Laid windows (R140) -/

theorem Device.phys_zero_add (a b : Nat) : d.phys 0 + a + b = d.phys a + b := by
  simp only [Device.phys, Launch.spPhys]
  omega

theorem slotVlaid_opened {i : Instr} {r : VNum} {q : LwNum} {n : SReg} {m : VMod} {adv w32 : Bool} (hready : d.Ready i)
    (hsource : n ∈ scalarSources i) (hw : lwFails d.regs.lw[q] d.curLaunch.spSize = none) :
    let w := d.regs.lw[q]
    let idx := d.weights m w (if w32 then 128 else 256)
    slotVlaid r q n m adv w32 (d.opened i) = (do
      let s ← addFlight 5 (.finish (.laid r w w32 (if adv then some q else none) (d.vmodes m) (d.vmask m) d.regs.v[r] (d.value n))) (d.opened i)
      let s ← captureLines 1 d.seq (d.segmentLines w idx) s
      let s ← captureLines 2 d.seq (d.gscaleLines w idx) s
      .ok (useLines s.issue.core 2 2 (d.gscaleLines w idx) (useLines s.issue.core 1 2 (d.segmentLines w idx) s))) := by
  have hwindow : (d.opened i).laidWindow q = .ok d.regs.lw[q] := by
    simp only [Device.laidWindow, Device.opened_regs, Device.opened_curLaunch, hw]
  intro w idx
  rw [slotVlaid, bind_of_ok (hready.source hsource), bind_of_ok hwindow]
  simp only [w, idx, Device.segmentLines, Device.gscaleLines, d.weights_eq, ← d.phys_zero_add (lwSptr _), ← d.phys_zero_add (lwGsptr _)]
  rfl

theorem Did.Leaves.captureLines {x : Did} {i : Instr} {now t : Device} (h : Did.Leaves x d i now t) (hm : x.more = 0) (n target : Nat)
    (lines : List Nat) : Did.Runs { x with flights := x.flights ++ [(n, .capture target (lines.map (fun a => (spKey d.issue.core a, 64))))] }
      d i now (Machine.captureLines n target lines t) := by
  rw [Machine.captureLines, h.own.core]
  exact h.addQuiet hm n _ rfl

theorem vlaid_runs {r : VNum} {q : LwNum} {n : SReg} {m : VMod} {adv w32 : Bool} (hready : d.Ready (.vlaid r q n m adv w32))
    (hw : lwFails d.regs.lw[q] d.curLaunch.spSize = none) (hclear : d.Clear (d.laidLoad r q (d.value n) m adv w32)) :
    (d.laidLoad r q (d.value n) m adv w32).Runs d (.vlaid r q n m adv w32) d
      (slotVlaid r q n m adv w32 (d.opened (.vlaid r q n m adv w32))) := by
  have hmask : m.mask.map (fun p => (d.regs.m[p.1].toNat, p.2)) = d.vmask m := by
    rw [Device.vmask]
    cases m.mask <;> rfl
  rw [slotVlaid_opened hready (.head _) hw]
  rw [Device.laidLoad, hmask] at hclear ⊢
  obtain ⟨t₁, h₁, hl₁⟩ := (Did.Leaves.start d (.vlaid r q n m adv w32) hready.present).addFlight rfl 5 _ (hclear.lands _ List.mem_cons_self)
  rw [bind_of_ok h₁]
  obtain ⟨t₂, h₂, hl₂⟩ := hl₁.captureLines rfl 1 d.seq (d.segmentLines _ _)
  rw [bind_of_ok h₂]
  obtain ⟨t₃, h₃, hl₃⟩ := hl₂.captureLines rfl 2 d.seq (d.gscaleLines _ _)
  rw [bind_of_ok h₃, hl₃.own.core]
  exact ⟨_, rfl, Did.Leaves.useLines _ 2 2 _ _ _ (hl₃.useLines _ 1 2 _ _ _)⟩

theorem laidLoad_later {r : VNum} {q : LwNum} {off : Dbl} {m : VMod} {adv w32 : Bool} :
    ∀ p ∈ (d.laidLoad r q off m adv w32).flights, 0 < p.1 := by
  simp [Device.laidLoad]

/-! ## Quantization (R141) -/

theorem vqnt_puts {r a : VNum} {n : SReg} {m : VMod} {fout : BitVec 3} {sin : Bool} {cbx : CbNum} {kreg : KNum} {sb : BitVec 6}
    (hready : d.Ready (.vqnt r a n m fout sin cbx kreg sb)) :
    let l := d.quantized (if sin then .bf16 else .fp32) a m (qntFmt fout d.regs.cb[cbx]) (d.value n).toNat (if sin then 8 else 4)
    d.Puts (.vqnt r a n m fout sin cbx kreg sb) 10
      [.v r 0 512 (vdata (if fout.toNat < 4 then 8 else 4) (l.map (fun x => x.codes)).flatten),
       .k kreg sb.toNat l.length (BitVec.ofNat 512 (ofElems 8 (l.map (fun x => x.x)) * 2 ^ (8 * sb.toNat)))]
      (orFlags (l.map (fun x => orFlags x.flags))) (some r) := by
  intro l
  refine ⟨by decide, rfl, _, rfl, ?_⟩
  have hlen : l.length = if sin then 8 else 4 := by simp [l, Device.quantized]
  rw [slotVqnt, bind_of_ok (hready.source (.head _)), hlen]
  simp only [l, Device.quantized, rangeFrom_zero, rangeFrom_eq_map (32 * _), List.map_map]
  rfl

end

/-! ## The rule -/

/-- The rule of VCMP by the mask that its slot reads. -/
theorem blockRule_vcmp (d : Device) (e : FpFmt) (c : VCond) (r : MNum) (a b : VNum) (m : VMod) : blockRule d (.vcmp e c r a b m) = some {
    flights := results 4 [.m r (d.maskOf m r (4096 / fpWidth e) (fun k => vcondHolds c (d.fpElem m e a k) (d.fpElem m e b k)))]
      (if (List.range (4096 / fpWidth e)).any (fun k => VCond.signals c && (d.vmask m).active k &&
        (decide (d.fpElem m e a k = .nan) || decide (d.fpElem m e b k = .nan))) then fNV else 0) none } := by
  rw [blockRule, Device.vmask]
  cases m.mask <;> rfl

theorem exec_of_blockRule {s : State} {i : Instr} {x : Did} (hready : s.dev.Ready i) (hrule : blockRule s.dev i = some x)
    (hclear : s.dev.Clear x) : exec i s = .next { s with dev := s.dev.after i x } := by
  cases i with
  | vredsum => cases hrule; exact exec_of_puts hready (vredsum_puts hready) hclear.lands
  | vredmax => cases hrule; exact exec_of_puts hready (vredmax_puts ..) hclear.lands
  | vredmin => cases hrule; exact exec_of_puts hready (vredmin_puts ..) hclear.lands
  | vins => cases hrule; exact exec_of_puts hready (vins_puts hready) hclear.lands
  | vcmp =>
    rw [blockRule_vcmp] at hrule
    cases hrule
    exact exec_of_puts hready (vcmp_puts ..) hclear.lands
  | vhusk r a b m hk msk wc p =>
    cases msk with
    | true => cases hrule; exact exec_of_puts hready (vhusk_puts hready) hclear.lands
    | false => cases hrule
  | mand | mor | mnot => cases hrule; exact exec_of_puts hready ⟨by decide, rfl, _, rfl, rfl⟩ hclear.lands
  | vpack r a m f res =>
    simp only [blockRule] at hrule
    split at hrule
    next hfits =>
      cases hrule
      refine exec_of_puts (n := 6) hready ⟨by decide, rfl, slotVpack r a m f res, rfl, ?_⟩ hclear.lands
      rw [slotVpack_opened, if_neg (not_lt.mpr hfits), landGroup_pair]
    next hover =>
      cases hrule
      exact exec_of_raise rfl hready (by rw [slotVpack_opened, if_pos (not_le.mp hover)]) hclear
  | vunpack r a m =>
    cases hcheck : vectorCheck (s.dev.blockIn a) with
    | some f =>
      obtain ⟨c, p, q⟩ := f
      rw [blockRule_vunpack_fails hcheck] at hrule
      cases hrule
      refine exec_of_raise (f := slotVunpack r a m) rfl hready ?_ hclear
      rw [slotVunpack_eq (opened_blockIn _ a), unpackInto_fails _ _ _ hcheck]
      rfl
    | none =>
      rw [blockRule_vunpack_passes hcheck] at hrule
      cases hrule
      refine exec_of_puts (n := 6) hready ⟨by decide, rfl, slotVunpack r a m, rfl, ?_⟩ hclear.lands
      rw [slotVunpack_eq (opened_blockIn _ a), unpackInto_passes _ _ _ hcheck]
      rfl
  | vlaid r q n m adv w32 =>
    rw [blockRule] at hrule
    split at hrule
    next hw =>
      cases hrule
      refine exec_of_runs rfl hready rfl (vlaid_runs hready hw hclear) hclear rfl laidLoad_later
    next => cases hrule
  | vqnt => cases hrule; exact exec_of_puts hready (vqnt_puts hready) hclear.lands
  | _ => cases hrule

/-- Settles O10: the slot of each instruction puts in flight what its rule says. -/
theorem blockAndMaskInstructionsWriteTheirResults : Obligations.BlockAndMaskInstructionsWriteTheirResults := by
  unfold Obligations.BlockAndMaskInstructionsWriteTheirResults
  intro s i x hready _ hrule hclear
  exact exec_of_blockRule hready hrule hclear

end Sys2Proof.Machine
end
